-- ==== Sys2Proof/Word.lean ====
section
/-! DEFINITION. The names and widths the whole model is written in: the 16-bit words of the highway (R119),
the numbered resources (chapter 00, section 4), the two engines and the five debounced line signals (R125). -/

namespace Sys2Proof

/-- One 16-bit word of a timeslot (R119) or of a control cell (R181). -/
abbrev Word := BitVec 16

/-- Trunks are numbered 0..7. -/
abbrev TrunkId := Fin 8

/-- Routes are numbered 0..7. -/
abbrev RouteId := Fin 8

/-- Tone entries are numbered 0..15. -/
abbrev ToneId := Fin 16

/-- Cadence entries are numbered 0..7. -/
abbrev CadenceId := Fin 8

/-- Alert handles are numbered 0..31 (R1). -/
abbrev Handle := Fin 32

/-- Classes are numbered 0 (FIRE) to 5 (TEST), a lower number being more urgent. -/
abbrev ClassId := Fin 6

/-- Event kinds are numbered 0..15 (R163). -/
abbrev EventKind := Fin 16

/-- The two dial engines. -/
inductive EngineId where
  | e0
  | e1
  deriving DecidableEq, Repr, Inhabited

/-- A set of engines: the engines that take a posted abort inside the step that posts it (R72). -/
structure EngineSet where
  e0 : Bool
  e1 : Bool
  deriving DecidableEq, Repr, Inhabited

/-- The five debounced signalling bits of a trunk (R125): L, G, V and F from TSI and S from PXI. -/
inductive LineSignal where
  | l
  | g
  | v
  | f
  | s
  deriving DecidableEq, Repr, Inhabited

/-- R114 leaves open which of the two reports of one card fault reaches the Trunk Manager first: the rising
F bit itself, or the holding engine's line failure. -/
inductive FaultOrder where
  | trunkFirst
  | engineFirst
  deriving DecidableEq, Repr, Inhabited

end Sys2Proof
end

