-- ==== Sys2Proof/Syntax.lean ====
section
/-! DEFINITION. The commands of the block: one constructor per row of spec/opcode_table.json, in the table's
order. The table gives its rows no bits and no fields; the operands below are the items the row's own rule
speaks of: the engine, trunk or record that a timer or a report belongs to, the words of a highway frame,
the time of a frame sync pulse. A station row (ALERT, TABLE_WRITE, BAR, ...) acts on the cell that CELL_TAKEN
has handed to its owner (R174), so its arguments are that cell's words (R182) and it has no operand. -/

namespace Sys2Proof

inductive Instr where
  /-- RESET_N_ASSERTED (R132). -/
  | resetNAsserted
  /-- POWER_ON_RESET (R132): RESET_N is released. -/
  | powerOnReset
  /-- FS_PULSE (R129): a pulse seen at this time of the internal timebase, in microseconds. -/
  | fsPulse (time : Nat)
  /-- MISSED_FRAME_START (R129). -/
  | missedFrameStart
  /-- SYNC_LOST (R130): `taken` are the engines that take their abort inside the step. -/
  | syncLost (taken : EngineSet)
  /-- SYNC_RESTORED (R131): by the pulse seen at this time. -/
  | syncRestored (time : Nat)
  /-- HIGHWAY_FRAME (R119): the 32 words received on TSI and on PXI. -/
  | highwayFrame (tsi pxi : List Word)
  /-- DEBOUNCED_L_CHANGE (R100, R53, R54). -/
  | debouncedLChange (trunk : TrunkId)
  /-- DEBOUNCED_G_CHANGE (R99). -/
  | debouncedGChange (trunk : TrunkId)
  /-- DEBOUNCED_V_CHANGE (R64). -/
  | debouncedVChange (trunk : TrunkId)
  /-- DEBOUNCED_F_CHANGE (R114, R55): `order` is the order R114 leaves open. -/
  | debouncedFChange (trunk : TrunkId) (order : FaultOrder)
  /-- DEBOUNCED_S_CHANGE (R100). -/
  | debouncedSChange (trunk : TrunkId)
  /-- WARNING_PART_END (R127). -/
  | warningPartEnd (trunk : TrunkId)
  /-- DETECTION_FRAME_END (R86). -/
  | detectionFrameEnd
  /-- DIAL_TONE_MATCHED_TAKEN (R57): the engine takes a MATCHED naming this tone entry. -/
  | dialToneMatchedTaken (engine : EngineId) (tone : ToneId)
  /-- ANSWER_MATCHED_TAKEN (R62). -/
  | answerMatchedTaken (engine : EngineId) (tone : ToneId)
  /-- ACK_MATCHED_TAKEN (R68). -/
  | ackMatchedTaken (engine : EngineId) (tone : ToneId)
  /-- LINE_TEST_TONE_MATCHED (R156). -/
  | lineTestToneMatched (engine : EngineId) (tone : ToneId)
  /-- ABSENT_TAKEN (R63, R68). -/
  | absentTaken (engine : EngineId) (tone : ToneId)
  /-- LEVEL_TAKEN (R156): the oldest LEVEL report handed to the engine. -/
  | levelTaken (engine : EngineId)
  /-- SECOND_TICK (R4, R20). -/
  | secondTick
  /-- BACKOFF_EXPIRY (R20). -/
  | backoffExpiry (handle : Handle)
  /-- SELECTION (R29). -/
  | selection
  /-- PREEMPT_MARK_TAKEN (R71). -/
  | preemptMarkTaken (engine : EngineId)
  /-- WARNING_TIMER_EXPIRY (R106). -/
  | warningTimerExpiry (trunk : TrunkId)
  /-- RING_RECENT_EXPIRY (R99). -/
  | ringRecentExpiry (trunk : TrunkId)
  /-- GUARD_TIMER_EXPIRY (R111). -/
  | guardTimerExpiry (trunk : TrunkId)
  /-- RELEASE_GUARD_EXPIRY (R52). -/
  | releaseGuardExpiry (engine : EngineId)
  /-- LOOP_TIMEOUT_EXPIRY (R53, R155). -/
  | loopTimeoutExpiry (engine : EngineId)
  /-- DIAL_TONE_TIMEOUT (R57, R156). -/
  | dialToneTimeout (engine : EngineId)
  /-- BLIND_WAIT_EXPIRY (R58). -/
  | blindWaitExpiry (engine : EngineId)
  /-- SYMBOL_END (R61). -/
  | symbolEnd (engine : EngineId)
  /-- ANSWER_TIMEOUT (R62, R63). -/
  | answerTimeout (engine : EngineId)
  /-- GUARD_END (R63, R68). -/
  | guardEnd (engine : EngineId)
  /-- ACK_TIMEOUT (R69). -/
  | ackTimeout (engine : EngineId)
  /-- ACK_TONE_HEARD_TIMEOUT (R68). -/
  | ackToneHeardTimeout (engine : EngineId)
  /-- RESEND_GUARD_END (R69). -/
  | resendGuardEnd (engine : EngineId)
  /-- LOOP_LOSS_EXPIRY (R54, R155). -/
  | loopLossExpiry (engine : EngineId)
  /-- LEVEL_WINDOW_EXPIRY (R156). -/
  | levelWindowExpiry (engine : EngineId)
  /-- ENGINE_ABORT (R72): the engine takes the abort posted to it. -/
  | engineAbort (engine : EngineId)
  /-- HOLD_TIMER_EXPIRY (R42). -/
  | holdTimerExpiry
  /-- COMMAND_EXPIRED (R152). -/
  | commandExpired
  /-- PERIODIC_TEST_EXPIRY (R159). -/
  | periodicTestExpiry
  /-- SILENCE_TIMER_EXPIRY (R160). -/
  | silenceTimerExpiry
  /-- CELL_TAKEN (R174). -/
  | cellTaken
  /-- ALERT (R6). -/
  | alert
  /-- TABLE_WRITE (R135). -/
  | tableWrite
  /-- TABLE_READ (R146). -/
  | tableRead
  /-- QUEUE_READ (R26). -/
  | queueRead
  /-- STATUS_REQUEST (R169). -/
  | statusRequest
  /-- CANCEL (R153). -/
  | cancel
  /-- UNKNOWN_KIND (R174). -/
  | unknownKind
  /-- LINE_TEST (R150). -/
  | lineTest
  /-- TEST_CALL (R150). -/
  | testCall
  /-- BAR (R112). -/
  | bar
  /-- UNBAR (R112). -/
  | unbar
  /-- BAR_ALL (R112). -/
  | barAll
  /-- UNBAR_ALL (R112). -/
  | unbarAll
  /-- HOLD (R41). -/
  | hold
  /-- RESUME (R42). -/
  | resume
  /-- ABORT_CALLS (R72): `taken` are the engines that take their abort inside the step. -/
  | abortCalls (taken : EngineSet)
  /-- RELEASE_STRANDED (R23). -/
  | releaseStranded
  /-- PURGE (R22). -/
  | purge
  /-- SET_NOTIFY (R165). -/
  | setNotify
  /-- CLEAR_EVENTS (R168). -/
  | clearEvents
  /-- INIT (R161): `taken` are the engines that take their abort before the tables are cleared. -/
  | init (taken : EngineSet)
  /-- BAD_COMMAND_CODE (R154). -/
  | badCommandCode
  /-- ANSWER_EMISSION_START (R176). -/
  | answerEmissionStart
  /-- EVENT_CELL_START (R166). -/
  | eventCellStart
  /-- EMISSION_END (R176). -/
  | emissionEnd
  deriving DecidableEq, Repr, Inhabited

end Sys2Proof
end

