-- ==== Sys2Proof/Decode.lean ====
section
/-! DEFINITION. The rows of spec/opcode_table.json that spell their commands in bits: there are none. Every
row's list of fields is empty and no row has fixed bits, because the block has no instruction encoding: its
commands are steps of its own blocks, events of its pins and cells taken from its control channel. -/

namespace Sys2Proof

/-- The command a table word spells. No row of the table gives bits, so no word spells a command. -/
def decodeTableWord (nbits w : Nat) : Option Instr :=
  match nbits, w with
  | _, _ => none

end Sys2Proof
end

