-- ==== Sys2Proof/Machine/Entries.lean ====
section
/-! DEFINITION. The contents of the six tables of the Table Store, field by field (R137 to R142). -/

namespace Sys2Proof.Machine

/-- A dial string symbol (R139): 0..9, * as 10 and # as 11 are sent as tones; P pauses, W waits (R60). -/
inductive DialSymbol where
  | tone (value : Fin 12)
  | pause
  | wait
  deriving DecidableEq, Repr, Inhabited

/-- How much a class's request may take from the office (R102, R138). -/
inductive PreemptMode where
  | none
  | afterWarning
  | immediate
  deriving DecidableEq, Repr, Inhabited

/-- The role a trunk entry gives its trunk (R97, R140). -/
inductive TrunkRole where
  | unused
  | shared
  | reserved
  | office
  deriving DecidableEq, Repr, Inhabited

/-- Whether an engine waits for dial tone after seizing (R53, R139). -/
inductive DialToneMode where
  | wait
  | blind
  deriving DecidableEq, Repr, Inhabited

/-- The site record (R137). Times in milliseconds unless a rule gives another unit. -/
structure SiteRecord where
  account : List (Fin 16)
  dialTone : ToneId
  busyTone : ToneId
  reorderTone : ToneId
  symbolOn : Nat
  symbolOff : Nat
  generatorLevel : Nat
  silenceFloor : Nat
  loopTimeout : Nat
  loopLossTime : Nat
  releaseGuard : Nat
  warningFrequency : Nat
  warningOn : Nat
  warningOff : Nat
  periodicInterval : Nat
  periodicEvent : Nat
  silenceTime : Nat
  silenceEvent : Nat
  lineFaultEvent : Nat
  goodLevel : Nat
  deriving DecidableEq, Repr, Inhabited

/-- A class entry (R138). -/
structure ClassEntry where
  routes : List RouteId
  preemptMode : PreemptMode
  warningTime : Nat
  cancelWindow : Nat
  backoffBase : Nat
  backoffCap : Nat
  maxCycles : Nat
  classSymbol : Fin 16
  deriving DecidableEq, Repr, Inhabited

/-- A route entry (R139). The answer timeout is in seconds, the ack timeout in tenths of a second (R182). -/
structure RouteEntry where
  valid : Bool
  dial : List DialSymbol
  handshakeTone : ToneId
  ackTone : ToneId
  blocksPerCall : Nat
  blockTries : Nat
  fallbackAfter : Nat
  dialToneMode : DialToneMode
  answerTimeout : Nat
  ackTimeout : Nat
  deriving DecidableEq, Repr, Inhabited

/-- A trunk entry (R140). -/
structure TrunkEntry where
  role : TrunkRole
  slot : Nat
  deriving DecidableEq, Repr, Inhabited

/-- One component of a tone entry (R141). -/
structure Component where
  coefficient : Int
  threshold : Nat
  ratio : Nat
  deriving DecidableEq, Repr, Inhabited

/-- A tone entry (R141); the second component's fields are stored also when `components` is 1. -/
structure ToneEntry where
  components : Nat
  first : Component
  second : Component
  cadence : CadenceId
  deriving DecidableEq, Repr, Inhabited

/-- A cadence entry (R142), its times in detection frames; off max 0 marks a continuous tone. -/
structure CadenceEntry where
  onMin : Nat
  onMax : Nat
  offMin : Nat
  offMax : Nat
  cyclesRequired : Nat
  deriving DecidableEq, Repr, Inhabited

end Sys2Proof.Machine
end

