-- ==== Sys2Proof/Config.lean ====
section
/-! DEFINITION. The free values of the model. Each is an opaque constant: nothing in Lean can evaluate it or
prove a value of it. They stand for the contents of an unloaded table entry where a rule reads a field of it
and no rule says what an unloaded entry gives. Their argument is the timebase, so that two readings at two
times need not agree. They are marked DESIGN CHOICE in notes/assumptions/3.md. -/

namespace Sys2Proof.Config

/-- What a reader finds in an unloaded site record where its rule states no value. -/
opaque unloadedSite : Nat → Machine.SiteRecord

/-- What a reader finds in an unloaded class entry where its rule states no value. -/
opaque unloadedClass : Nat → Machine.ClassEntry

/-- What a reader finds in an unloaded route entry where its rule states no value. -/
opaque unloadedRoute : Nat → Machine.RouteEntry

end Sys2Proof.Config
end

