-- ==== Sys2Proof/Machine/State.lean ====
section
/-! DEFINITION. The state of the part, block by block, as plain data, and its value right after power-on
reset. The free handles (R2), a trunk's role and audio slot (R97), table readiness (R147) and a trunk's path
state (R98) are views of this state, given as functions in Ops.lean. -/

namespace Sys2Proof.Machine

/-! ### Alert records (R1) -/

/-- The qualifier of an alert's key (R1). -/
inductive Qualifier where
  | new
  | restore
  | test
  deriving DecidableEq, Repr, Inhabited

/-- The identity of an alert (R1): class takes no part in it. -/
structure Key where
  source : Nat
  zone : Nat
  event : Nat
  qualifier : Qualifier
  deriving DecidableEq, Repr, Inhabited

/-- The four states of a record with the optional field each carries (R1). -/
inductive RecordState where
  | waiting
  | inCall (engine : EngineId)
  | held (remaining part : Nat)
  | stranded
  deriving DecidableEq, Repr, Inhabited

/-- An alert record (R1). -/
structure Record where
  handle : Handle
  key : Key
  cls : ClassId
  state : RecordState
  isProtected : Bool
  failures : Nat
  routePos : Nat
  routeFailures : Nat
  cycles : Nat
  age : Nat
  agePart : Nat
  repeats : Nat
  deriving DecidableEq, Repr, Inhabited

/-! ### Tables (R134) -/

/-- An entry that may be in use: its applied contents and at most one staged write (R134). -/
structure Staged (α : Type) where
  applied : Option α
  staged : Option α
  deriving DecidableEq, Repr, Inhabited

/-- The Table Store (R134). -/
structure Tables where
  site : Option SiteRecord
  classes : Vector (Option ClassEntry) 6
  routes : Vector (Staged RouteEntry) 8
  trunks : Vector (Staged TrunkEntry) 8
  tones : Vector (Staged ToneEntry) 16
  cadences : Vector (Staged CadenceEntry) 8
  deriving DecidableEq, Repr

/-- One entry of one of the six tables (R134). -/
inductive TableRef where
  | site
  | cls (id : ClassId)
  | route (id : RouteId)
  | trunk (id : TrunkId)
  | tone (id : ToneId)
  | cadence (id : CadenceId)
  deriving DecidableEq, Repr, Inhabited

/-! ### Outcomes and events (R163) -/

/-- The outcome codes shared by CALL_FAILED and TEST_CALL_DONE (R70, R158, R183). -/
inductive CallOutcome where
  | delivered
  | noLoop
  | cardFault
  | noDialTone
  | lineLost
  | busy
  | congestion
  | noAnswer
  | noAck
  | farCleared
  | preempted
  | aborted
  deriving DecidableEq, Repr, Inhabited

/-- The result codes of a line test (R157). -/
inductive TestCode where
  | pass
  | passReversed
  | lowTone
  | noLoop
  | cardFault
  | noDialTone
  | aborted
  deriving DecidableEq, Repr, Inhabited

/-- The causes of TRUNK_FAULT (R113 to R115). -/
inductive FaultCause where
  | count
  | card
  | test
  deriving DecidableEq, Repr, Inhabited

/-- The causes of HOLD_ENDED (R42). -/
inductive HoldCause where
  | resume
  | expired
  | init
  deriving DecidableEq, Repr, Inhabited

/-- A command that waits in the command slot (R149). -/
inductive SlotCommand where
  | lineTest (trunk : TrunkId)
  | testCall (route : RouteId)
  deriving DecidableEq, Repr, Inhabited

/-- The detail of one occurrence of an event (section 9.1): its constructor is the event's kind. -/
inductive Detail where
  | delivered (handle : Handle) (key : Key) (route : RouteId)
  | callFailed (route : RouteId) (trunk : TrunkId) (cause : CallOutcome)
  | fallback (handle : Handle) (fromRoute toRoute : RouteId)
  | stranded (handle : Handle) (key : Key)
  | evicted (handle : Handle) (key : Key)
  | trunkFault (trunk : TrunkId) (cause : FaultCause)
  | trunkCleared (trunk : TrunkId)
  | officePreempted (trunk : TrunkId) (cls : ClassId)
  | lineTestDone (trunk : TrunkId) (code : TestCode) (peak delay : Nat)
  | testCallDone (route : RouteId) (outcome : CallOutcome)
  | commandExpired (command : SlotCommand)
  | stationSilent (on : Bool)
  | tableApplied (entry : TableRef)
  | holdEnded (cause : HoldCause)
  | noTrunk (cls : ClassId)
  | highway (restored : Bool)
  deriving DecidableEq, Repr, Inhabited

/-- The record of one event kind (R163). -/
structure EventRecord where
  pending : Bool
  count : Nat
  latest : Option Detail
  enabled : Bool
  deriving DecidableEq, Repr, Inhabited

/-- One entry of an EVENT cell's snapshot (R166). -/
structure SnapEntry where
  kind : EventKind
  count : Nat
  latest : Option Detail
  deriving DecidableEq, Repr, Inhabited

/-- The emission record (R163): the snapshot and the kinds a lost cell gives back (R167). -/
structure Emission where
  entries : List SnapEntry
  restore : List EventKind
  deriving DecidableEq, Repr, Inhabited

/-- The Event Reporter (R163). -/
structure Evr where
  records : Vector EventRecord 16
  emission : Option Emission
  deriving DecidableEq, Repr

/-! ### Trunk records (R97) -/

inductive TrunkState where
  | unmanaged
  | idleOffice
  | officeBusy
  | idleReserved
  | warning
  | taken
  | cooldown
  deriving DecidableEq, Repr, Inhabited

/-- The guard timer of a trunk (R97): pending while it waits for frame sync to return. -/
inductive GuardTimer where
  | absent
  | pending
  | running (left : Nat)
  deriving DecidableEq, Repr, Inhabited

/-- A trunk record (R97), without its role and audio slot, which are views of the trunk table. -/
structure Trunk where
  state : TrunkState
  barred : Bool
  faulted : Bool
  failures : Nat
  ringTimer : Option Nat
  busySince : Option Nat
  holder : Option EngineId
  warnTimer : Option Nat
  guard : GuardTimer
  deriving DecidableEq, Repr, Inhabited

/-- The treatment the Highway Interface gives a trunk's slots (R122). -/
inductive PathState where
  | through
  | warnMix
  | taken
  | blocked
  deriving DecidableEq, Repr, Inhabited

/-! ### Tone detectors (R76, R87) -/

inductive LoadingStatus where
  | starting
  | running
  | stopping
  deriving DecidableEq, Repr, Inhabited

/-- Whether the last ON run to end was within its range (R87). -/
inductive Verdict where
  | none
  | within
  | outside
  deriving DecidableEq, Repr, Inhabited

/-- A cadence classifier (R87). -/
structure Classifier where
  onRun : Bool
  length : Nat
  disagree : Bool
  verdict : Verdict
  cycles : Nat
  continuousMatch : Bool
  deriving DecidableEq, Repr, Inhabited

/-- A loading (R76). `bins` are the bins of its components, in component order, once it is RUNNING. -/
structure Loading where
  tone : ToneId
  copy : ToneEntry
  cadence : CadenceId
  cadenceCopy : CadenceEntry
  status : LoadingStatus
  classifier : Classifier
  absence : Option Nat
  levelWatch : Bool
  bins : List (Fin 6)
  deriving DecidableEq, Repr, Inhabited

/-- A bin with the two previous values of its recurrence (R76, R81); what a free bin holds there is the model's choice
(log 31). -/
structure Bin where
  used : Bool
  prev : Int
  prev2 : Int
  deriving DecidableEq, Repr, Inhabited

structure Detector where
  loadings : List Loading
  bins : Vector Bin 6
  energy : Nat
  deriving DecidableEq, Repr

/-- A report handed to the engine and not yet taken (R86). -/
inductive Report where
  | matched (tone : ToneId)
  | absent (tone : ToneId)
  | level (tone : ToneId) (energy : Nat)
  deriving DecidableEq, Repr, Inhabited

/-! ### Dial engines (R49, R50, R61, R155) -/

inductive Phase where
  | idle
  | acquire
  | clear
  | seize
  | dialTone
  | dialing
  | awaitAnswer
  | sendBlock
  | awaitAck
  | closing
  deriving DecidableEq, Repr, Inhabited

inductive Step where
  | none
  | listen
  | blind
  | toneHeard
  | guard
  | resendGuard
  deriving DecidableEq, Repr, Inhabited

inductive BlockState where
  | queued
  | sending
  | awaitAck
  | acked
  | failed
  deriving DecidableEq, Repr, Inhabited

/-- An entry of a call's block list: a FAILED entry's handle is withdrawn (section 2.10), a test call's entry
names no record (R74). -/
structure BlockEntry where
  handle : Option Handle
  state : BlockState
  deriving DecidableEq, Repr, Inhabited

/-- A call record (R32, R50). -/
structure CallRecord where
  route : RouteId
  trunk : TrunkId
  blocks : List BlockEntry
  current : Nat
  tries : Nat
  preempt : Bool
  fromOffice : Bool
  deriving DecidableEq, Repr, Inhabited

/-- A line-test record (R155); its phase, step and seize start are the engine's. The loop delay is in 10 ms
steps. -/
structure LineTestRecord where
  trunk : TrunkId
  polarity : Bool
  loopDelay : Nat
  peak : Nat
  deriving DecidableEq, Repr, Inhabited

/-- What an engine holds. -/
inductive Work where
  | nothing
  | alertCall (call : CallRecord)
  | testCall (call : CallRecord)
  | lineTest (test : LineTestRecord)
  deriving DecidableEq, Repr, Inhabited

/-- The role in which a listening step names a tone entry (R56). -/
inductive ToneRole where
  | dialTone
  | reorder
  | busy
  | handshake
  | ack
  deriving DecidableEq, Repr, Inhabited

inductive GenSymbol where
  | none
  | tone (value : Fin 16)
  | pause
  deriving DecidableEq, Repr, Inhabited

/-- A symbol generator (R61). `left` is its timer in highway frames, `index` the number of the next frame of
the ON part; `offFrames` and `level` are what the symbol read at its start. With no symbol, and during a pause, what these items
and the part hold beside the pause's timer is the model's choice (log 27). -/
structure Generator where
  symbol : GenSymbol
  onPart : Bool
  left : Nat
  index : Nat
  offFrames : Nat
  level : Nat
  deriving DecidableEq, Repr, Inhabited

/-- The causes of an abort (R72). -/
inductive AbortCause where
  | abortCalls
  | init
  | syncLoss
  deriving DecidableEq, Repr, Inhabited

/-- A dial engine (R49) with its detector and generator, the tone entries its step listens for (R56), the
symbols of the current block still to send (R67), the reports it has not taken and the abort posted to it. -/
structure Engine where
  phase : Phase
  step : Step
  work : Work
  dialPos : Nat
  seize : Bool
  seizeStart : Option Nat
  phaseTimer : Option Nat
  lossTimer : Option Nat
  polRef : Option Bool
  listening : List (ToneRole × ToneId)
  sending : List (Fin 16)
  reports : List Report
  abort : Option AbortCause
  generator : Generator
  detector : Detector
  deriving DecidableEq, Repr

structure Engines where
  e0 : Engine
  e1 : Engine
  deriving DecidableEq, Repr

/-! ### Dispatch Scheduler (R27) and Command Unit (R149, R157, R159, R160) -/

/-- The scheduler's own state (R27). The hold timer is present exactly while the hold is ON. -/
structure Dsc where
  hold : Option Nat
  noTrunk : Bool
  startOrder : List EngineId
  marked : Option EngineId
  selectionsDue : Nat
  deriving DecidableEq, Repr, Inhabited

/-- The command slot (R149), with the expiry timer of a HELD command. -/
inductive CommandSlot where
  | empty
  | held (command : SlotCommand) (expiry : Nat)
  | running (command : SlotCommand) (engine : EngineId)
  deriving DecidableEq, Repr, Inhabited

/-- A line-test result record (R157), its loop delay in 10 ms steps. -/
structure TestResult where
  valid : Bool
  code : TestCode
  peak : Nat
  loopDelay : Nat
  deriving DecidableEq, Repr, Inhabited

/-- The Command Unit's state; both timers in 10 ms units. -/
structure Cmu where
  slot : CommandSlot
  results : Vector TestResult 8
  periodic : Option Nat
  silent : Bool
  silenceTimer : Option Nat
  deriving DecidableEq, Repr

/-! ### Control Channel Port (R172 to R179) -/

/-- An inbound cell that has passed its check (R173). -/
structure InCell where
  header : Word
  body : List Word
  deriving DecidableEq, Repr, Inhabited

inductive Assembler where
  | hunt
  | body (header : Word) (words : List Word) (expected : Nat)
  | check (header : Word) (words : List Word)
  | skip
  deriving DecidableEq, Repr, Inhabited

/-- The result codes of an ANSWER (R183), in code order. -/
inductive Result where
  | accepted
  | acceptedEvicting
  | coalesced
  | cancelled
  | queueFull
  | clamped
  | staged
  | refused
  | pending
  | done
  | slotBusy
  | tooLate
  | nothingPending
  | busy
  | badArgument
  | unknownKind
  deriving DecidableEq, Repr, Inhabited

/-- What an answer-queue entry holds (R175): a complete ANSWER, or the request of a pending data cell. -/
inductive AnswerContent where
  | answer (echo : Nat) (result : Result) (detail : List Word)
  | tableData (entry : TableRef)
  | queueRecord (handle : Handle)
  | queueSummary
  | status
  deriving DecidableEq, Repr, Inhabited

/-- An entry of the answer queue, with the tag it copies (R181) and whether it is INIT's DONE (R179). -/
structure AnswerEntry where
  tag : Nat
  content : AnswerContent
  initDone : Bool
  deriving DecidableEq, Repr, Inhabited

/-- The four sticky channel flags (R179). -/
structure StickyFlags where
  badCheck : Bool
  overrun : Bool
  abortedCell : Bool
  framing : Bool
  deriving DecidableEq, Repr, Inhabited

/-- Where the cell in emission comes from: the head of the answer queue, with the flags a STATUS cell took
(R170), or the Event Reporter. -/
inductive EmitSource where
  | answer (took : Option StickyFlags)
  | event
  deriving DecidableEq, Repr, Inhabited

inductive Emitter where
  | idle
  | emitting (source : EmitSource) (left : List Word)
  deriving DecidableEq, Repr, Inhabited

structure Ccp where
  assembler : Assembler
  inbound : List InCell
  inHand : Option InCell
  answers : List AnswerEntry
  initWait : Bool
  emitter : Emitter
  flags : StickyFlags
  deriving DecidableEq, Repr, Inhabited

/-! ### Highway Interface (R122, R125, R127, R129) -/

/-- The frame sync state (R129), its times in microseconds of the internal timebase. -/
inductive SyncState where
  | inSync (expected missed : Nat)
  | lost (lastPulse : Option Nat) (good : Nat)
  deriving DecidableEq, Repr, Inhabited

/-- A debounced value and its disagreement count (R125). -/
structure Debounced where
  value : Bool
  count : Nat
  deriving DecidableEq, Repr, Inhabited

/-- The five debounced bits of one trunk (R125). -/
structure LineBits where
  l : Debounced
  g : Debounced
  v : Debounced
  f : Debounced
  s : Debounced
  deriving DecidableEq, Repr, Inhabited

/-- A debounced change of a managed trunk that has been made and not yet taken (R126). -/
structure Delivery where
  trunk : TrunkId
  signal : LineSignal
  value : Bool
  deriving DecidableEq, Repr, Inhabited

/-- A warning source (R127): in an ON part the frames left, the number of the next frame, and the frequency
and level the part read; in an OFF part the frames left. -/
inductive WarnSource where
  | stopped
  | on (left index frequency level : Nat)
  | off (left : Nat)
  deriving DecidableEq, Repr, Inhabited

structure Hwi where
  sync : SyncState
  lossPreceded : Bool
  applied : Vector PathState 8
  lines : Vector LineBits 8
  deliveries : List Delivery
  warnings : Vector WarnSource 8
  grid : Nat
  tso : Option (List Word)
  pxo : Option (List Word)
  deriving DecidableEq, Repr

/-! ### The whole part -/

structure State where
  pending : List Instr
  resetLow : Bool
  clock : Nat
  hwi : Hwi
  ccp : Ccp
  tables : Tables
  queue : List Record
  dsc : Dsc
  trunks : Vector Trunk 8
  engines : Engines
  cmu : Cmu
  evr : Evr
  deriving DecidableEq, Repr

/-- The faults of a step: there are none. The part has no exception and no fault; what goes wrong outside it
is an outcome its rules give. Nobody raises a fault. -/
inductive Fault where
  deriving DecidableEq, Repr

/-- Why a command has no meaning. -/
inductive Refusal where
  /-- Raised by `exec` alone, for a command that has no meaning yet; safe. No arm raises it now. -/
  | notModelled (mnemonic : String)
  deriving DecidableEq, Repr

/-! ### The state after power-on reset -/

/-- R87: the state every classifier instance starts in. -/
def Classifier.initial : Classifier :=
  { onRun := false, length := 0, disagree := false, verdict := .none, cycles := 0,
    continuousMatch := false }

/-- R76: no loadings, all six bins free, no sample in the frame sums. That the two previous values of a free bin are 0 is the
model's choice (log 31). -/
def Detector.reset : Detector :=
  { loadings := [], bins := Vector.replicate 6 { used := false, prev := 0, prev2 := 0 }, energy := 0 }

/-- R61: after power-on reset, and whenever the generator sends nothing, the current symbol is none. That the part is then OFF
and the timer 0, and the frame number, the OFF frames and the level 0 with them, is the model's choice (log 27). -/
def Generator.silent : Generator :=
  { symbol := .none, onPart := false, left := 0, index := 0, offFrames := 0, level := 0 }

/-- R49: an IDLE engine after power-on reset. -/
def Engine.reset : Engine :=
  { phase := .idle, step := .none, work := .nothing, dialPos := 0, seize := false, seizeStart := none,
    phaseTimer := none, lossTimer := none, polRef := none, listening := [], sending := [], reports := [],
    abort := none, generator := Generator.silent, detector := Detector.reset }

/-- R117: a trunk record after power-on reset. -/
def Trunk.reset : Trunk :=
  { state := .unmanaged, barred := false, faulted := false, failures := 0, ringTimer := none,
    busySince := none, holder := none, warnTimer := none, guard := .absent }

/-- R134: every entry unloaded, no staged write. -/
def Tables.empty : Tables :=
  { site := none, classes := Vector.replicate 6 none,
    routes := Vector.replicate 8 ⟨none, none⟩, trunks := Vector.replicate 8 ⟨none, none⟩,
    tones := Vector.replicate 16 ⟨none, none⟩, cadences := Vector.replicate 8 ⟨none, none⟩ }

/-- R163: pending clear, count 0, detail absent, notify enable set. -/
def EventRecord.reset : EventRecord := { pending := false, count := 0, latest := none, enabled := true }

def Evr.reset : Evr := { records := Vector.replicate 16 EventRecord.reset, emission := none }

def StickyFlags.clear : StickyFlags :=
  { badCheck := false, overrun := false, abortedCell := false, framing := false }

/-- R179, the column for power-on reset. -/
def Ccp.reset : Ccp :=
  { assembler := .hunt, inbound := [], inHand := none, answers := [], initWait := false, emitter := .idle,
    flags := StickyFlags.clear }

def Debounced.absent : Debounced := { value := false, count := 0 }

def LineBits.reset : LineBits :=
  { l := Debounced.absent, g := Debounced.absent, v := Debounced.absent, f := Debounced.absent,
    s := Debounced.absent }

/-- R132, R129. -/
def Hwi.reset : Hwi :=
  { sync := .lost none 0, lossPreceded := false, applied := Vector.replicate 8 .through,
    lines := Vector.replicate 8 LineBits.reset, deliveries := [], warnings := Vector.replicate 8 .stopped,
    grid := 0, tso := none, pxo := none }

/-- R27. -/
def Dsc.reset : Dsc :=
  { hold := none, noTrunk := false, startOrder := [], marked := none, selectionsDue := 0 }

/-- R149, R157, R159, R160. -/
def Cmu.reset : Cmu :=
  { slot := .empty, results := Vector.replicate 8 ⟨false, .pass, 0, 0⟩, periodic := none, silent := false,
    silenceTimer := none }

/-- The part right after power-on reset (R132 and the reset tables of every chapter). -/
def State.reset : State :=
  { pending := [], resetLow := false, clock := 0, hwi := Hwi.reset, ccp := Ccp.reset, tables := Tables.empty,
    queue := [], dsc := Dsc.reset, trunks := Vector.replicate 8 Trunk.reset,
    engines := { e0 := Engine.reset, e1 := Engine.reset }, cmu := Cmu.reset, evr := Evr.reset }

end Sys2Proof.Machine
end

