-- ==== Sys2Proof/Machine/Ops.lean ====
section
/-! DEFINITION. The shared operations over the state: access to the numbered records, the views the spec
defines over several blocks (roles, paths, readiness, uses, routes of records), timers, one occurrence of an
event (R164), and the two causes every block gives the Dispatch Scheduler (R28). -/

namespace Sys2Proof.Machine

/-! ### Numbered records -/

/-- Entry `i` of a bank of records. -/
def vget {α : Type} {n : Nat} (v : Vector α n) (i : Fin n) : α := v[i.val]

/-- A bank with entry `i` replaced. -/
def vput {α : Type} {n : Nat} (v : Vector α n) (i : Fin n) (x : α) : Vector α n := v.set i.val x

/-- A bank with every entry rewritten. -/
def vmap {α β : Type} {n : Nat} (f : Fin n → α → β) (v : Vector α n) : Vector β n :=
  Vector.ofFn fun i => f i v[i.val]

/-- The other engine. -/
def other : EngineId → EngineId
  | .e0 => .e1
  | .e1 => .e0

/-- Whether an engine belongs to a set of engines. -/
def takes (x : EngineSet) : EngineId → Bool
  | .e0 => x.e0
  | .e1 => x.e1

/-- Engine `e`. -/
def State.engine (s : State) : EngineId → Engine
  | .e0 => s.engines.e0
  | .e1 => s.engines.e1

/-- The state with engine `e` replaced. -/
def State.setEngine (s : State) (e : EngineId) (x : Engine) : State :=
  match e with
  | .e0 => { s with engines := { s.engines with e0 := x } }
  | .e1 => { s with engines := { s.engines with e1 := x } }

/-- Trunk record `t`. -/
def State.trunk (s : State) (t : TrunkId) : Trunk := vget s.trunks t

/-- The state with trunk record `t` replaced. -/
def State.setTrunk (s : State) (t : TrunkId) (x : Trunk) : State :=
  { s with trunks := vput s.trunks t x }

/-! ### Timers

The part's timers run with 10 ms resolution; a running timer holds the 10 ms units left and its expiry is due
when none is left. -/

/-- A time in ms as 10 ms units, at the next multiple of 10 ms at or above it (R136). -/
def ticksOfMs (ms : Nat) : Nat := (ms + 9) / 10

/-- A time in seconds as 10 ms units. -/
def ticksOfSeconds (sec : Nat) : Nat := sec * 100

/-- A running timer after one 10 ms unit. -/
def timerTick : Option Nat → Option Nat
  | none => none
  | some n => some (n - 1)

/-- Whether a timer has run out. -/
def timerDue (timer : Option Nat) : Bool := timer == some 0

/-! ### The tables as their readers find them -/

def State.classEntry (s : State) (c : ClassId) : Option ClassEntry := vget s.tables.classes c

def State.routeEntry (s : State) (r : RouteId) : Option RouteEntry := (vget s.tables.routes r).applied

/-- The site record as a rule reads it that states nothing for an unloaded one. -/
def State.siteOr (s : State) : SiteRecord := s.tables.site.getD (Config.unloadedSite s.clock)

/-- A class entry as a rule reads it that states nothing for an unloaded one. -/
def State.classOr (s : State) (c : ClassId) : ClassEntry :=
  (s.classEntry c).getD (Config.unloadedClass s.clock)

/-- A route entry as a rule reads it that states nothing for an unloaded one. -/
def State.routeOr (s : State) (r : RouteId) : RouteEntry :=
  (s.routeEntry r).getD (Config.unloadedRoute s.clock)

/-- R134: a route is valid when it is loaded with its valid field yes. -/
def State.routeValid (s : State) (r : RouteId) : Bool :=
  match s.routeEntry r with
  | some e => e.valid
  | none => false

/-- R147: the tables are ready when the site record is loaded and at least one route is valid. -/
def State.ready (s : State) : Bool :=
  s.tables.site.isSome && (List.finRange 8).any fun r => s.routeValid r

/-! ### Trunk views -/

/-- R97: the role in the trunk's applied entry, UNUSED while the entry is invalid. -/
def State.trunkRole (s : State) (t : TrunkId) : TrunkRole :=
  match (vget s.tables.trunks t).applied with
  | some e => e.role
  | none => .unused

/-- R97: the audio slot in the trunk's applied entry, absent for UNUSED. -/
def State.trunkSlot (s : State) (t : TrunkId) : Option Nat :=
  match (vget s.tables.trunks t).applied with
  | some e => if e.role = .unused then none else some e.slot
  | none => none

/-- R97: a trunk is managed when its role is SHARED or RESERVED. -/
def managedRole : TrunkRole → Bool
  | .shared => true
  | .reserved => true
  | .unused => false
  | .office => false

def State.managed (s : State) (t : TrunkId) : Bool := managedRole (s.trunkRole t)

/-- R98: the path state that belongs to a trunk state. -/
def pathOf : TrunkState → PathState
  | .unmanaged => .through
  | .idleOffice => .through
  | .officeBusy => .through
  | .idleReserved => .blocked
  | .warning => .warnMix
  | .taken => .taken
  | .cooldown => .blocked

/-- The debounced bits of a trunk (R125). -/
def LineBits.get (b : LineBits) : LineSignal → Debounced
  | .l => b.l
  | .g => b.g
  | .v => b.v
  | .f => b.f
  | .s => b.s

def LineBits.put (b : LineBits) (sig : LineSignal) (x : Debounced) : LineBits :=
  match sig with
  | .l => { b with l := x }
  | .g => { b with g := x }
  | .v => { b with v := x }
  | .f => { b with f := x }
  | .s => { b with s := x }

/-- The debounced value of one signal of a trunk as it stands (R126). -/
def State.debounced (s : State) (t : TrunkId) (sig : LineSignal) : Bool :=
  ((vget s.hwi.lines t).get sig).value

/-- R99, R126: the trunk's debounced G has fallen and the Trunk Manager has not yet taken that change. -/
def State.ringFallWaits (s : State) (t : TrunkId) : Bool := s.hwi.deliveries.contains ⟨t, .g, false⟩

/-- R99: a trunk has ring recently when G is present or the ring-recent timer runs. The timer runs from the fall of G: a fall
that has been delivered and not yet taken counts as the timer's run (log 25). -/
def State.ringRecently (s : State) (t : TrunkId) : Bool :=
  s.debounced t .g || (s.trunk t).ringTimer.isSome || s.ringFallWaits t

/-- R100: the conditions under which a SHARED trunk is in office use. -/
def State.officeUse (s : State) (t : TrunkId) : Bool :=
  s.debounced t .s || s.debounced t .l || s.ringRecently t

/-- R102: whether a trunk is grantable to a request of this pre-empt mode. -/
def State.grantable (s : State) (mode : PreemptMode) (t : TrunkId) : Bool :=
  s.managed t && !(s.trunk t).barred && !(s.trunk t).faulted &&
    match (s.trunk t).state with
    | .idleReserved => !s.ringRecently t
    | .idleOffice => true
    | .officeBusy => mode != .none
    | _ => false

/-! ### Calls in progress -/

/-- The call record an engine holds, alert or test. -/
def Work.call : Work → Option CallRecord
  | .alertCall c => some c
  | .testCall c => some c
  | .lineTest _ => none
  | .nothing => none

def Work.isAlertCall : Work → Bool
  | .alertCall _ => true
  | _ => false

/-- The trunk of what an engine holds. -/
def Work.trunk : Work → Option TrunkId
  | .alertCall c => some c.trunk
  | .testCall c => some c.trunk
  | .lineTest r => some r.trunk
  | .nothing => none

/-- What an engine holds with its call record rewritten. -/
def Work.mapCall (f : CallRecord → CallRecord) : Work → Work
  | .alertCall c => .alertCall (f c)
  | .testCall c => .testCall (f c)
  | .lineTest r => .lineTest r
  | .nothing => .nothing

/-- What an engine holds with its line-test record rewritten. -/
def Work.mapTest (f : LineTestRecord → LineTestRecord) : Work → Work
  | .alertCall c => .alertCall c
  | .testCall c => .testCall c
  | .lineTest r => .lineTest (f r)
  | .nothing => .nothing

def engineIds : List EngineId := [.e0, .e1]

/-- R27, R30: the engine whose call in progress, alert or test, is on this route. -/
def State.callOn (s : State) (r : RouteId) : Option EngineId :=
  engineIds.find? fun e =>
    match (s.engine e).work.call with
    | some c => c.route == r
    | none => false

/-- R49: an engine is IDLE when its phase is IDLE. -/
def State.idleEngine (s : State) (e : EngineId) : Bool := (s.engine e).phase == .idle

/-- R32, R34: E0 if it is IDLE, otherwise E1 if that is IDLE. -/
def State.firstIdle (s : State) : Option EngineId := engineIds.find? s.idleEngine

def State.inSync (s : State) : Bool :=
  match s.hwi.sync with
  | .inSync _ _ => true
  | .lost _ _ => false

/-! ### Uses of table entries (R143) -/

/-- A loading that counts as a use: STARTING or RUNNING. -/
def Loading.live (l : Loading) : Bool := l.status != .stopping

/-- R143: a route is in use while a call is on it, from hand-over until its engine enters CLOSING. -/
def State.routeInUse (s : State) (r : RouteId) : Bool :=
  engineIds.any fun e =>
    (s.engine e).phase != .closing &&
      match (s.engine e).work.call with
      | some c => c.route == r
      | none => false

/-- R143: a tone entry is in use while a loading of it is STARTING or RUNNING in either detector. -/
def State.toneInUse (s : State) (t : ToneId) : Bool :=
  engineIds.any fun e => (s.engine e).detector.loadings.any fun l => l.live && l.tone == t

/-- R143: a cadence entry is in use while a loading whose copy came from it is STARTING or RUNNING. -/
def State.cadenceInUse (s : State) (c : CadenceId) : Bool :=
  engineIds.any fun e => (s.engine e).detector.loadings.any fun l => l.live && l.cadence == c

/-- R143: a trunk entry is in use while its trunk is WARNING, TAKEN or COOLDOWN. -/
def State.trunkInUse (s : State) (t : TrunkId) : Bool :=
  match (s.trunk t).state with
  | .warning => true
  | .taken => true
  | .cooldown => true
  | _ => false

/-! ### Events (R164) -/

/-- Section 9.1: the kind of a detail. -/
def Detail.kind : Detail → EventKind
  | .delivered _ _ _ => 0
  | .callFailed _ _ _ => 1
  | .fallback _ _ _ => 2
  | .stranded _ _ => 3
  | .evicted _ _ => 4
  | .trunkFault _ _ => 5
  | .trunkCleared _ => 6
  | .officePreempted _ _ => 7
  | .lineTestDone _ _ _ _ => 8
  | .testCallDone _ _ => 9
  | .commandExpired _ => 10
  | .stationSilent _ => 11
  | .tableApplied _ => 12
  | .holdEnded _ => 13
  | .noTrunk _ => 14
  | .highway _ => 15

/-- R164: one occurrence recorded in its kind's record. -/
def EventRecord.occur (r : EventRecord) (d : Detail) : EventRecord :=
  { r with pending := true, count := min (r.count + 1) 255, latest := some d }

/-- R164: an occurrence is raised. -/
def State.raise (s : State) (d : Detail) : State :=
  { s with evr := { s.evr with records := vput s.evr.records d.kind ((vget s.evr.records d.kind).occur d) } }

/-! ### Causes to select (R28) -/

/-- R28: a cause that starts a selection; the selection itself is the step SELECTION. -/
def State.cause (s : State) : State :=
  { s with dsc := { s.dsc with selectionsDue := s.dsc.selectionsDue + 1 } }

/-- R102: a change of the trunk records after which trunk `t` is grantable under a mode for which it was not
grantable before is reported to the scheduler, one report for the change. -/
def State.reportGrantable (before after : State) (t : TrunkId) : State :=
  if [PreemptMode.none, .afterWarning, .immediate].any
      (fun m => !before.grantable m t && after.grantable m t)
  then after.cause else after

/-! ### The internal timebase -/

def GuardTimer.tick : GuardTimer → GuardTimer
  | .running n => .running (n - 1)
  | .pending => .pending
  | .absent => .absent

def Trunk.tick (t : Trunk) : Trunk :=
  { t with ringTimer := timerTick t.ringTimer, warnTimer := timerTick t.warnTimer, guard := t.guard.tick }

def Engine.tick (e : Engine) : Engine :=
  { e with phaseTimer := timerTick e.phaseTimer, lossTimer := timerTick e.lossTimer }

def CommandSlot.tick : CommandSlot → CommandSlot
  | .held c n => .held c (n - 1)
  | .running c e => .running c e
  | .empty => .empty

/-- R20: one 10 ms unit of a record's backoff. -/
def RecordState.tick : RecordState → RecordState
  | .held n part => .held n (part + 1)
  | .waiting => .waiting
  | .inCall e => .inCall e
  | .stranded => .stranded

/-- R4, R20: one 10 ms unit of the second in progress of a record's age, and of its backoff (log 5). -/
def Record.tick (r : Record) : Record := { r with agePart := r.agePart + 1, state := r.state.tick }

/-- One 10 ms unit of the internal timebase: every running timer falls by one unit, and the seconds in progress of the
records grow by one. This is what a step does on an empty queue (log 2). While RESET_N is held low nothing runs. -/
def State.tick (s : State) : State :=
  if s.resetLow then s
  else
    { s with
      clock := s.clock + 1
      queue := s.queue.map Record.tick
      dsc := { s.dsc with hold := timerTick s.dsc.hold }
      trunks := vmap (fun _ t => t.tick) s.trunks
      engines := { e0 := s.engines.e0.tick, e1 := s.engines.e1.tick }
      cmu := { s.cmu with slot := s.cmu.slot.tick, periodic := timerTick s.cmu.periodic,
                          silenceTimer := timerTick s.cmu.silenceTimer } }

/-- The form every meaning has: while RESET_N is held low the part receives nothing (R132, log 15) and the
command has no effect; otherwise the state becomes what `f` makes of it. -/
def running (f : State → State) (s : State) : Host.Outcome State Fault Refusal :=
  .next (if s.resetLow then s else f s)

end Sys2Proof.Machine
end

