-- ==== Sys2Proof/Machine/Queue.lean ====
section
/-! DEFINITION. The Alert Queue's operations (chapter 01): records and their handles, the report of a record
that becomes WAITING with the late join it may make (R5, R36), arrivals (R6 to R12), the three outcomes of a
record in a call with the merge on return (R14 to R19, R21), release, adjustment and the passing of seconds. -/

namespace Sys2Proof.Machine

/-! ### Records and handles -/

def RecordState.isInCall : RecordState → Bool
  | .inCall _ => true
  | _ => false

/-- WAITING or HELD: the states in which an arrival with the record's key coalesces (R7). -/
def RecordState.coalesces : RecordState → Bool
  | .waiting => true
  | .held _ _ => true
  | _ => false

/-- The record a handle names, if any (R2). -/
def State.findRecord (s : State) (h : Handle) : Option Record := s.queue.find? fun r => r.handle == h

/-- The record a handle names, rewritten where it stands (R3: no change of a record moves it). -/
def State.updateRecord (s : State) (h : Handle) (f : Record → Record) : State :=
  { s with queue := s.queue.map fun r => if r.handle == h then f r else r }

/-- R2, R3: a removed record's handle is free and the gap closes. -/
def State.removeRecord (s : State) (h : Handle) : State :=
  { s with queue := s.queue.filter fun r => r.handle != h }

/-- R2: the lowest-numbered free handle. -/
def State.lowestFree (s : State) : Option Handle :=
  (List.finRange 32).find? fun h => !s.queue.any fun r => r.handle == h

/-- R3: a record of class k is placed after every record of class k or lower and before every record of a
higher class number. -/
def placeRecord (r : Record) (q : List Record) : List Record :=
  q.takeWhile (fun x => x.cls ≤ r.cls) ++ r :: q.dropWhile (fun x => x.cls ≤ r.cls)

/-- R1: the fields of a record at its admission. -/
def newRecord (h : Handle) (k : Key) (c : ClassId) : Record :=
  { handle := h, key := k, cls := c, state := .waiting, isProtected := false, failures := 0, routePos := 0,
    routeFailures := 0, cycles := 0, age := 0, agePart := 0, repeats := 0 }

/-- R29: a record's current route is the route at its position in its class's route list. -/
def State.currentRoute (s : State) (r : Record) : Option RouteId :=
  match s.classEntry r.cls with
  | some c => c.routes[r.routePos]?
  | none => none

/-! ### Taking a record into a call, and the report of a WAITING record -/

/-- R13: a take of a WAITING record is granted: it becomes IN_CALL, bound to the engine, and protected. Any
other take is refused. -/
def State.takeRecord (s : State) (h : Handle) (e : EngineId) : Option State :=
  match s.findRecord h with
  | some r =>
    if r.state = .waiting then
      some (s.updateRecord h fun r => { r with state := .inCall e, isProtected := true })
    else none
  | none => none

/-- R36: the handle is appended at the end of the call's block list as a QUEUED entry. -/
def State.appendBlock (s : State) (e : EngineId) (h : Handle) : State :=
  s.setEngine e { s.engine e with
    work := (s.engine e).work.mapCall fun c => { c with blocks := c.blocks ++ [⟨some h, .queued⟩] } }

/-- R36: the engine whose call in progress a record on this route may join. The list of conditions is closed: a call whose
engine has not yet taken an abort posted to it is before CLOSING and is joined. -/
def State.joinableCall (s : State) (r : RouteId) : Option EngineId :=
  match s.callOn r with
  | none => none
  | some e =>
    match (s.engine e).work with
    | .alertCall c =>
      if (s.engine e).phase != .idle && (s.engine e).phase != .closing
          && !c.preempt && decide (c.blocks.length < (s.routeOr r).blocksPerCall) && s.dsc.hold.isNone
      then some e else none
    | _ => none

/-- R36: the late join of a record that has just become WAITING. -/
def State.lateJoin (s : State) (h : Handle) : State :=
  match s.findRecord h with
  | none => s
  | some r =>
    match s.currentRoute r with
    | none => s
    | some rt =>
      match s.joinableCall rt with
      | none => s
      | some e =>
        match s.takeRecord h e with
        | some s' => s'.appendBlock e h
        | none => s

/-- R5: a record that becomes WAITING is reported to the scheduler: a cause to select, and a candidate for a
late join, which is made before the selection (R28). -/
def State.reportWaiting (s : State) (h : Handle) : State := s.cause.lateJoin h

/-! ### Arrivals (R6 to R12) -/

/-- How an arrival was decided (R6). -/
inductive AlertResult where
  | refused
  | coalesced (handle : Handle)
  | cancelled (handle : Handle) (key : Key)
  | accepted (handle : Handle)
  | acceptedEvicting (handle : Handle)
  | queueFull
  deriving DecidableEq, Repr

/-- R6, row 1: source 0..63, zone and event code 0..999. -/
def Key.inRange (k : Key) : Bool := decide (k.source ≤ 63) && decide (k.zone ≤ 999) && decide (k.event ≤ 999)

/-- R9: the cancel window of a record's own class, 0 if its class entry is invalid (R6). -/
def State.cancelWindow (s : State) (c : ClassId) : Nat :=
  match s.classEntry c with
  | some e => e.cancelWindow
  | none => 0

/-- R9: the NEW record that a RESTORE arrival with this key cancels, if there is one. -/
def State.cancelTarget (s : State) (k : Key) : Option Record :=
  if k.qualifier = .restore then
    match s.queue.find? fun r => r.key == { k with qualifier := .new } && !r.state.isInCall with
    | some r =>
      if r.state = .waiting && !r.isProtected && decide (r.age < s.cancelWindow r.cls) then some r else none
    | none => none
  else none

/-- R10: admission with the lowest free handle. -/
def State.admitAlert (s : State) (k : Key) (c : ClassId) : Option (State × Handle) :=
  match s.lowestFree with
  | some h => some (({ s with queue := placeRecord (newRecord h k c) s.queue }).reportWaiting h, h)
  | none => none

/-- R11: the last record in queue order that is not IN_CALL. -/
def State.evictionCandidate (s : State) : Option Record := s.queue.reverse.find? fun r => !r.state.isInCall

/-- R8: re-arming. -/
def Record.rearm (r : Record) : Record :=
  { r with repeats := min (r.repeats + 1) 15, failures := 0, routeFailures := 0, cycles := 0, routePos := 0,
           state := .waiting }

/-- R6: an arrival is decided against the queue, the first row that applies deciding. -/
def State.offer (s : State) (k : Key) (c : ClassId) : State × AlertResult :=
  if !k.inRange then (s, .refused)
  else
    match s.queue.find? fun r => r.key == k && r.state.coalesces with
    | some r => (s.updateRecord r.handle fun r => { r with repeats := min (r.repeats + 1) 15 }, .coalesced r.handle)
    | none =>
      match s.queue.find? fun r => r.key == k && r.state == .stranded with
      | some r => ((s.updateRecord r.handle Record.rearm).reportWaiting r.handle, .coalesced r.handle)
      | none =>
        match s.cancelTarget k with
        | some r => (s.removeRecord r.handle, .cancelled r.handle r.key)
        | none =>
          if s.queue.length < 32 then
            match s.admitAlert k c with
            | some (s', h) => (s', .accepted h)
            | none => (s, .queueFull)
          else
            match s.evictionCandidate with
            | some r =>
              if c < r.cls then
                match ((s.removeRecord r.handle).raise (.evicted r.handle r.key)).admitAlert k c with
                | some (s', h) => (s', .acceptedEvicting h)
                | none => (s, .queueFull)
              else (s, .queueFull)
            | none => (s, .queueFull)

/-- R12: an internal arrival is decided by R6 and not answered. -/
def State.internalAlert (s : State) (k : Key) (c : ClassId) : State := (s.offer k c).1

/-- R12: the class of the part's own TROUBLE alerts, and of its periodic test. -/
def classTrouble : ClassId := 4

def classTest : ClassId := 5

def classFire : ClassId := 0

/-! ### Outcomes of a record in a call (R14 to R19, R21) -/

/-- R16: the record with the same key that a record leaving its call merges into. -/
def State.mergeTarget (s : State) (r : Record) : Option Record :=
  s.queue.find? fun x => x.handle != r.handle && x.key == r.key && !x.state.isInCall

/-- R16 and R5, once the outcome has been applied to the leaving record: the merge into a record with the same
key if there is one, and otherwise the report of a record that has become WAITING. -/
def State.settleReturn (s : State) (h : Handle) : State :=
  match s.findRecord h with
  | none => s
  | some r =>
    match s.mergeTarget r with
    | some v =>
      (s.updateRecord v.handle fun v =>
        { v with repeats := min (v.repeats + 1 + r.repeats) 15, isProtected := true }).removeRecord h
    | none => if r.state = .waiting then s.reportWaiting h else s

/-- R15: an uncounted return of an IN_CALL record. -/
def State.uncountedReturn (s : State) (h : Handle) : State :=
  match s.findRecord h with
  | some r =>
    if r.state.isInCall then (s.updateRecord h fun r => { r with state := .waiting }).settleReturn h else s
  | none => s

/-- R19: the backoff delay of a record that stays on its route. -/
def backoffDelay (base cap failures : Nat) : Nat := min (base * 2 ^ (min failures 10 - 1)) cap

/-- R17, R18, R19: what a far-end failure on a call's route with this fallback-after makes of a record of this
class: the record, and the details of the events raised, in order. -/
def Record.fail (r : Record) (ce : ClassEntry) (fallbackAfter : Nat) (route : RouteId) :
    Record × List Detail :=
  let failures := min (r.failures + 1) 15
  let routeFailures := r.routeFailures + 1
  if routeFailures ≥ fallbackAfter then
    let wraps := r.routePos + 1 == ce.routes.length
    let pos := if wraps then 0 else r.routePos + 1
    let cycles := if wraps then r.cycles + 1 else r.cycles
    let fell := Detail.fallback r.handle ((ce.routes[r.routePos]?).getD route) ((ce.routes[pos]?).getD route)
    let moved := { r with failures := failures, routeFailures := 0, routePos := pos, cycles := cycles }
    if cycles ≥ ce.maxCycles then ({ moved with state := .stranded }, [fell, .stranded r.handle r.key])
    else ({ moved with state := .held (min ce.backoffBase ce.backoffCap) 0 }, [fell])
  else
    ({ r with failures := failures, routeFailures := routeFailures,
              state := .held (backoffDelay ce.backoffBase ce.backoffCap failures) 0 }, [])

/-- R17: a far-end failure of an IN_CALL record on the route of its call. -/
def State.farEndFailure (s : State) (h : Handle) (route : RouteId) : State :=
  match s.findRecord h with
  | some r =>
    if r.state.isInCall then
      let out := r.fail (s.classOr r.cls) (s.routeOr route).fallbackAfter route
      (out.2.foldl State.raise (s.updateRecord h fun _ => out.1)).settleReturn h
    else s
  | none => s

/-- R21: a delivery of an IN_CALL record. -/
def State.deliverRecord (s : State) (h : Handle) (route : RouteId) : State :=
  match s.findRecord h with
  | some r =>
    if r.state.isInCall then (s.removeRecord h).raise (.delivered h r.key route) else s
  | none => s

/-! ### Release, adjustment, time -/

/-- R23: release from STRANDED. -/
def Record.release (r : Record) : Record :=
  { r with failures := 0, routeFailures := 0, cycles := 0, routePos := 0, state := .waiting }

/-- The handles of the records of which `p` holds, in queue order. -/
def State.handlesWhere (s : State) (p : Record → Bool) : List Handle := (s.queue.filter p).map Record.handle

/-- R23: every STRANDED record becomes WAITING and is reported, in queue order. -/
def State.releaseStranded (s : State) : State :=
  (s.handlesWhere fun r => r.state == .stranded).foldl State.reportWaiting
    { s with queue := s.queue.map fun r => if r.state == .stranded then r.release else r }

def RecordState.isHeld : RecordState → Bool
  | .held _ _ => true
  | _ => false

/-- R20: a backoff that has reached 0. -/
def RecordState.backoffOver : RecordState → Bool
  | .held n _ => n == 0
  | _ => false

/-- R25, INIT: every HELD record becomes WAITING with its counts kept and is reported, in queue order. -/
def State.releaseHeld (s : State) : State :=
  (s.handlesWhere fun r => r.state.isHeld).foldl State.reportWaiting
    { s with queue := s.queue.map fun r => if r.state.isHeld then { r with state := .waiting } else r }

/-- R24: a record brought within a class entry that has just been applied. -/
def Record.adjust (ce : ClassEntry) (r : Record) : Record :=
  let inList := if r.routePos ≥ ce.routes.length then { r with routePos := 0, routeFailures := 0 } else r
  if r.state != .stranded && decide (ce.maxCycles ≤ r.cycles) then { inList with cycles := ce.maxCycles - 1 }
  else inList

/-- R24: every record of the class, in every state. -/
def State.adjustClass (s : State) (c : ClassId) (ce : ClassEntry) : State :=
  { s with queue := s.queue.map fun r => if r.cls == c then r.adjust ce else r }

/-- The 10 ms units of a second (chapter 00, section 4). -/
def secondTicks : Nat := 100

/-- R20: a whole second of a backoff that has passed is taken off it, where one has. -/
def RecordState.second : RecordState → RecordState
  | .held n part => if secondTicks ≤ part then .held (n - 1) (part - secondTicks) else .held n part
  | st => st

/-- R4, R20: a whole second since the record's own admission is added to its age, and one since its own entry into HELD is
taken off its backoff, where that second has passed. -/
def Record.second (r : Record) : Record :=
  let aged := if secondTicks ≤ r.agePart then { r with age := min (r.age + 1) 65535, agePart := r.agePart - secondTicks } else r
  { aged with state := r.state.second }

end Sys2Proof.Machine
end

