-- ==== Sys2Proof/Machine/Trunks.lean ====
section
/-! DEFINITION. The Trunk Manager's operations (chapter 05): office use (R100), the grant order and what a
grant does (R102 to R105), the release of a trunk by its holder (R107, R109), fault marking (R113 to R115),
the change of role (R116), and sync loss, restoration and INIT (R110, R117). -/

namespace Sys2Proof.Machine

/-! ### Office use -/

/-- R100: the office state of a SHARED trunk by the conditions as they stand, office-busy-since set to this
moment if it is OFFICE_BUSY. -/
def State.officeState (s : State) (t : TrunkId) (x : Trunk) : Trunk :=
  if s.officeUse t then { x with state := .officeBusy, busySince := some s.clock }
  else { x with state := .idleOffice, busySince := none }

/-- R100: re-evaluation of a SHARED trunk that is in an office state. A change that leaves the answer as it was
changes nothing. -/
def State.reevaluate (s : State) (t : TrunkId) : State :=
  if s.trunkRole t = .shared then
    match (s.trunk t).state with
    | .idleOffice => if s.officeUse t then s.setTrunk t (s.officeState t (s.trunk t)) else s
    | .officeBusy => if s.officeUse t then s else s.setTrunk t (s.officeState t (s.trunk t))
    | _ => s
  else s

/-- R106: a WARNING trunk whose office call has ended. -/
def State.warningOver (s : State) (t : TrunkId) : Bool :=
  (s.trunk t).state == .warning && !s.officeUse t

/-- R105, R106: a trunk that enters TAKEN. -/
def Trunk.enterTaken (x : Trunk) : Trunk := { x with state := .taken, busySince := none, warnTimer := none }

/-! ### Grants -/

/-- R103, step 3: of the busy trunks, the earliest office-busy-since, and among equal times the lowest number. -/
def State.earliestBusy (s : State) : List TrunkId → Option TrunkId
  | [] => none
  | t :: ts =>
    match s.earliestBusy ts with
    | none => some t
    | some u => if (s.trunk u).busySince.getD 0 < (s.trunk t).busySince.getD 0 then some u else some t

/-- R103: the trunk a request of this mode is granted, by the grant order. -/
def State.chooseTrunk (s : State) (mode : PreemptMode) : Option TrunkId :=
  let free := (List.finRange 8).filter (s.grantable mode)
  match free.find? fun t => (s.trunk t).state == .idleReserved with
  | some t => some t
  | none =>
    match free.find? fun t => (s.trunk t).state == .idleOffice with
    | some t => some t
    | none => s.earliestBusy (free.filter fun t => (s.trunk t).state == .officeBusy)

/-- R105: the record of a granted trunk. -/
def Trunk.grant (x : Trunk) (e : EngineId) (mode : PreemptMode) (warningTime : Nat) : Trunk :=
  if x.state = .officeBusy && mode == .afterWarning && decide (0 < warningTime) then
    { x with state := .warning, holder := some e, warnTimer := some (ticksOfSeconds warningTime) }
  else { x.enterTaken with holder := some e }

/-- R106, R127: the warning source of a trunk that enters WARNING starts with an ON part in the next frame, also where the
trunk has left WARNING and entered it again since the last one. -/
def State.resetWarning (s : State) (t : TrunkId) : State :=
  { s with hwi := { s.hwi with warnings := vput s.hwi.warnings t .stopped } }

/-- R103, R105: trunk `t` is granted to engine `e` for a record of class `c`. -/
def State.grantTrunk (s : State) (t : TrunkId) (e : EngineId) (mode : PreemptMode) (warningTime : Nat)
    (c : ClassId) : State :=
  let x := (s.trunk t).grant e mode warningTime
  let s' := (if x.state = .warning then s.resetWarning t else s).setTrunk t x
  if (s.trunk t).state = .officeBusy then s'.raise (.officePreempted t c) else s'

/-- R104: whether a line test of this trunk is granted. -/
def State.lineTestGrantable (s : State) (t : TrunkId) : Bool :=
  s.managed t &&
    match (s.trunk t).state with
    | .idleReserved => !s.ringRecently t
    | .idleOffice => true
    | _ => false

/-! ### Fault marking -/

/-- R12: the key of the trunk-fault and trunk-cleared alerts. -/
def State.trunkKey (s : State) (t : TrunkId) (q : Qualifier) : Key :=
  { source := 0, zone := t.val + 1, event := s.siteOr.lineFaultEvent, qualifier := q }

/-- R113: a line failure is counted, and at a count of 2 a trunk not faulted becomes faulted with cause COUNT
and its alert is offered. -/
def State.countLineFailure (s : State) (t : TrunkId) : State :=
  let n := min ((s.trunk t).failures + 1) 2
  let s' := s.setTrunk t { s.trunk t with failures := n }
  if n = 2 && !(s.trunk t).faulted then
    ((s'.setTrunk t { s'.trunk t with faulted := true }).raise (.trunkFault t .count)).internalAlert
      (s.trunkKey t .new) classTrouble
  else s'

/-- R113: a matched dial tone. -/
def State.clearLineFailures (s : State) (t : TrunkId) : State :=
  s.setTrunk t { s.trunk t with failures := 0 }

/-- R114: a card fault rising on a managed trunk. -/
def State.cardFaultRise (s : State) (t : TrunkId) : State :=
  if s.managed t && !(s.trunk t).faulted then
    (s.setTrunk t { s.trunk t with faulted := true }).raise (.trunkFault t .card)
  else s

/-- R115: the Trunk Manager acts on a line test's code. -/
def State.testCodeReported (s : State) (t : TrunkId) (code : TestCode) : State :=
  match code with
  | .pass | .passReversed =>
    let s' := s.clearLineFailures t
    if (s.trunk t).faulted && !s.debounced t .f then
      ((s'.setTrunk t { s'.trunk t with faulted := false }).raise (.trunkCleared t)).internalAlert
        (s.trunkKey t .restore) classTrouble
    else s'
  | .noLoop | .cardFault | .noDialTone | .lowTone =>
    if (s.trunk t).faulted then s
    else (s.setTrunk t { s.trunk t with faulted := true }).raise (.trunkFault t .test)
  | .aborted => s

/-! ### Change of role and slot -/

/-- R116: the record of a trunk whose entry is applied with this role, `wasManaged` being whether the trunk was
managed before, and `s` the state in which the new entry stands. -/
def State.trunkOfRole (s : State) (t : TrunkId) (role : TrunkRole) (wasManaged : Bool) : Trunk :=
  let x := s.trunk t
  let kept := if wasManaged then x else { x with faulted := false, failures := 0 }
  match role with
  | .unused | .office =>
    { x with state := .unmanaged, faulted := false, failures := 0, busySince := none, ringTimer := none,
             holder := none, warnTimer := none, guard := .absent }
  | .shared => s.officeState t { kept with holder := none, warnTimer := none, guard := .absent }
  | .reserved =>
    { kept with state := .idleReserved, busySince := none, holder := none, warnTimer := none, guard := .absent }

/-- R116: the Trunk Manager takes the role and slot of an entry that has just been applied in `s`, `before` being
the state in which the write was taken: the trunk record, the card fault of a trunk that becomes managed with F
present (R114), and the report of a trunk that has become grantable (R102). -/
def State.trunkEntryApplied (s before : State) (t : TrunkId) (role : TrunkRole) : State :=
  let s2 := s.setTrunk t (s.trunkOfRole t role (before.managed t))
  let s3 := if managedRole role && !before.managed t && s.debounced t .f then s2.cardFaultRise t else s2
  before.reportGrantable s3 t

/-! ### Sync loss, restoration and INIT -/

/-- R110: one trunk record at the loss of frame sync. -/
def Trunk.syncLost (x : Trunk) : Trunk :=
  match x.state with
  | .warning | .taken | .cooldown =>
    { x with state := .cooldown, holder := none, warnTimer := none, guard := .pending }
  | _ => x

/-- R110: at the restoration of sync each pending guard starts. -/
def Trunk.syncRestored (releaseGuard : Nat) (x : Trunk) : Trunk :=
  match x.guard with
  | .pending => { x with guard := .running (ticksOfMs releaseGuard) }
  | _ => x

end Sys2Proof.Machine
end

