-- ==== Sys2Proof/Machine/Tables.lean ====
section
/-! DEFINITION. The Table Store's operations (chapter 07): applying a write and telling its readers (R135, R137,
R138, R147, R159, R160), staging it (R144), applying staged writes at the end of a use (R145), and the release of
a trunk, whose end of use may apply a staged trunk write (R107, R109, R143). -/

namespace Sys2Proof.Machine

/-- A write that has passed the checks of R135: its entry and its contents. -/
inductive Write where
  | site (entry : SiteRecord)
  | cls (id : ClassId) (entry : ClassEntry)
  | route (id : RouteId) (entry : RouteEntry)
  | trunk (id : TrunkId) (entry : TrunkEntry)
  | tone (id : ToneId) (entry : ToneEntry)
  | cadence (id : CadenceId) (entry : CadenceEntry)
  deriving DecidableEq, Repr

def Write.ref : Write → TableRef
  | .site _ => .site
  | .cls c _ => .cls c
  | .route r _ => .route r
  | .trunk t _ => .trunk t
  | .tone t _ => .tone t
  | .cadence c _ => .cadence c

/-- R143: whether an entry is in use. A site record or class entry never is in this sense. -/
def State.inUse (s : State) : TableRef → Bool
  | .site => false
  | .cls _ => false
  | .route r => s.routeInUse r
  | .trunk t => s.trunkInUse t
  | .tone t => s.toneInUse t
  | .cadence c => s.cadenceInUse c

/-- The tables with the write's contents applied; any staged write of the entry is dropped (R135, R144). -/
def Tables.apply (x : Tables) : Write → Tables
  | .site e => { x with site := some e }
  | .cls c e => { x with classes := vput x.classes c (some e) }
  | .route r e => { x with routes := vput x.routes r ⟨some e, none⟩ }
  | .trunk t e => { x with trunks := vput x.trunks t ⟨some e, none⟩ }
  | .tone t e => { x with tones := vput x.tones t ⟨some e, none⟩ }
  | .cadence c e => { x with cadences := vput x.cadences c ⟨some e, none⟩ }

/-- R144: the tables with the write held as its entry's staged write, in place of an earlier one. A site record
or class write is never staged (R137, R138): it is applied. -/
def Tables.stage (x : Tables) : Write → Tables
  | .site e => x.apply (.site e)
  | .cls c e => x.apply (.cls c e)
  | .route r e => { x with routes := vput x.routes r { vget x.routes r with staged := some e } }
  | .trunk t e => { x with trunks := vput x.trunks t { vget x.trunks t with staged := some e } }
  | .tone t e => { x with tones := vput x.tones t { vget x.tones t with staged := some e } }
  | .cadence c e => { x with cadences := vput x.cadences c { vget x.cadences c with staged := some e } }

/-! ### The readers' side of an application -/

/-- R160: the silence timer at a station silence time in seconds, absent for 0. -/
def silenceTimerAt (sec : Nat) : Option Nat := if sec = 0 then none else some (ticksOfSeconds sec)

/-- R159: the periodic test timer at an interval in hours, absent for 0. -/
def periodicTimerAt (hours : Nat) : Option Nat := if hours = 0 then none else some (ticksOfSeconds (hours * 3600))

/-- R160: an application of the site record restarts the silence timer while LISTENING. -/
def State.siteToMonitor (s : State) (site : SiteRecord) : State :=
  if s.cmu.silent then s
  else { s with cmu := { s.cmu with silenceTimer := silenceTimerAt site.silenceTime } }

/-- R159: the periodic test timer after an application, `before` being the state before it: started as the tables
become ready, restarted by a changed interval while they are ready, removed as they become not ready. -/
def State.periodicAfter (s before : State) : Option Nat :=
  match s.tables.site with
  | none => none
  | some new =>
    if !s.ready then none
    else if !before.ready then periodicTimerAt new.periodicInterval
    else if before.tables.site.map SiteRecord.periodicInterval = some new.periodicInterval then s.cmu.periodic
    else periodicTimerAt new.periodicInterval

/-- R147: a change from not ready to ready is a cause to select. -/
def State.readinessCause (s before : State) : State := if !before.ready && s.ready then s.cause else s

/-- R135: what an application tells the entry's own reader: the Alert Queue of a class entry (R24), the Trunk
Manager of a trunk entry (R116), the silence monitor of the site record (R160). -/
def State.tellOwner (s before : State) : Write → State
  | .site e => s.siteToMonitor e
  | .cls c e => s.adjustClass c e
  | .trunk t e => s.trunkEntryApplied before t e.role
  | .route _ _ => s
  | .tone _ _ => s
  | .cadence _ _ => s

/-- R135: after an application the scheduler has a cause to select, the entry's reader takes it, and a change of
readiness is reported. -/
def State.tellReaders (s before : State) (w : Write) : State :=
  let s1 := s.cause.tellOwner before w
  let s2 := { s1 with cmu := { s1.cmu with periodic := s1.periodicAfter before } }
  s2.readinessCause before

/-- R135, step 4: a write applied at once. -/
def State.applyWrite (s : State) (w : Write) : State :=
  ({ s with tables := s.tables.apply w }).tellReaders s w

/-- R145: a staged write applied at the end of its entry's last use, with TABLE_APPLIED. -/
def State.applyStaged (s : State) (w : Write) : State :=
  (({ s with tables := s.tables.apply w }).raise (.tableApplied w.ref)).tellReaders s w

/-- The staged write of an entry, if it holds one. -/
def Tables.stagedWrite (x : Tables) : TableRef → Option Write
  | .site => none
  | .cls _ => none
  | .route r => (vget x.routes r).staged.map (.route r)
  | .trunk t => (vget x.trunks t).staged.map (.trunk t)
  | .tone t => (vget x.tones t).staged.map (.tone t)
  | .cadence c => (vget x.cadences c).staged.map (.cadence c)

/-- R145: a party reports the end of its use of an entry. -/
def State.endUse (s : State) (ref : TableRef) : State :=
  match s.tables.stagedWrite ref with
  | some w => if s.inUse ref then s else s.applyStaged w
  | none => s

/-- R145: one end of use that releases several entries, in the order in which they are listed. -/
def State.endUses (s : State) (refs : List TableRef) : State := refs.foldl State.endUse s

/-! ### Release of a trunk -/

/-- R107, R109: a release by the engine that holds the trunk. A WARNING trunk returns to its office state; a TAKEN
trunk goes to COOLDOWN with its guard at the release guard read now. A release of a trunk the engine does not hold
changes nothing. -/
def State.releaseTrunk (s : State) (t : TrunkId) (e : EngineId) : State :=
  if (s.trunk t).holder = some e then
    match (s.trunk t).state with
    | .warning =>
      let s1 := s.setTrunk t (s.officeState t { s.trunk t with holder := none, warnTimer := none })
      s.reportGrantable (s1.endUse (.trunk t)) t
    | .taken =>
      s.setTrunk t { s.trunk t with state := .cooldown, holder := none,
                                    guard := .running (ticksOfMs s.siteOr.releaseGuard) }
    | _ => s
  else s

/-- R111: the trunk enters its idle state from COOLDOWN, a staged trunk write is applied, and the trunk is
reported grantable if it has become so. -/
def State.leaveCooldown (s : State) (t : TrunkId) : State :=
  let x := { s.trunk t with guard := GuardTimer.absent }
  let idle := if s.trunkRole t = .reserved then { x with state := .idleReserved } else s.officeState t x
  s.reportGrantable ((s.setTrunk t idle).endUse (.trunk t)) t

end Sys2Proof.Machine
end

