-- ==== Sys2Proof/Machine/Calls.lean ====
section
/-! DEFINITION. The dial engine's operations (chapter 03, and the line test of chapter 08): loading and releasing tone
entries (R56, R79, R80), entering each phase and step, composing a report block (R65, R66), and the ways a call or
test ends: failure (R70), pre-emption stop (R71), abort (R72), CLOSING (R73), with the outcomes the scheduler applies
(R44 to R47) and the line test's end (R157). -/

namespace Sys2Proof.Machine

/-! ### Constants of the rules, in 10 ms units -/

/-- R57, R156: the dial tone timeout, 4 s. -/
def dialToneTicks : Nat := 400

/-- R58: the blind wait runs out 3 s after the seize start. -/
def blindTicks : Nat := 300

/-- R63, R68, R69: a guard of 250 ms. -/
def guardTicks : Nat := 25

/-- R156: the level window, 1 s. -/
def levelWindowTicks : Nat := 100

/-- R60: a pause of 2 s, in highway frames of 125 us. -/
def pauseFrames : Nat := 16000

/-- A time in ms in highway frames, exactly: how long a part of the warning tone lasts (R127). -/
def framesOfMs (ms : Nat) : Nat := ms * 8

/-- A time in ms, at the next multiple of 10 ms at or above it, in highway frames: how long the symbol generator's timer
runs (R61, R136; log 26). -/
def timerFrames (ms : Nat) : Nat := ticksOfMs ms * 80

/-! ### The engine as a record -/

/-- The state with engine `e` rewritten. -/
def State.modEngine (s : State) (e : EngineId) (f : Engine → Engine) : State := s.setEngine e (f (s.engine e))

/-- Whether the engine holds a call or test that it can act for: not IDLE, not in CLOSING, and with no abort posted
(R72: an abort stops it at once, log 6). -/
def Engine.acts (x : Engine) : Bool := x.phase != .idle && x.phase != .closing && x.abort.isNone

/-- R54, R55: the phases in which the engine supervises loop current and card fault: after SEIZE, before CLOSING. -/
def Phase.supervised : Phase → Bool
  | .dialTone => true
  | .dialing => true
  | .awaitAnswer => true
  | .sendBlock => true
  | .awaitAck => true
  | _ => false

/-- The engine with its call record rewritten. -/
def Engine.modCall (x : Engine) (f : CallRecord → CallRecord) : Engine := { x with work := x.work.mapCall f }

/-- Whether the engine's call carries the pre-empt-pending mark. -/
def Engine.marked (x : Engine) : Bool :=
  match x.work.call with
  | some c => c.preempt
  | none => false

def Work.isLineTest : Work → Bool
  | .lineTest _ => true
  | _ => false

/-! ### Loading and releasing tone entries -/

/-- R79: the loading of a tone entry, if the entry and the cadence entry it refers to are valid. -/
def Tables.loading (x : Tables) (t : ToneId) : Option Loading :=
  match (vget x.tones t).applied with
  | none => none
  | some te =>
    match (vget x.cadences te.cadence).applied with
    | none => none
    | some ce =>
      some { tone := t, copy := te, cadence := te.cadence, cadenceCopy := ce, status := .starting,
             classifier := Classifier.initial, absence := none, levelWatch := false, bins := [] }

/-- A list with each element kept at its first place only. -/
def distinct {α : Type} [BEq α] : List α → List α
  | [] => []
  | x :: xs => x :: (distinct xs).filter fun y => !(y == x)

/-- R56, R79: the engine names the entries of a listening step, in role order. An entry that is not valid is not
loaded; an entry named in two roles is loaded once. The loadings stand in the order of naming, in which they take their bins
(log 28). -/
def State.nameTones (s : State) (e : EngineId) (roles : List (ToneRole × ToneId)) : State :=
  let valid := roles.filter fun p => (s.tables.loading p.2).isSome
  let new := (distinct (valid.map Prod.snd)).filterMap s.tables.loading
  s.modEngine e fun x =>
    { x with listening := valid, detector := { x.detector with loadings := x.detector.loadings ++ new } }

/-- R80: the detector with the live loadings that `p` picks set to STOPPING. -/
def Detector.release (d : Detector) (p : Loading → Bool) : Detector :=
  { d with loadings := d.loadings.map fun l => if l.live && p l then { l with status := .stopping } else l }

/-- R145: the tone and then the cadence entries whose use ends when these loadings are released, each table in
ascending entry number. -/
def Detector.releasedRefs (d : Detector) (p : Loading → Bool) : List TableRef :=
  let out := d.loadings.filter fun l => l.live && p l
  ((List.finRange 16).filter fun t => out.any fun l => l.tone == t).map .tone ++
    ((List.finRange 8).filter fun c => out.any fun l => l.cadence == c).map .cadence

/-- The tone entry a report names (R86). -/
def Report.tone : Report → ToneId
  | .matched t => t
  | .absent t => t
  | .level t _ => t

/-- R56, R80: the engine asks for loadings to be released and tells the Table Store that their use has ended. A report of
a released loading that the engine has not taken is discarded: its step has ended (log 12). -/
def State.unload (s : State) (e : EngineId) (p : Loading → Bool) : State :=
  (s.modEngine e fun x =>
    { x with
      detector := x.detector.release p
      reports := x.reports.filter fun r => !(x.detector.loadings.any fun l => l.live && p l && l.tone == r.tone) }).endUses
    ((s.engine e).detector.releasedRefs p)

/-- The engine leaves a listening step: everything is released and nothing is listened for. -/
def State.stopListening (s : State) (e : EngineId) : State :=
  (s.modEngine e fun x => { x with listening := [], reports := [] }).unload e fun _ => true

/-- R93, R94: the watches of the loading an engine keeps. -/
def Detector.watch (d : Detector) (t : ToneId) (f : Loading → Loading) : Detector :=
  { d with loadings := d.loadings.map fun l => if l.live && l.tone == t then f l else l }

/-! ### The symbol generator -/

/-- R59, R61: a symbol's start, reading the on and off times and the level. -/
def Generator.start (site : SiteRecord) (v : Fin 16) : Generator :=
  { symbol := .tone v, onPart := true, left := timerFrames site.symbolOn, index := 0,
    offFrames := timerFrames site.symbolOff, level := site.generatorLevel }

/-- R60, R61: a pause of 2 s, in which every sample is 0. R61 gives a pause a timer and no part: that the part is then OFF, and the
frame number, the OFF frames and the level 0, is the model's choice (log 27). -/
def Generator.startPause : Generator :=
  { symbol := .pause, onPart := false, left := pauseFrames, index := 0, offFrames := 0, level := 0 }

/-- R61: whether the end of the symbol's OFF part, or of the pause, is due to be reported. -/
def Generator.ended (g : Generator) : Bool := g.symbol != .none && !g.onPart && g.left == 0

/-- R61: the generator after one highway frame. -/
def Generator.advance (g : Generator) : Generator :=
  if g.symbol = .none then g
  else if g.onPart then
    if g.left ≤ 1 then { g with onPart := false, left := g.offFrames, index := g.index + 1 }
    else { g with left := g.left - 1, index := g.index + 1 }
  else { g with left := g.left - 1 }

/-! ### The report block -/

/-- R65: the qualifier symbol. -/
def qualifierSymbol : Qualifier → Fin 16
  | .new => 1
  | .restore => 2
  | .test => 3

/-- A decimal digit of a number as a symbol. -/
def digitSymbol (n place : Nat) : Fin 16 := Fin.ofNat 16 (n / place % 10)

/-- R66: S, the sum of 15 minus the first symbol and all the others. -/
def blockSum : List (Fin 16) → Nat
  | [] => 0
  | q :: qs => (15 - q.val) + (qs.map Fin.val).sum

/-- R66: the check symbol. -/
def checkSymbol (symbols : List (Fin 16)) : Fin 16 := Fin.ofNat 16 ((16 - blockSum symbols % 16) % 16)

/-- R65: the symbols of a report block, check symbol last. -/
def reportBlock (account : List (Fin 16)) (classSymbol : Fin 16) (k : Key) : List (Fin 16) :=
  let symbols := account ++ [classSymbol, qualifierSymbol k.qualifier,
    digitSymbol k.event 100, digitSymbol k.event 10, digitSymbol k.event 1,
    digitSymbol k.zone 100, digitSymbol k.zone 10, digitSymbol k.zone 1,
    digitSymbol k.source 10, digitSymbol k.source 1]
  symbols ++ [checkSymbol symbols]

/-- R65: the class symbol of a class entry, or the class number if the entry is not valid. -/
def State.classSymbol (s : State) (c : ClassId) : Fin 16 :=
  match s.classEntry c with
  | some ce => ce.classSymbol
  | none => Fin.ofNat 16 c.val

/-- R74: the key of the test block. -/
def State.testKey (s : State) : Key :=
  { source := 0, zone := 0, event := s.siteOr.periodicEvent, qualifier := .test }

/-- R65, R74: the block of the current entry of what an engine holds, composed from values as they stand. -/
def State.composeBlock (s : State) (w : Work) : List (Fin 16) :=
  match w with
  | .alertCall c =>
    match (c.blocks[c.current]?).bind BlockEntry.handle with
    | some h =>
      match s.findRecord h with
      | some r => reportBlock s.siteOr.account (s.classSymbol r.cls) r.key
      | none => []
    | none => []
  | .testCall _ => reportBlock s.siteOr.account (s.classSymbol classTest) s.testKey
  | _ => []

/-! ### Entering phases and steps -/

/-- R57, R156: DIALTONE, step LISTEN, with the 4 s timeout. A line test does not load the reorder entry. -/
def State.enterDialTone (s : State) (e : EngineId) : State :=
  let site := s.siteOr
  let roles := if (s.engine e).work.isLineTest then [(ToneRole.dialTone, site.dialTone)]
    else [(ToneRole.dialTone, site.dialTone), (.reorder, site.reorderTone)]
  (s.modEngine e fun x =>
    { x with phase := .dialTone, step := .listen, phaseTimer := some dialToneTicks,
             generator := Generator.silent }).nameTones e roles

/-- R62: AWAIT_ANSWER, step LISTEN, with the route's answer timeout. -/
def State.enterAwaitAnswer (s : State) (e : EngineId) (route : RouteId) : State :=
  let site := s.siteOr
  let r := s.routeOr route
  (s.modEngine e fun x =>
    { x with phase := .awaitAnswer, step := .listen, phaseTimer := some (ticksOfSeconds r.answerTimeout),
             generator := Generator.silent }).nameTones e
    [(.busy, site.busyTone), (.reorder, site.reorderTone), (.handshake, r.handshakeTone)]

/-- R68: a time in tenths of a second in 10 ms units. -/
def ticksOfTenths (n : Nat) : Nat := n * 10

/-- R68: AWAIT_ACK, step LISTEN, with the route's ack timeout; the current entry becomes AWAIT_ACK (R67). -/
def State.enterAwaitAck (s : State) (e : EngineId) (route : RouteId) : State :=
  let r := s.routeOr route
  (s.modEngine e fun x =>
    { x.modCall (fun c => { c with blocks := c.blocks.modify c.current fun b => { b with state := .awaitAck } }) with
      phase := .awaitAck, step := .listen, phaseTimer := some (ticksOfTenths r.ackTimeout), sending := [],
      generator := Generator.silent }).nameTones e [(.ack, r.ackTone)]

/-- R59, R60: the engine sends the dial-string symbol at its dial position: a tone, a pause, a W that returns to
DIALTONE, LISTEN, or, past the last symbol, AWAIT_ANSWER. -/
def State.dialNext (s : State) (e : EngineId) (route : RouteId) : State :=
  match (s.routeOr route).dial[(s.engine e).dialPos]? with
  | none => s.enterAwaitAnswer e route
  | some (.tone v) =>
    s.modEngine e fun x =>
      { x with phase := .dialing, step := .none, phaseTimer := none,
               generator := Generator.start s.siteOr (Fin.castLE (by decide) v) }
  | some .pause =>
    s.modEngine e fun x =>
      { x with phase := .dialing, step := .none, phaseTimer := none, generator := Generator.startPause }
  | some .wait => (s.modEngine e fun x => { x with dialPos := x.dialPos + 1 }).enterDialTone e

/-- R67: SEND_BLOCK: the tries rise, the current entry is SENDING, the block is composed and its first symbol
starts. -/
def State.startSending (s : State) (e : EngineId) : State :=
  let block := s.composeBlock (s.engine e).work
  s.modEngine e fun x =>
    { x.modCall (fun c =>
        { c with tries := c.tries + 1, blocks := c.blocks.modify c.current fun b => { b with state := .sending } }) with
      phase := .sendBlock, step := .none, phaseTimer := none, sending := block.tail,
      generator := match block.head? with
        | some v => Generator.start s.siteOr v
        | none => Generator.silent }

/-- R63, R68: the 250 ms guard, with nothing loaded. -/
def State.enterGuard (s : State) (e : EngineId) (step : Step) : State :=
  (s.stopListening e).modEngine e fun x => { x with step := step, phaseTimer := some guardTicks }

/-! ### Outcomes the scheduler applies (section 2.10) -/

/-- An entry that is not yet ACKED or FAILED: the outcome of the call concerns it. -/
def BlockEntry.open (b : BlockEntry) : Bool := b.state != .acked && b.state != .failed

/-- R45 to R47: each entry concerned is marked FAILED and its handle withdrawn, and the Alert Queue is handed the
outcome for each handle, in block-list order. The engine is entering CLOSING. -/
def State.applyToBlocks (s : State) (e : EngineId) (outcome : State → Handle → State) : State :=
  match (s.engine e).work.call with
  | none => s
  | some c =>
    ((c.blocks.filter BlockEntry.open).filterMap BlockEntry.handle).foldl outcome
      (s.modEngine e fun x =>
        { x.modCall (fun c => { c with blocks := c.blocks.map fun b => if b.open then ⟨none, .failed⟩ else b }) with
          phase := .closing })

/-- R74, R158: the test call's outcome is handed to the Command Unit: TEST_CALL_DONE, and the slot empties. A test
block that has been acknowledged makes it DELIVERED (log 9). -/
def State.testOutcome (s : State) (c : CallRecord) (outcome : CallOutcome) : State :=
  let said := if c.blocks.any fun b => b.state == .acked then .delivered else outcome
  let s1 := s.raise (.testCallDone c.route said)
  { s1 with cmu := { s1.cmu with slot := .empty } }

/-! ### Stopping and closing -/

/-- R70, R71, R72: the engine stops listening and sending at once: the generator is stopped, the detector unloads what
it holds, the phase timer and the loop-loss timer are removed. -/
def State.stopEngine (s : State) (e : EngineId) : State :=
  (s.modEngine e fun x =>
    { x with generator := Generator.silent, sending := [], phaseTimer := none, lossTimer := none }).stopListening e

/-- The table uses an engine ends on entering CLOSING (R73, R145): its route, then what is still loaded. -/
def Engine.closingRefs (x : Engine) : List TableRef :=
  (match x.work.call with
    | some c => [TableRef.route c.route]
    | none => []) ++ x.detector.releasedRefs fun _ => true

/-- R73: an engine that has left CLOSING: IDLE, its detector with its STOPPING loadings kept (R80). -/
def Engine.idled (x : Engine) : Engine := { Engine.reset with detector := x.detector }

/-- R73: CLOSING. The seize goes off and the trunk is released; the table uses end; the call record is discarded, and
with it the mark and the call's place in the start order; the engine becomes IDLE, which starts a selection. Reports
not taken find the engine closed and are discarded (R56, R70). -/
def State.close (s : State) (e : EngineId) : State :=
  let x := s.engine e
  let s1 := s.modEngine e fun x =>
    { x with phase := .closing, step := .none, seize := false, seizeStart := none, phaseTimer := none,
             lossTimer := none }
  let s2 := match x.work.trunk with
    | some t => s1.releaseTrunk t e
    | none => s1
  let s3 := (s2.modEngine e fun x => { x with detector := x.detector.release fun _ => true }).endUses x.closingRefs
  let s4 := s3.modEngine e Engine.idled
  ({ s4 with dsc := { s4.dsc with
      startOrder := s4.dsc.startOrder.filter fun i => i != e
      marked := if s4.dsc.marked = some e then none else s4.dsc.marked } }).cause

/-- R70: whether a cause is a line failure; the others are far-end failures. -/
def CallOutcome.isLine : CallOutcome → Bool
  | .noLoop => true
  | .cardFault => true
  | .noDialTone => true
  | .lineLost => true
  | _ => false

/-- R45, R46: the scheduler applies a failure to the entries concerned and raises CALL_FAILED. -/
def State.applyFailure (s : State) (e : EngineId) (c : CallRecord) (cause : CallOutcome) : State :=
  let s' := if cause.isLine then s.applyToBlocks e State.uncountedReturn
    else s.applyToBlocks e fun s h => s.farEndFailure h c.route
  s'.raise (.callFailed c.route c.trunk cause)

/-- R70: a call reaches a failure: the engine stops, a line failure is counted on the trunk (R113), the scheduler (or,
for a test call, the Command Unit) is told, and the engine closes. -/
def State.failCall (s : State) (e : EngineId) (cause : CallOutcome) : State :=
  let s1 := s.stopEngine e
  let s2 := if cause.isLine then
      match (s1.engine e).work.trunk with
      | some t => s1.countLineFailure t
      | none => s1
    else s1
  let s3 := match (s2.engine e).work with
    | .alertCall c => s2.applyFailure e c cause
    | .testCall c => s2.testOutcome c cause
    | _ => s2
  s3.close e

/-- R157: a peak is written for the codes that follow a measurement, and 0 for every other. -/
def TestCode.measured : TestCode → Bool
  | .pass => true
  | .passReversed => true
  | .lowTone => true
  | _ => false

/-- R157: the end of a line test: the engine stops, the result record is written, LINE_TEST_DONE is raised, the Trunk
Manager takes the code (R115), the slot empties and the engine closes. -/
def State.endLineTest (s : State) (e : EngineId) (code : TestCode) : State :=
  match (s.engine e).work with
  | .lineTest r =>
    let peak := if code.measured then r.peak else 0
    let s1 := s.stopEngine e
    let s2 := { s1 with cmu := { s1.cmu with results := vput s1.cmu.results r.trunk ⟨true, code, peak, r.loopDelay⟩ } }
    let s3 := (s2.raise (.lineTestDone r.trunk code peak r.loopDelay)).testCodeReported r.trunk code
    ({ s3 with cmu := { s3.cmu with slot := .empty } }).close e
  | _ => s

/-- R53 to R55, R155: a condition of the line that is a line failure of a call and ends a line test with a code. -/
def State.failWork (s : State) (e : EngineId) (cause : CallOutcome) (code : TestCode) : State :=
  if (s.engine e).work.isLineTest then s.endLineTest e code else s.failCall e cause

/-- R40, R71: a pre-emption stop: no cause is reported; the entries not ACKED return uncounted, or a test call's outcome
is PREEMPTED; the engine closes. -/
def State.preemptStop (s : State) (e : EngineId) : State :=
  let s1 := s.stopEngine e
  let s2 := match (s1.engine e).work with
    | .alertCall _ => s1.applyToBlocks e State.uncountedReturn
    | .testCall c => s1.testOutcome c .preempted
    | _ => s1
  s2.close e

/-- R72: an abort: the engine stops at once, the entries not ACKED return uncounted, a test call reports ABORTED, a line
test ends with the code ABORTED, and the engine closes. -/
def State.abortEngine (s : State) (e : EngineId) : State :=
  match (s.engine e).work with
  | .nothing => s
  | .lineTest _ => s.endLineTest e .aborted
  | .alertCall _ => ((s.stopEngine e).applyToBlocks e State.uncountedReturn).close e
  | .testCall c => ((s.stopEngine e).testOutcome c .aborted).close e

/-- R72: which work an abort of this cause reaches: ABORT_CALLS does not reach a line test. -/
def AbortCause.reaches : AbortCause → Work → Bool
  | _, .nothing => false
  | .abortCalls, .lineTest _ => false
  | _, _ => true

/-- R72: an abort is posted to an engine. An engine of `taken` takes it inside this step; another keeps it until its
step ENGINE_ABORT and acts on nothing else (log 6). -/
def State.postAbort (s : State) (cause : AbortCause) (taken : EngineSet) (e : EngineId) : State :=
  if cause.reaches (s.engine e).work && (s.engine e).phase != .closing then
    if takes taken e then s.abortEngine e else s.modEngine e fun x => { x with abort := some cause }
  else s

/-- R72: an abort posted to both engines, E0 first. -/
def State.postAborts (s : State) (cause : AbortCause) (taken : EngineSet) : State :=
  engineIds.foldl (fun s e => s.postAbort cause taken e) s

/-! ### From the grant to DIALTONE -/

/-- R155: the loop delay lies in 0..2000 ms. -/
def loopDelayLimit : Nat := 200

/-- R53, R155: the time since the seize start, in 10 ms units; an L taken later than the loop timeout can run has
waited no longer than that (log 2). -/
def State.loopWait (s : State) (e : EngineId) : Nat :=
  min (s.clock - ((s.engine e).seizeStart).getD s.clock) loopDelayLimit

/-- R58, R53: L is taken as present in SEIZE: the engine leaves SEIZE for DIALTONE, in step LISTEN or BLIND by its
route's mode; a line test records its loop delay (R155). -/
def State.leaveSeize (s : State) (e : EngineId) : State :=
  let x := s.engine e
  let waited := s.loopWait e
  match x.work with
  | .lineTest _ =>
    (s.modEngine e fun x => { x with work := x.work.mapTest fun r => { r with loopDelay := waited } }).enterDialTone e
  | .alertCall c | .testCall c =>
    match (s.routeOr c.route).dialToneMode with
    | .wait => s.enterDialTone e
    | .blind =>
      s.modEngine e fun x =>
        { x with phase := .dialTone, step := .blind, phaseTimer := some (blindTicks - waited) }
  | .nothing => s

/-- R53, R155: SEIZE: the seize goes on, the loop timeout starts, a line test records the polarity, and the debounced F
and L are looked at as they stand on entry. -/
def State.enterSeize (s : State) (e : EngineId) (t : TrunkId) : State :=
  let s1 := s.modEngine e fun x =>
    { x with phase := .seize, step := .none, seize := true, seizeStart := some s.clock,
             phaseTimer := some (ticksOfMs s.siteOr.loopTimeout),
             work := x.work.mapTest fun r => { r with polarity := s.debounced t .v } }
  if s.debounced t .f then s1.failWork e .cardFault .cardFault
  else if s.debounced t .l then s1.leaveSeize e
  else s1

/-- R52: CLEAR: the seize stays off for the release guard. -/
def State.enterClear (s : State) (e : EngineId) : State :=
  s.modEngine e fun x =>
    { x with phase := .clear, step := .none, seize := false, phaseTimer := some (ticksOfMs s.siteOr.releaseGuard) }

/-- R51: the holder is told that its trunk is TAKEN and leaves ACQUIRE: to CLEAR if the call is from the office, to
SEIZE otherwise. -/
def State.takenReported (s : State) (e : EngineId) (t : TrunkId) : State :=
  let x := s.engine e
  if x.phase = .acquire && x.abort.isNone then
    match x.work with
    | .alertCall c | .testCall c => if c.fromOffice then s.enterClear e else s.enterSeize e t
    | .lineTest _ => s.enterSeize e t
    | .nothing => s
  else s

/-- R106: a WARNING trunk becomes TAKEN and its holder is told. -/
def State.endWarning (s : State) (t : TrunkId) : State :=
  let s1 := s.setTrunk t (s.trunk t).enterTaken
  match (s.trunk t).holder with
  | some e => s1.takenReported e t
  | none => s1

/-- R100, R106: the Trunk Manager's evaluation of a trunk after a change of its signalling or of its ring-recent timer,
`before` being the state before that change. -/
def State.officeChanged (s before : State) (t : TrunkId) : State :=
  if s.warningOver t then s.endWarning t else before.reportGrantable (s.reevaluate t) t

end Sys2Proof.Machine
end

