-- ==== Sys2Proof/Machine/Operands.lean ====
section
/-! DEFINITION. Reading inbound cells (R181, R182): the fields of a header, the words of a body, the arguments of a
command, and a table write checked and clamped (R135, R136, R140 to R142). -/

namespace Sys2Proof.Machine

/-! ### Bits and words -/

/-- Bits `hi`..`lo` of a word, as a number. -/
def bitsOf (w : Word) (hi lo : Nat) : Nat := w.toNat / 2 ^ lo % 2 ^ (hi + 1 - lo)

/-- Whether bit `k` of a word is set. -/
def bitOf (w : Word) (k : Nat) : Bool := w.toNat / 2 ^ k % 2 == 1

/-- R181: a header word: 0xA, kind, tag, body length. -/
def headerWord (kind tag length : Nat) : Word := BitVec.ofNat 16 (0xA000 + kind * 256 + tag * 64 + length)

def headerKind (h : Word) : Nat := bitsOf h 11 8

def headerTag (h : Word) : Nat := bitsOf h 7 6

def headerLength (h : Word) : Nat := bitsOf h 5 0

/-- R173: C = ((65535 − header) + the sum of the body words) mod 65536. -/
def checkWord (header : Word) (body : List Word) : Word :=
  BitVec.ofNat 16 ((65535 - header.toNat) + (body.map BitVec.toNat).sum)

def InCell.kind (c : InCell) : Nat := headerKind c.header

def InCell.tag (c : InCell) : Nat := headerTag c.header

/-- Body word `k`, numbered from 1 (R182). -/
def InCell.word (c : InCell) (k : Nat) : Word := c.body.getD (k - 1) 0

/-- R182: the one field of a word, the number in its bits 14–0. -/
def InCell.field (c : InCell) (k : Nat) : Nat := bitsOf (c.word k) 14 0

/-- R182: a 16-bit field in two words, the upper 8 bits in the first. -/
def InCell.field16 (c : InCell) (k : Nat) : Nat := bitsOf (c.word k) 7 0 * 256 + bitsOf (c.word (k + 1)) 7 0

/-- R182: a coefficient is read as a two's-complement value. -/
def InCell.coefficient (c : InCell) (k : Nat) : Int := (BitVec.ofNat 16 (c.field16 k)).toInt

/-- R182: symbol number `i` (from 0) of the symbols packed three to a word from body word `k` on. -/
def InCell.packed (c : InCell) (k i : Nat) : Nat :=
  let w := c.word (k + i / 3)
  match i % 3 with
  | 0 => bitsOf w 11 8
  | 1 => bitsOf w 7 4
  | _ => bitsOf w 3 0

/-- A number as an index below `n`, if it is one. -/
def finOf (n : Nat) (k : Nat) : Option (Fin n) := if h : k < n then some ⟨k, h⟩ else none

/-- R136: a field brought within its range. -/
def clampTo (lo hi x : Nat) : Nat := max lo (min hi x)

/-! ### ALERT, addressing and commands -/

def qualifierOf : Nat → Option Qualifier
  | 1 => some .new
  | 2 => some .restore
  | 3 => some .test
  | _ => none

/-- R6, row 1, for a station ALERT, decoded by R182: its key and class if every field is in range and the
qualifier is NEW or RESTORE. -/
def InCell.alertArrival (c : InCell) : Option (Key × ClassId) :=
  match qualifierOf (bitsOf (c.word 1) 7 6), finOf 6 (bitsOf (c.word 1) 10 8) with
  | some q, some cls =>
    let k : Key := { source := bitsOf (c.word 1) 5 0, zone := c.field 2, event := c.field 3, qualifier := q }
    if k.inRange && q != .test then some (k, cls) else none
  | _, _ => none

/-- R182: the table an addressing word names, 6 and 7 being no table. -/
def addressTable (w : Word) : Nat := bitsOf w 10 8

/-- R182: the entry of one of the six tables that an addressing word names, if the table and the entry exist. -/
def addressRef (w : Word) : Option TableRef :=
  let n := bitsOf w 3 0
  match addressTable w with
  | 0 => if n = 0 then some .site else none
  | 1 => (finOf 6 n).map .cls
  | 2 => (finOf 8 n).map .route
  | 3 => (finOf 8 n).map .trunk
  | 4 => (finOf 16 n).map .tone
  | 5 => (finOf 8 n).map .cadence
  | _ => none

/-- R182: the body length of a write to a table, by its code. -/
def writeLength : Nat → Option Nat
  | 0 => some 26
  | 1 => some 13
  | 2 => some 19
  | 3 => some 3
  | 4 => some 13
  | 5 => some 6
  | _ => none

/-- R174, R182: whether a cell of a known kind has the body length its layout gives. A table code of 6 or 7 is
handed on whatever the length; a TABLE_WRITE or TABLE_READ with no body names no table and is not. -/
def InCell.lengthOk (c : InCell) : Bool :=
  let n := c.body.length
  match c.kind with
  | 1 => n == 3
  | 3 =>
    match writeLength (addressTable (c.word 1)) with
    | some m => n == m
    | none => n != 0
  | 4 => if addressTable (c.word 1) ≤ 5 then n == 1 else n != 0
  | 5 => n == 3
  | 6 => n == 0
  | 7 => n == 0
  | 8 => n == 1
  | _ => true

/-- R174: the kinds the part knows. -/
def knownKind (k : Nat) : Bool := k == 1 || (3 ≤ k && k ≤ 8)

/-- R182: the command code of a COMMAND cell. -/
def InCell.code (c : InCell) : Nat := c.field 1

/-- R182: the mask of SET_NOTIFY and CLEAR_EVENTS: bit k of word 2 for kinds 0..7, of word 3 for kinds 8..15. -/
def InCell.maskBit (c : InCell) (k : EventKind) : Bool :=
  if k.val < 8 then bitOf (c.word 2) k.val else bitOf (c.word 3) (k.val - 8)

/-! ### Table writes -/

/-- R183: the reasons of REFUSED, in code order. -/
inductive RefuseReason where
  | badArgument
  | unknownReference
  | duplicateSlot
  | invalidDialSymbol
  | emptyRouteList
  | accountLength
  deriving DecidableEq, Repr, Inhabited

/-- A write that passed steps 1 to 3 of R135: what is to be stored, and the numbers of the body words at which the
clamped fields begin, in the order of the table's fields. -/
structure ParsedWrite where
  write : Write
  clamped : List Nat
  deriving DecidableEq, Repr

/-- A numeric field: the body word at which it begins, its value as stored, and whether it was clamped. -/
structure NumField where
  word : Nat
  value : Nat
  clamped : Bool
  deriving DecidableEq, Repr, Inhabited

/-- R136: a field with a range and no default. -/
def rangeField (word lo hi x : Nat) : NumField := ⟨word, clampTo lo hi x, clampTo lo hi x != x⟩

/-- R136: a field with a default, which a written 0 takes and which is not listed as clamped. -/
def defaultField (word lo hi dflt x : Nat) : NumField :=
  if x = 0 then ⟨word, dflt, false⟩ else rangeField word lo hi x

/-- R137: the station silence time: 0 is off, 1..9 is clamped to 10. -/
def silenceTimeField (word x : Nat) : NumField := if x = 0 then ⟨word, 0, false⟩ else rangeField word 10 600 x

/-- R136: the words of the clamped fields, in order. -/
def clampedWords (fs : List NumField) : List Nat := (fs.filter NumField.clamped).map NumField.word

/-- R137: a site record write. -/
def InCell.parseSite (c : InCell) : Except RefuseReason ParsedWrite :=
  let n := c.field 2
  if n < 4 || 8 < n then .error .accountLength
  else
    match finOf 16 (c.field 6), finOf 16 (c.field 7), finOf 16 (c.field 8) with
    | some dial, some busy, some reorder =>
      let account := (List.range n).map fun i => Fin.ofNat 16 (c.packed 3 i)
      let symbolOn := defaultField 9 30 100 50 (c.field 9)
      let symbolOff := defaultField 10 30 100 50 (c.field 10)
      let generatorLevel := rangeField 11 0 20 (c.field 11)
      let loopTimeout := defaultField 14 100 2000 400 (c.field 14)
      let loopLossTime := defaultField 15 50 1000 200 (c.field 15)
      let releaseGuard := defaultField 16 500 5000 1000 (c.field 16)
      let warningFrequency := rangeField 17 300 3400 (c.field 17)
      let warningOn := rangeField 18 100 1000 (c.field 18)
      let warningOff := rangeField 19 100 1000 (c.field 19)
      let periodicInterval := rangeField 20 0 168 (c.field 20)
      let periodicEvent := rangeField 21 0 999 (c.field 21)
      let silenceTime := silenceTimeField 22 (c.field 22)
      let silenceEvent := rangeField 23 0 999 (c.field 23)
      let lineFaultEvent := rangeField 24 0 999 (c.field 24)
      .ok
        { write := .site
            { account := account, dialTone := dial, busyTone := busy, reorderTone := reorder,
              symbolOn := symbolOn.value, symbolOff := symbolOff.value,
              generatorLevel := generatorLevel.value, silenceFloor := c.field16 12,
              loopTimeout := loopTimeout.value, loopLossTime := loopLossTime.value,
              releaseGuard := releaseGuard.value, warningFrequency := warningFrequency.value,
              warningOn := warningOn.value, warningOff := warningOff.value,
              periodicInterval := periodicInterval.value, periodicEvent := periodicEvent.value,
              silenceTime := silenceTime.value, silenceEvent := silenceEvent.value,
              lineFaultEvent := lineFaultEvent.value, goodLevel := c.field16 25 }
          clamped := clampedWords [symbolOn, symbolOff, generatorLevel, loopTimeout, loopLossTime, releaseGuard,
            warningFrequency, warningOn, warningOff, periodicInterval, periodicEvent, silenceTime, silenceEvent,
            lineFaultEvent] }
    | _, _, _ => .error .unknownReference

/-- R182: the pre-empt mode codes. -/
def preemptModeOf : Nat → Option PreemptMode
  | 0 => some .none
  | 1 => some .afterWarning
  | 2 => some .immediate
  | _ => none

/-- R182: the trunk role codes. -/
def trunkRoleOf : Nat → Option TrunkRole
  | 0 => some .unused
  | 1 => some .shared
  | 2 => some .reserved
  | 3 => some .office
  | _ => none

/-- R182: the codes of a route's valid field. -/
def validOf : Nat → Option Bool
  | 0 => some false
  | 1 => some true
  | _ => none

/-- R182: the dial tone mode codes. -/
def dialToneModeOf : Nat → Option DialToneMode
  | 0 => some .wait
  | 1 => some .blind
  | _ => none

/-- R182: the dial symbol codes: 0..9 digits, 10 *, 11 #, 12 P, 13 W. -/
def dialSymbolOf (k : Nat) : Option DialSymbol :=
  match finOf 12 k with
  | some v => some (.tone v)
  | none => if k = 12 then some .pause else if k = 13 then some .wait else none

/-- The list of all results, if every one is there. -/
def allSome {α : Type} : List (Option α) → Option (List α)
  | [] => some []
  | none :: _ => none
  | some x :: xs => (allSome xs).map (x :: ·)

/-- R138: a class entry write. The route-id words beyond the stated route list length are not read (log 10). -/
def InCell.parseClass (c : InCell) (id : ClassId) : Except RefuseReason ParsedWrite :=
  match preemptModeOf (c.field 7) with
  | none => .error .badArgument
  | some mode =>
    let length := rangeField 2 0 4 (c.field 2)
    if length.value = 0 then .error .emptyRouteList
    else
      match allSome ((List.range length.value).map fun i => finOf 8 (c.field (3 + i))) with
      | none => .error .unknownReference
      | some routes =>
        let warningTime := rangeField 8 0 10 (c.field 8)
        let cancelWindow := rangeField 9 0 120 (c.field 9)
        let backoffBase := rangeField 10 1 60 (c.field 10)
        let backoffCap := rangeField 11 10 900 (c.field 11)
        let maxCycles := rangeField 12 1 7 (c.field 12)
        let classSymbol := rangeField 13 0 15 (c.field 13)
        .ok
          { write := .cls id
              { routes := routes, preemptMode := mode, warningTime := warningTime.value,
                cancelWindow := cancelWindow.value, backoffBase := backoffBase.value,
                backoffCap := backoffCap.value, maxCycles := maxCycles.value,
                classSymbol := Fin.ofNat 16 classSymbol.value }
            clamped := clampedWords [length, warningTime, cancelWindow, backoffBase, backoffCap, maxCycles,
              classSymbol] }

/-- R139: a route entry write. -/
def InCell.parseRoute (c : InCell) (id : RouteId) : Except RefuseReason ParsedWrite :=
  match validOf (c.field 2), dialToneModeOf (c.field 17) with
  | some valid, some mode =>
    let n := c.field 3
    if n = 0 || 24 < n then .error .invalidDialSymbol
    else
      match allSome ((List.range n).map fun i => dialSymbolOf (c.packed 4 i)) with
      | none => .error .invalidDialSymbol
      | some dial =>
        match finOf 16 (c.field 12), finOf 16 (c.field 13) with
        | some handshake, some ack =>
          let blocksPerCall := rangeField 14 1 8 (c.field 14)
          let blockTries := rangeField 15 1 4 (c.field 15)
          let fallbackAfter := rangeField 16 2 5 (c.field 16)
          let answerTimeout := defaultField 18 10 90 45 (c.field 18)
          let ackTimeout := defaultField 19 5 50 15 (c.field 19)
          .ok
            { write := .route id
                { valid := valid, dial := dial, handshakeTone := handshake, ackTone := ack,
                  blocksPerCall := blocksPerCall.value, blockTries := blockTries.value,
                  fallbackAfter := fallbackAfter.value, dialToneMode := mode,
                  answerTimeout := answerTimeout.value, ackTimeout := ackTimeout.value }
              clamped := clampedWords [blocksPerCall, blockTries, fallbackAfter, answerTimeout, ackTimeout] }
        | _, _ => .error .unknownReference
  | _, _ => .error .badArgument

/-- R140: whether another trunk's applied entry or staged write, with a role other than UNUSED, names this slot. -/
def Tables.slotHeld (x : Tables) (t : TrunkId) (slot : Nat) : Bool :=
  (List.finRange 8).any fun u =>
    u != t &&
      ([(vget x.trunks u).applied, (vget x.trunks u).staged].any fun e =>
        match e with
        | some e => e.role != .unused && e.slot == slot
        | none => false)

/-- R140: a trunk entry write. -/
def InCell.parseTrunk (c : InCell) (x : Tables) (id : TrunkId) : Except RefuseReason ParsedWrite :=
  match trunkRoleOf (c.field 2) with
  | none => .error .badArgument
  | some role =>
    let slot := rangeField 3 0 28 (c.field 3)
    if role != .unused && x.slotHeld id slot.value then .error .duplicateSlot
    else .ok { write := .trunk id { role := role, slot := slot.value }, clamped := clampedWords [slot] }

/-- R141: a tone entry write. -/
def InCell.parseTone (c : InCell) (id : ToneId) : Except RefuseReason ParsedWrite :=
  match finOf 8 (c.field 13) with
  | none => .error .unknownReference
  | some cad =>
    let components := rangeField 2 1 2 (c.field 2)
    let ratio1 := rangeField 7 0 63 (c.field 7)
    let ratio2 := rangeField 12 0 63 (c.field 12)
    .ok
      { write := .tone id
          { components := components.value
            first := { coefficient := c.coefficient 3, threshold := c.field16 5, ratio := ratio1.value }
            second := { coefficient := c.coefficient 8, threshold := c.field16 10, ratio := ratio2.value }
            cadence := cad }
        clamped := clampedWords [components, ratio1, ratio2] }

/-- R142: the second of an ordered pair is raised to the first where it is below it, and is then listed. -/
def raiseTo (lo : Nat) (x : NumField) : NumField :=
  if x.value < lo then { x with value := lo, clamped := true } else x

/-- R142: a cadence entry write: each field clamped to its range, then each pair put in order, an off max of 0
being kept. -/
def InCell.parseCadence (c : InCell) (id : CadenceId) : Except RefuseReason ParsedWrite :=
  let onMin := rangeField 2 1 255 (c.field 2)
  let onMax := raiseTo onMin.value (rangeField 3 1 255 (c.field 3))
  let offMin := rangeField 4 1 255 (c.field 4)
  let offMax0 := rangeField 5 0 255 (c.field 5)
  let offMax := if offMax0.value = 0 then offMax0 else raiseTo offMin.value offMax0
  let cyclesRequired := rangeField 6 1 4 (c.field 6)
  .ok
    { write := .cadence id
        { onMin := onMin.value, onMax := onMax.value, offMin := offMin.value, offMax := offMax.value,
          cyclesRequired := cyclesRequired.value }
      clamped := clampedWords [onMin, onMax, offMin, offMax, cyclesRequired] }

/-- R135, steps 1 to 3: a TABLE_WRITE cell decided against the tables. -/
def InCell.parseWrite (c : InCell) (x : Tables) : Except RefuseReason ParsedWrite :=
  match addressRef (c.word 1) with
  | none => .error .badArgument
  | some .site => c.parseSite
  | some (.cls id) => c.parseClass id
  | some (.route id) => c.parseRoute id
  | some (.trunk id) => c.parseTrunk x id
  | some (.tone id) => c.parseTone id
  | some (.cadence id) => c.parseCadence id

end Sys2Proof.Machine
end

