-- ==== Sys2Proof/Machine/Selection.lean ====
section
/-! DEFINITION. The Dispatch Scheduler's selection (R28 to R35), the command slot's turn (R34, R151), the pre-emption
check with its mark (R38, R39), and the hold (R41, R42). -/

namespace Sys2Proof.Machine

/-! ### Routes of records -/

/-- R29: the positions of a route list searched for a valid route: the current one, then those after it, then from 0. -/
def searchOrder (n pos : Nat) : List Nat := (List.range n).drop pos ++ (List.range n).take pos

/-- R29: the first valid route of a record's list, searched from its position, with the position at which it stands. -/
def State.routeFrom (s : State) (r : Record) : Option (Nat × RouteId) :=
  match s.classEntry r.cls with
  | none => none
  | some ce =>
    ((searchOrder ce.routes.length r.routePos).filterMap fun p => (ce.routes[p]?).map fun rt => (p, rt)).find? fun q =>
      s.routeValid q.2

/-- R29: a record asked to stand at another position of its route list. -/
def Record.moveTo (r : Record) (pos : Nat) : Record :=
  if r.routePos = pos then r else { r with routePos := pos, routeFailures := 0 }

/-- R29: the walk looks up a WAITING record's route, moving the record to the next valid route of its list if its
current one is invalid. -/
def State.placeOnRoute (s : State) (h : Handle) : Option (State × Record × RouteId) :=
  match s.findRecord h with
  | some r =>
    if r.state = .waiting then
      match s.routeFrom r with
      | some q => some (s.updateRecord h (Record.moveTo · q.1), r.moveTo q.1, q.2)
      | none => none
    else none
  | none => none

/-! ### Building a call -/

/-- R33: the records asked for after the selected one: every other WAITING record whose current route is the call's, in
queue order. -/
def State.companions (s : State) (h : Handle) (route : RouteId) : List Handle :=
  s.handlesWhere fun r => r.handle != h && r.state == .waiting && s.currentRoute r == some route

/-- R33: takes asked for one after another until the list holds `room` more entries; a refused take adds nothing. -/
def State.takeAll (s : State) (e : EngineId) : List Handle → Nat → State × List Handle
  | [], _ => (s, [])
  | _ :: _, 0 => (s, [])
  | h :: hs, room + 1 =>
    match s.takeRecord h e with
    | some s' => ((s'.takeAll e hs room).1, h :: (s'.takeAll e hs room).2)
    | none => s.takeAll e hs (room + 1)

/-- R32: a call handed over is recorded as started after any call in progress, and ends a NO_TRUNK episode. -/
def State.startCall (s : State) (e : EngineId) (work : Work) : State :=
  let s1 := s.modEngine e fun x => { x with phase := .acquire, step := .none, work := work }
  { s1 with dsc := { s1.dsc with startOrder := s1.dsc.startOrder ++ [e], noTrunk := false } }

/-- R51: ACQUIRE ends at once when the trunk was put straight into TAKEN. -/
def State.acquire (s : State) (e : EngineId) (t : TrunkId) : State :=
  if (s.trunk t).state = .taken then s.takenReported e t else s

/-- R32: a call record as DSC fills it in. -/
def newCall (route : RouteId) (t : TrunkId) (blocks : List BlockEntry) (fromOffice : Bool) : CallRecord :=
  { route := route, trunk := t, blocks := blocks, current := 0, tries := 0, preempt := false, fromOffice := fromOffice }

/-- R32, R33: a call built on a granted trunk for the selected record; with every take refused the trunk is handed back. -/
def State.buildCall (s : State) (e : EngineId) (h : Handle) (route : RouteId) (t : TrunkId) (fromOffice : Bool) : State :=
  let took := s.takeAll e (h :: s.companions h route) (s.routeOr route).blocksPerCall
  match took.2 with
  | [] => took.1.releaseTrunk t e
  | hs => (took.1.startCall e (.alertCall (newCall route t (hs.map fun h => ⟨some h, .queued⟩) fromOffice))).acquire e t

/-! ### The walk -/

/-- A selection under way: the state, whether a trunk request has been made (R35), whether an eligible record has been
found (R34), and the records refused a trunk (R38). -/
structure Walk where
  state : State
  requested : Bool
  eligible : Bool
  refused : List Handle

/-- R35: the first request of a selection, refused, raises NO_TRUNK once an episode. -/
def State.noTrunkRaised (s : State) (c : ClassId) : State :=
  if s.dsc.noTrunk then s
  else ({ s with dsc := { s.dsc with noTrunk := true } }).raise (.noTrunk c)

/-- R31: an eligible record's trunk request, refused or granted. -/
def Walk.request (w : Walk) (e : EngineId) (r : Record) (route : RouteId) : Walk :=
  let ce := w.state.classOr r.cls
  match w.state.chooseTrunk ce.preemptMode with
  | none =>
    { state := if w.requested then w.state else w.state.noTrunkRaised r.cls
      requested := true, eligible := true, refused := w.refused ++ [r.handle] }
  | some t =>
    let fromOffice := (w.state.trunk t).state == .officeBusy
    { state := (w.state.grantTrunk t e ce.preemptMode ce.warningTime r.cls).buildCall e r.handle route t fromOffice
      requested := true, eligible := true, refused := w.refused }

/-- R29 to R31: the walk looks at one record for engine `e`. -/
def Walk.look (w : Walk) (e : EngineId) (h : Handle) : Walk :=
  match w.state.placeOnRoute h with
  | none => w
  | some (s, r, route) =>
    if (s.callOn route).isSome then { w with state := s } else { w with state := s }.request e r route

/-- R31: the walk through the queue, which ends when no engine is IDLE. An engine whose new call has failed inside the selection
is IDLE again and serves the rest of the walk: the model's choice (log 7). -/
def Walk.run (w : Walk) : List Handle → Walk
  | [] => w
  | h :: hs =>
    match w.state.firstIdle with
    | none => w
    | some e => (w.look e h).run hs

/-! ### The command slot's turn -/

/-- R151, R155: the held line test is taken: the trunk is granted straight into TAKEN, its result record becomes invalid, its
other fields kept (log 16), and the engine begins. -/
def State.takeLineTest (s : State) (e : EngineId) (t : TrunkId) : State :=
  let s1 := s.setTrunk t { (s.trunk t).enterTaken with holder := some e }
  let s2 := { s1 with cmu := { s1.cmu with
    slot := .running (.lineTest t) e
    results := vput s1.cmu.results t { vget s1.cmu.results t with valid := false } } }
  (s2.modEngine e fun x =>
    { x with phase := .acquire, step := .none, work := .lineTest ⟨t, false, 0, 0⟩ }).acquire e t

/-- R151, R158, R74: the held test call is taken on a trunk granted under the mode NONE. -/
def State.takeTestCall (s : State) (e : EngineId) (route : RouteId) (t : TrunkId) : State :=
  let fromOffice := (s.trunk t).state == .officeBusy
  let s1 := s.grantTrunk t e .none 0 classTest
  let s2 := { s1 with cmu := { s1.cmu with slot := .running (.testCall route) e } }
  (s2.startCall e (.testCall (newCall route t [⟨none, .queued⟩] fromOffice))).acquire e t

/-- R151: the offer of an IDLE engine to the Command Unit. -/
def State.offerSlot (s : State) (e : EngineId) : State :=
  match s.cmu.slot with
  | .held (.lineTest t) _ => if s.lineTestGrantable t then s.takeLineTest e t else s
  | .held (.testCall r) _ =>
    if s.routeValid r && (s.callOn r).isNone then
      match s.chooseTrunk .none with
      | some t => s.takeTestCall e r t
      | none => s
    else s
  | .empty => s
  | .running _ _ => s

/-! ### A selection -/

/-- R28: the conditions that prevent a selection, apart from the engines. -/
def State.mayDispatch (s : State) : Bool := s.dsc.hold.isNone && s.ready && s.inSync

/-- R29 to R35: one selection, with the records it refused a trunk. The walk's list of handles is fixed as the selection starts: a
record admitted inside it (the trunk-fault alert of a new call that fails at its entry to SEIZE, R113) does not stand in the rest
of the walk, unless it has taken a handle freed inside the selection, in whose place it is then looked at: the model's choice
(log 30). -/
def State.select (s : State) : State × List Handle :=
  if s.mayDispatch && s.firstIdle.isSome then
    let w := Walk.run { state := s, requested := false, eligible := false, refused := [] } (s.queue.map Record.handle)
    if w.eligible then (w.state, w.refused)
    else
      match w.state.firstIdle with
      | some e => (w.state.offerSlot e, w.refused)
      | none => (w.state, w.refused)
  else (s, [])

/-! ### Own-call pre-emption -/

/-- R38: the head class of a call: the most urgent class of its entries still to be settled, 6 with none; a test call's
is TEST. An engine with no call has none. -/
def State.headClass (s : State) (e : EngineId) : Option Nat :=
  match (s.engine e).work with
  | .alertCall c =>
    some (((c.blocks.filter BlockEntry.open).filterMap BlockEntry.handle).foldl
      (fun n h => match s.findRecord h with
        | some r => min n r.cls.val
        | none => n) 6)
  | .testCall _ => some classTest.val
  | .lineTest _ => none
  | .nothing => none

/-- R38: whether a class is more urgent than the head class of every call in progress. -/
def State.moreUrgent (s : State) (c : ClassId) : Bool :=
  engineIds.all fun e =>
    match s.headClass e with
    | some n => decide (c.val < n)
    | none => true

/-- R38: the search for an eligible, more urgent record that was not refused a trunk, with the moves it makes. -/
def State.urgentWaits (s : State) (refused : List Handle) : List Handle → State × Bool
  | [] => (s, false)
  | h :: hs =>
    match s.placeOnRoute h with
    | none => s.urgentWaits refused hs
    | some (s', r, route) =>
      if (s'.callOn route).isNone && !refused.contains h && s'.moreUrgent r.cls then (s', true)
      else s'.urgentWaits refused hs

/-- R39: of the calls in the order in which they started, the one with the least urgent head class, the later among
equals. -/
def State.leastUrgent (s : State) : List EngineId → Option (EngineId × Nat)
  | [] => none
  | e :: es =>
    match s.headClass e, s.leastUrgent es with
    | some n, some (e', n') => if n' < n then some (e, n) else some (e', n')
    | some n, none => some (e, n)
    | none, rest => rest

/-- R39: the call is marked pre-empt-pending. -/
def State.markCall (s : State) (e : EngineId) : State :=
  let s1 := s.modEngine e fun x => x.modCall fun c => { c with preempt := true }
  { s1 with dsc := { s1.dsc with marked := some e } }

/-- R38: the pre-emption check. -/
def State.preemptCheck (s : State) (refused : List Handle) : State :=
  if s.mayDispatch && s.firstIdle.isNone && s.dsc.marked.isNone then
    match s.leastUrgent s.dsc.startOrder with
    | none => s
    | some (e, _) =>
      let out := s.urgentWaits refused (s.queue.map Record.handle)
      if out.2 then out.1.markCall e else out.1
  else s

/-- R28, R38: a selection that is due is made, and the pre-emption check after it. -/
def State.selectionStep (s : State) : State :=
  if s.dsc.selectionsDue = 0 then s
  else
    let out := ({ s with dsc := { s.dsc with selectionsDue := s.dsc.selectionsDue - 1 } }).select
    out.1.preemptCheck out.2

/-! ### The hold -/

/-- R42: the end of a dispatch hold that is ON. -/
def State.endHold (s : State) (why : HoldCause) : State :=
  if s.dsc.hold.isSome then (({ s with dsc := { s.dsc with hold := none } }).raise (.holdEnded why)).cause else s

/-- R41: the hold ON for a number of minutes brought within 1..60. -/
def State.setHold (s : State) (minutes : Nat) : State :=
  { s with dsc := { s.dsc with hold := some (ticksOfSeconds (clampTo 1 60 minutes * 60)) } }

end Sys2Proof.Machine
end

