-- ==== Sys2Proof/Machine/Flags.lean ====
section
/-! DEFINITION. The indications and flags the part shows: the idle word (R177, R181), the pending and enabled event kinds
(R165), the sticky channel flags (R172, R179), and the restore of a lost EVENT cell (R167) and STATUS cell (R170). -/

namespace Sys2Proof.Machine

/-- A flag as a bit of this weight. -/
def flagBit (b : Bool) (k : Nat) : Nat := if b then 2 ^ k else 0

/-! ### The idle word -/

/-- R177: whether the inbound queue holds fewer than 4 cells. -/
def State.readyIndication (s : State) : Bool := decide (s.ccp.inbound.length < 4)

/-- R177, R75: the engines that hold an alert call or a test call. -/
def State.callCount (s : State) : Nat := (engineIds.filter fun e => (s.engine e).work.call.isSome).length

def eventKinds : List EventKind := List.finRange 16

/-- R165, R166: a kind that may be taken into an EVENT cell. -/
def EventRecord.due (r : EventRecord) : Bool := r.pending && r.enabled

/-- R165, R177: at least one kind is pending and enabled. -/
def State.eventIndication (s : State) : Bool := eventKinds.any fun k => (vget s.evr.records k).due

/-- R177, R26: at least one FIRE record is in the queue. -/
def State.fireIndication (s : State) : Bool := s.queue.any fun r => r.cls == classFire

/-- R177, R181: the idle word. -/
def State.idleWord (s : State) : Word :=
  BitVec.ofNat 16 (0xFF00 + flagBit s.fireIndication 5 + flagBit s.eventIndication 4 + s.callCount * 4 +
    flagBit s.dsc.hold.isSome 1 + flagBit s.readyIndication 0)

/-! ### Event records and the sticky flags -/

/-- R168: a kind cleared. -/
def EventRecord.clear (r : EventRecord) : EventRecord := { r with pending := false, count := 0 }

/-- R168: the named kinds cleared, and removed from the restore set. -/
def State.clearEvents (s : State) (named : EventKind → Bool) : State :=
  { s with evr :=
    { records := vmap (fun k r => if named k then r.clear else r) s.evr.records
      emission := s.evr.emission.map fun m => { m with restore := m.restore.filter fun k => !named k } } }

/-- R165: every kind's notify enable set as the mask gives. -/
def State.setNotify (s : State) (named : EventKind → Bool) : State :=
  { s with evr := { s.evr with records := vmap (fun k r => { r with enabled := named k }) s.evr.records } }

/-- R166: the snapshot of the pending enabled kinds, in ascending kind. -/
def State.snapshot (s : State) : List SnapEntry :=
  (eventKinds.filter fun k => (vget s.evr.records k).due).map fun k =>
    ⟨k, (vget s.evr.records k).count, (vget s.evr.records k).latest⟩

/-- R166: the snapshot taken: its kinds are cleared and form the restore set. -/
def State.takeSnapshot (s : State) : State :=
  let entries := s.snapshot
  { s with evr :=
    { records := vmap (fun _ r => if r.due then r.clear else r) s.evr.records
      emission := some { entries := entries, restore := entries.map SnapEntry.kind } } }

/-- R167: a kind of a lost cell's restore set: pending, with the snapshot's count added. -/
def EventRecord.restore (r : EventRecord) (n : Nat) : EventRecord :=
  { r with pending := true, count := min (r.count + n) 255 }

/-- R167: a lost EVENT cell's snapshot restored. -/
def Evr.restored (x : Evr) : Evr :=
  match x.emission with
  | none => x
  | some m =>
    { records := (m.entries.filter fun n => m.restore.contains n.kind).foldl
        (fun rs n => vput rs n.kind ((vget rs n.kind).restore n.count)) x.records
      emission := none }

/-- R170: the flags a lost STATUS cell carried are set again. -/
def StickyFlags.join (a b : StickyFlags) : StickyFlags :=
  { badCheck := a.badCheck || b.badCheck, overrun := a.overrun || b.overrun,
    abortedCell := a.abortedCell || b.abortedCell, framing := a.framing || b.framing }

/-- R176, R179: the end of an emission. An answer entry leaves the queue, and INIT's DONE empties both queues and clears
the flags; an EVENT cell's emission record is removed. -/
def State.endEmission (s : State) : State :=
  match s.ccp.emitter with
  | .emitting (.answer _) [] =>
    let done := match s.ccp.answers with
      | a :: _ => a.initDone
      | [] => false
    if done then
      { s with ccp := { s.ccp with answers := [], inbound := [], flags := StickyFlags.clear, initWait := false,
                                   emitter := .idle } }
    else { s with ccp := { s.ccp with answers := s.ccp.answers.tail, emitter := .idle } }
  | .emitting .event [] => { s with ccp := { s.ccp with emitter := .idle }, evr := { s.evr with emission := none } }
  | .emitting _ (_ :: _) => s
  | .idle => s

/-- R178: the loss of frame sync at the channel: a cell that has been sent whole ends its emission, one in emission is
discarded and gives back what it carried, and the assembler hunts. -/
def State.channelLost (s : State) : State :=
  let s1 := s.endEmission
  let hunting := { s1 with ccp := { s1.ccp with assembler := .hunt, emitter := .idle } }
  match s1.ccp.emitter with
  | .emitting (.answer (some f)) _ => { hunting with ccp := { hunting.ccp with flags := hunting.ccp.flags.join f } }
  | .emitting (.answer none) _ => hunting
  | .emitting .event _ => { hunting with evr := hunting.evr.restored }
  | .idle => hunting

end Sys2Proof.Machine
end

