-- ==== Sys2Proof/Machine/Cells.lean ====
section
/-! DEFINITION. The outbound cells (R181, R183): answers and their details, TABLE_DATA, QUEUE_DATA, STATUS and EVENT
bodies, the words of a whole cell, and the replies that owners place in the answer queue (R174, R175). -/

namespace Sys2Proof.Machine

def wordOf (n : Nat) : Word := BitVec.ofNat 16 n

/-! ### Codes (R182, R183) -/

def Result.code : Result → Nat
  | .accepted => 0
  | .acceptedEvicting => 1
  | .coalesced => 2
  | .cancelled => 3
  | .queueFull => 4
  | .clamped => 5
  | .staged => 6
  | .refused => 7
  | .pending => 8
  | .done => 9
  | .slotBusy => 10
  | .tooLate => 11
  | .nothingPending => 12
  | .busy => 13
  | .badArgument => 14
  | .unknownKind => 15

def RefuseReason.code : RefuseReason → Nat
  | .badArgument => 0
  | .unknownReference => 1
  | .duplicateSlot => 2
  | .invalidDialSymbol => 3
  | .emptyRouteList => 4
  | .accountLength => 5

def Qualifier.code : Qualifier → Nat
  | .new => 1
  | .restore => 2
  | .test => 3

def engineCode : EngineId → Nat
  | .e0 => 0
  | .e1 => 1

def CallOutcome.code : CallOutcome → Nat
  | .delivered => 0
  | .noLoop => 1
  | .cardFault => 2
  | .noDialTone => 3
  | .lineLost => 4
  | .busy => 5
  | .congestion => 6
  | .noAnswer => 7
  | .noAck => 8
  | .farCleared => 9
  | .preempted => 10
  | .aborted => 11

def TestCode.code : TestCode → Nat
  | .pass => 0
  | .passReversed => 1
  | .lowTone => 2
  | .noLoop => 3
  | .cardFault => 4
  | .noDialTone => 5
  | .aborted => 6

def FaultCause.code : FaultCause → Nat
  | .count => 0
  | .card => 1
  | .test => 2

def HoldCause.code : HoldCause → Nat
  | .resume => 0
  | .expired => 1
  | .init => 2

def TrunkState.code : TrunkState → Nat
  | .unmanaged => 0
  | .idleOffice => 1
  | .officeBusy => 2
  | .idleReserved => 3
  | .warning => 4
  | .taken => 5
  | .cooldown => 6

def Phase.code : Phase → Nat
  | .idle => 0
  | .acquire => 1
  | .clear => 2
  | .seize => 3
  | .dialTone => 4
  | .dialing => 5
  | .awaitAnswer => 6
  | .sendBlock => 7
  | .awaitAck => 8
  | .closing => 9

/-- R182: the command code and the argument of a slot command. -/
def SlotCommand.code : SlotCommand → Nat
  | .lineTest _ => 1
  | .testCall _ => 2

def SlotCommand.argument : SlotCommand → Nat
  | .lineTest t => t.val
  | .testCall r => r.val

/-- R182: the addressing word of an entry. -/
def TableRef.address : TableRef → Nat
  | .site => 0
  | .cls c => 256 + c.val
  | .route r => 512 + r.val
  | .trunk t => 768 + t.val
  | .tone t => 1024 + t.val
  | .cadence c => 1280 + c.val

/-! ### Answers -/

/-- R183: the key words K1 and K2. -/
def Key.words (k : Key) : List Word :=
  [wordOf (k.source * 1024 + k.zone), wordOf (k.qualifier.code * 1024 + k.event)]

/-- R183: the three mask words of a list of clamped fields. -/
def maskWords (clamped : List Nat) : List Word :=
  (List.range 3).map fun j => wordOf ((((List.range 16).filter fun k => clamped.contains (16 * j + k)).map (2 ^ ·)).sum)

/-- R183: an ANSWER's body. The bits of word 1 that the layout does not name are 0 (log 11). -/
def answerBody (echo : Nat) (result : Result) (detail : List Word) : List Word :=
  wordOf (echo * 256 + result.code) :: detail

/-- R174: the owner's reply to the cell in hand becomes one entry at the tail of the answer queue, with the cell's tag. -/
def State.replyWith (s : State) (content : AnswerContent) (initDone : Bool) : State :=
  match s.ccp.inHand with
  | some c =>
    { s with ccp := { s.ccp with answers := s.ccp.answers ++ [⟨c.tag, content, initDone⟩], inHand := none } }
  | none => s

/-- R174, R183: the reply is an ANSWER that echoes the cell's kind. -/
def State.answer (s : State) (result : Result) (detail : List Word) : State :=
  match s.ccp.inHand with
  | some c => s.replyWith (.answer c.kind result detail) false
  | none => s

/-- R183: REFUSED with its reason. -/
def State.refuse (s : State) (reason : RefuseReason) : State := s.answer .refused [wordOf reason.code]

/-! ### TABLE_DATA (R146, R183) -/

/-- R182: a 16-bit field in two words. -/
def words16 (n : Nat) : List Word := [wordOf (n / 256 % 256), wordOf (n % 256)]

/-- R182: symbols packed three to a word into `n` words; positions beyond the list are 0 (log 10). -/
def packSymbols (n : Nat) (symbols : List Nat) : List Word :=
  (List.range n).map fun j =>
    wordOf (symbols.getD (3 * j) 0 * 256 + symbols.getD (3 * j + 1) 0 * 16 + symbols.getD (3 * j + 2) 0)

def PreemptMode.code : PreemptMode → Nat
  | .none => 0
  | .afterWarning => 1
  | .immediate => 2

def TrunkRole.code : TrunkRole → Nat
  | .unused => 0
  | .shared => 1
  | .reserved => 2
  | .office => 3

def DialToneMode.code : DialToneMode → Nat
  | .wait => 0
  | .blind => 1

def DialSymbol.code : DialSymbol → Nat
  | .tone v => v.val
  | .pause => 12
  | .wait => 13

def SiteRecord.words (x : SiteRecord) : List Word :=
  [wordOf x.account.length] ++ packSymbols 3 (x.account.map Fin.val) ++
    [wordOf x.dialTone.val, wordOf x.busyTone.val, wordOf x.reorderTone.val, wordOf x.symbolOn, wordOf x.symbolOff,
      wordOf x.generatorLevel] ++ words16 x.silenceFloor ++
    [wordOf x.loopTimeout, wordOf x.loopLossTime, wordOf x.releaseGuard, wordOf x.warningFrequency,
      wordOf x.warningOn, wordOf x.warningOff, wordOf x.periodicInterval, wordOf x.periodicEvent,
      wordOf x.silenceTime, wordOf x.silenceEvent, wordOf x.lineFaultEvent] ++ words16 x.goodLevel

def ClassEntry.words (x : ClassEntry) : List Word :=
  [wordOf x.routes.length] ++ (List.range 4).map (fun i => wordOf ((x.routes[i]?).elim 0 Fin.val)) ++
    [wordOf x.preemptMode.code, wordOf x.warningTime, wordOf x.cancelWindow, wordOf x.backoffBase,
      wordOf x.backoffCap, wordOf x.maxCycles, wordOf x.classSymbol.val]

def RouteEntry.words (x : RouteEntry) : List Word :=
  [wordOf (if x.valid then 1 else 0), wordOf x.dial.length] ++ packSymbols 8 (x.dial.map DialSymbol.code) ++
    [wordOf x.handshakeTone.val, wordOf x.ackTone.val, wordOf x.blocksPerCall, wordOf x.blockTries,
      wordOf x.fallbackAfter, wordOf x.dialToneMode.code, wordOf x.answerTimeout, wordOf x.ackTimeout]

def TrunkEntry.words (x : TrunkEntry) : List Word := [wordOf x.role.code, wordOf x.slot]

def Component.words (x : Component) : List Word :=
  words16 (BitVec.ofInt 16 x.coefficient).toNat ++ words16 x.threshold ++ [wordOf x.ratio]

def ToneEntry.words (x : ToneEntry) : List Word :=
  [wordOf x.components] ++ x.first.words ++ x.second.words ++ [wordOf x.cadence.val]

def CadenceEntry.words (x : CadenceEntry) : List Word :=
  [wordOf x.onMin, wordOf x.onMax, wordOf x.offMin, wordOf x.offMax, wordOf x.cyclesRequired]

/-- R146: the applied contents of an entry in the write layout, if it is loaded. -/
def Tables.entryWords (x : Tables) : TableRef → Option (List Word)
  | .site => x.site.map SiteRecord.words
  | .cls c => (vget x.classes c).map ClassEntry.words
  | .route r => (vget x.routes r).applied.map RouteEntry.words
  | .trunk t => (vget x.trunks t).applied.map TrunkEntry.words
  | .tone t => (vget x.tones t).applied.map ToneEntry.words
  | .cadence c => (vget x.cadences c).applied.map CadenceEntry.words

/-- R182: the number of body words after the addressing word in a write of an entry. -/
def TableRef.entryLength : TableRef → Nat
  | .site => 25
  | .cls _ => 12
  | .route _ => 18
  | .trunk _ => 2
  | .tone _ => 12
  | .cadence _ => 5

/-- R146, R183: a TABLE_DATA body. -/
def Tables.tableBody (x : Tables) (ref : TableRef) : List Word :=
  let entry := x.entryWords ref
  wordOf (flagBit entry.isSome 15 + flagBit (x.stagedWrite ref).isSome 14 + ref.address) ::
    entry.getD (List.replicate ref.entryLength 0)

/-! ### QUEUE_DATA (R26, R183) -/

def RecordState.code : RecordState → Nat
  | .waiting => 0
  | .inCall _ => 1
  | .held _ _ => 2
  | .stranded => 3

/-- R183: the call binding's code. -/
def RecordState.binding : RecordState → Nat
  | .inCall e => engineCode e + 1
  | _ => 0

/-- R183: the backoff remaining, 0 when absent. -/
def RecordState.backoff : RecordState → Nat
  | .held n _ => n
  | _ => 0

/-- R183: a record's head: handle, class and state. -/
def Record.head (r : Record) : Nat := r.handle.val * 2048 + r.cls.val * 256 + r.state.code * 64

/-- R183: the six words of a single record. The bits that the layout does not name are 0 (log 11). -/
def Record.words (r : Record) : List Word :=
  [wordOf (r.head + flagBit r.isProtected 5 + r.state.binding)] ++ r.key.words ++
    [wordOf (r.failures * 4096 + r.routePos * 1024 + r.routeFailures * 128 + r.cycles * 16 + r.repeats),
      wordOf r.state.backoff, wordOf r.age]

/-- R26, R183: the summary. The bits that the layout does not name are 0 (log 11). -/
def State.summaryBody (s : State) : List Word := wordOf 1 :: s.queue.map fun r => wordOf r.head

/-! ### STATUS (R169, R183) -/

/-- R41: the minutes left of a hold, rounded up. -/
def holdMinutes : Option Nat → Nat
  | some n => (n + 5999) / 6000
  | none => 0

/-- R183: an engine's word; the fields of what it does not hold are 0 (log 11). -/
def Engine.statusWord (x : Engine) : Word :=
  let work := match x.work with
    | .nothing => 0
    | .alertCall c => 1024 + c.route.val * 16 + c.trunk.val
    | .testCall c => 2048 + c.route.val * 16 + c.trunk.val
    | .lineTest r => 3072 + r.trunk.val
  wordOf (x.phase.code * 4096 + work)

/-- R183: the command slot's word; the fields of a slot that holds no command, and the engine of a HELD one, are 0 (log 11). -/
def CommandSlot.statusWord : CommandSlot → Word
  | .empty => 0
  | .held c _ => wordOf (16384 + c.code * 256 + c.argument * 16)
  | .running c e => wordOf (32768 + c.code * 256 + c.argument * 16 + engineCode e)

/-- The number of records in a state of this code (R26). -/
def State.countState (s : State) (code : Nat) : Nat := (s.queue.filter fun r => r.state.code == code).length

/-- R183: a trunk's four words. The code, loop delay and peak are those its result record holds, valid or not (log 16). -/
def Trunk.statusWords (x : Trunk) (r : TestResult) : List Word :=
  [wordOf (x.state.code * 4096 + flagBit x.barred 11 + flagBit x.faulted 10 + x.failures * 256 + flagBit r.valid 7 +
      r.code.code * 16),
    wordOf r.loopDelay, wordOf (r.peak / 65536), wordOf (r.peak % 65536)]

/-- A mask word of the sixteen event kinds. -/
def Evr.mask (x : Evr) (f : EventRecord → Bool) : Word :=
  wordOf ((eventKinds.map fun k => flagBit (f (vget x.records k)) k.val).sum)

/-- R169, R183: the 40 words of a STATUS body. The bits that the layout does not name are 0 (log 11). -/
def State.statusBody (s : State) : List Word :=
  [wordOf (flagBit s.ready 15 + flagBit s.dsc.hold.isSome 14 + holdMinutes s.dsc.hold * 256 + flagBit s.cmu.silent 4 +
      flagBit s.ccp.flags.badCheck 3 + flagBit s.ccp.flags.overrun 2 + flagBit s.ccp.flags.abortedCell 1 +
      flagBit s.ccp.flags.framing 0),
    s.engines.e0.statusWord, s.engines.e1.statusWord, s.cmu.slot.statusWord,
    wordOf (s.countState 0 * 256 + s.countState 1), wordOf (s.countState 2 * 256 + s.countState 3)] ++
    (List.finRange 8).flatMap (fun t => (s.trunk t).statusWords (vget s.cmu.results t)) ++
    [s.evr.mask EventRecord.pending, s.evr.mask EventRecord.enabled]

/-! ### EVENT (R166, R183) -/

/-- R183: the detail words of an occurrence. The bits that the layout does not name are 0 (log 11). -/
def Detail.words : Detail → List Word
  | .delivered h k r => wordOf (r.val * 256 + h.val) :: k.words
  | .callFailed r t c => [wordOf (r.val * 256 + t.val * 16 + c.code)]
  | .fallback h a b => [wordOf (b.val * 4096 + a.val * 256 + h.val)]
  | .stranded h k => wordOf h.val :: k.words
  | .evicted h k => wordOf h.val :: k.words
  | .trunkFault t c => [wordOf (t.val * 16 + c.code)]
  | .trunkCleared t => [wordOf (t.val * 16)]
  | .officePreempted t c => [wordOf (t.val * 16 + c.val)]
  | .lineTestDone t c p d => [wordOf (t.val * 4096 + c.code * 256 + d), wordOf (p / 65536), wordOf (p % 65536)]
  | .testCallDone r c => [wordOf (r.val * 256 + c.code)]
  | .commandExpired c => [wordOf (c.argument * 16 + c.code)]
  | .stationSilent on => [wordOf (if on then 1 else 0)]
  | .tableApplied ref => [wordOf ref.address]
  | .holdEnded c => [wordOf c.code]
  | .noTrunk c => [wordOf c.val]
  | .highway restored => [wordOf (if restored then 1 else 0)]

/-- R183: an entry of an EVENT body. Bits 3-0 of its head, which the layout does not name, are 0 (log 11). -/
def SnapEntry.words (n : SnapEntry) : List Word := wordOf (n.kind.val * 4096 + n.count * 16) :: n.latest.elim [] Detail.words

/-! ### Whole cells -/

/-- R173, R176, R181: the words of an outbound cell. -/
def cellWords (kind tag : Nat) (body : List Word) : List Word :=
  headerWord kind tag body.length :: body ++ [checkWord (headerWord kind tag body.length) body]

/-- R175, R183: the words of an answer-queue entry, a pending data cell's contents formed from the state as it stands. -/
def State.entryCell (s : State) (a : AnswerEntry) : List Word :=
  match a.content with
  | .answer echo result detail => cellWords 9 a.tag (answerBody echo result detail)
  | .tableData ref => cellWords 10 a.tag (s.tables.tableBody ref)
  | .queueRecord h =>
    match s.findRecord h with
    | some r => cellWords 11 a.tag (wordOf 0 :: r.words)
    | none => cellWords 9 a.tag (answerBody 8 .refused [wordOf RefuseReason.badArgument.code])
  | .queueSummary => cellWords 11 a.tag s.summaryBody
  | .status => cellWords 12 a.tag s.statusBody

/-- R176: the head answer-queue entry begins to be emitted; a STATUS cell takes the sticky flags (R170). -/
def State.startAnswer (s : State) : State :=
  match s.ccp.emitter, s.ccp.answers with
  | .idle, a :: _ =>
    if s.inSync then
      match a.content with
      | .status =>
        { s with ccp := { s.ccp with emitter := .emitting (.answer (some s.ccp.flags)) (s.entryCell a),
                                     flags := StickyFlags.clear } }
      | _ => { s with ccp := { s.ccp with emitter := .emitting (.answer none) (s.entryCell a) } }
    else s
  | _, _ => s

/-- R166: an EVENT cell begins with the snapshot taken at that moment, when no answer waits. -/
def State.startEvent (s : State) : State :=
  match s.ccp.emitter, s.ccp.answers with
  | .idle, [] =>
    if s.inSync && s.eventIndication then
      let s1 := s.takeSnapshot
      { s1 with ccp := { s1.ccp with emitter := .emitting .event (cellWords 13 0 (s.snapshot.flatMap SnapEntry.words)) } }
    else s
  | _, _ => s

/-! ### Taking a cell (R174) -/

/-- R174: the head inbound cell is taken and handed to its owner when no cell is in hand, the answer queue has room and no
INIT awaits its DONE; a cell whose body length does not fit its kind is answered at once. -/
def State.takeCell (s : State) : State :=
  match s.ccp.inbound with
  | [] => s
  | c :: rest =>
    if s.ccp.inHand.isNone && decide (s.ccp.answers.length < 4) && !s.ccp.initWait then
      let s1 := { s with ccp := { s.ccp with inbound := rest, inHand := some c } }
      if c.lengthOk then s1 else s1.answer .badArgument []
    else s

/-- The cell in hand, if it is of this kind. -/
def State.held (s : State) (kind : Nat) : Option InCell :=
  match s.ccp.inHand with
  | some c => if c.kind = kind then some c else none
  | none => none

/-- The COMMAND cell in hand, if it carries this command code (R182). -/
def State.heldCommand (s : State) (code : Nat) : Option InCell :=
  match s.held 5 with
  | some c => if c.code = code then some c else none
  | none => none

/-- A command's step: what its owner makes of the COMMAND cell in hand, if that carries this code. -/
def State.onCommand (s : State) (code : Nat) (f : State → InCell → State) : State :=
  match s.heldCommand code with
  | some c => f s c
  | none => s

/-- The step of an owner of a kind: what it makes of the cell in hand, if that is of the kind. -/
def State.onCell (s : State) (kind : Nat) (f : State → InCell → State) : State :=
  match s.held kind with
  | some c => f s c
  | none => s

end Sys2Proof.Machine
end

