-- ==== Sys2Proof/Machine/ChannelCommands.lean ====
section
/-! DEFINITION. The meanings of the emitter's steps (R166, R167, R175, R176, R179). -/

namespace Sys2Proof.Machine

/-- ANSWER_EMISSION_START (R176). -/
def execAnswerEmissionStart (s : State) : Host.Outcome State Fault Refusal := running State.startAnswer s

/-- EVENT_CELL_START (R166). -/
def execEventCellStart (s : State) : Host.Outcome State Fault Refusal := running State.startEvent s

/-- EMISSION_END (R176). -/
def execEmissionEnd (s : State) : Host.Outcome State Fault Refusal := running State.endEmission s

end Sys2Proof.Machine
end

