-- ==== Sys2Proof/Machine/ReportCommands.lean ====
section
/-! DEFINITION. The meanings of the reports an engine takes from its detector (R56, R57, R62, R63, R68, R156): a MATCHED or
ABSENT names a tone entry, and the engine acts on it when that entry belongs to its current step. -/

namespace Sys2Proof.Machine

/-- The role in which the engine's current step names a tone entry: the first of its row (R56). -/
def Engine.roleOf (x : Engine) (tone : ToneId) : Option ToneRole := (x.listening.find? fun p => p.2 == tone).map Prod.fst

/-- A report handed to the engine is taken. -/
def State.dropReport (s : State) (e : EngineId) (r : Report) : State :=
  s.modEngine e fun x => { x with reports := x.reports.erase r }

/-- R56: the engine takes a MATCHED naming an entry. It acts on it when the entry belongs to its current step and `here`
says that the step is one of this row's; an entry of no role of the step is discarded. -/
def State.onMatched (s : State) (e : EngineId) (tone : ToneId) (here : Engine → Bool)
    (act : State → ToneRole → State) : State :=
  let x := s.engine e
  if x.acts && x.reports.contains (.matched tone) then
    match x.roleOf tone with
    | none => s.dropReport e (.matched tone)
    | some role => if here x then act (s.dropReport e (.matched tone)) role else s
  else s

/-- R79, R80: the engine keeps the loading of one entry and releases the others. -/
def State.keepOnly (s : State) (e : EngineId) (role : ToneRole) (tone : ToneId) : State :=
  (s.modEngine e fun x => { x with listening := [(role, tone)] }).unload e fun l => l.tone != tone

/-- R93: the absence watch of the loading kept is set. -/
def Loading.watchAbsence (l : Loading) : Loading := { l with absence := some 0 }

/-- R94: the level watch is set. -/
def Loading.watchLevel (l : Loading) : Loading := { l with levelWatch := true }

/-! ### DIALTONE -/

/-- R57: dial tone matched: the trunk's count is cleared and DIALING begins at the dial position. -/
def State.dialToneHeard (s : State) (e : EngineId) (c : CallRecord) : State :=
  ((s.clearLineFailures c.trunk).stopListening e).dialNext e c.route

/-- R57: MATCHED in DIALTONE, LISTEN, of a call. -/
def State.dialToneMatched (s : State) (e : EngineId) (role : ToneRole) : State :=
  match (s.engine e).work.call, role with
  | some c, .dialTone => s.dialToneHeard e c
  | some _, .reorder => s.failCall e .noDialTone
  | _, _ => s

/-- DIAL_TONE_MATCHED_TAKEN. -/
def execDialToneMatchedTaken (e : EngineId) (tone : ToneId) (s : State) : Host.Outcome State Fault Refusal :=
  running (fun s => s.onMatched e tone
    (fun x => x.phase == .dialTone && x.step == .listen && !x.work.isLineTest)
    fun s' role => s'.dialToneMatched e role) s

/-! ### AWAIT_ANSWER -/

/-- R63: the handshake matched: the polarity reference is taken, busy and reorder are unloaded, the handshake is kept with
its absence watch set, and the answer timeout runs on. -/
def State.handshakeHeard (s : State) (e : EngineId) (tone : ToneId) (t : TrunkId) : State :=
  (s.keepOnly e .handshake tone).modEngine e fun x =>
    { x with step := .toneHeard, polRef := some (s.debounced t .v), detector := x.detector.watch tone Loading.watchAbsence }

/-- R62: MATCHED in AWAIT_ANSWER; in TONE_HEARD a further one leaves the step as it is (R93). -/
def State.answerMatched (s : State) (e : EngineId) (tone : ToneId) (role : ToneRole) : State :=
  if (s.engine e).step = .listen then
    match (s.engine e).work.trunk, role with
    | some _, .busy => s.failCall e .busy
    | some _, .reorder => s.failCall e .congestion
    | some t, .handshake => s.handshakeHeard e tone t
    | _, _ => s
  else s

/-- ANSWER_MATCHED_TAKEN. -/
def execAnswerMatchedTaken (e : EngineId) (tone : ToneId) (s : State) : Host.Outcome State Fault Refusal :=
  running (fun s => s.onMatched e tone (fun x => x.phase == .awaitAnswer)
    fun s' role => s'.answerMatched e tone role) s

/-! ### AWAIT_ACK -/

/-- R44: the current entry is ACKED and its record delivered. -/
def State.ackBlock (s : State) (e : EngineId) (c : CallRecord) : State :=
  let s1 := s.modEngine e fun x =>
    x.modCall fun c => { c with blocks := c.blocks.modify c.current fun b => { b with state := .acked } }
  match (c.blocks[c.current]?).bind BlockEntry.handle with
  | some h => s1.deliverRecord h c.route
  | none => s1

/-- R68: the acknowledgement matched in LISTEN: the timer is cancelled, the block delivered, the pre-emption check made
(R38, R44), and the engine closes if its call is marked, or waits for the tone's end. -/
def State.ackHeard (s : State) (e : EngineId) (tone : ToneId) (c : CallRecord) : State :=
  let s1 := ((s.modEngine e fun x => { x with phaseTimer := none }).ackBlock e c).preemptCheck []
  if (s1.engine e).marked then s1.preemptStop e
  else s1.modEngine e fun x =>
    { x with step := .toneHeard, phaseTimer := some (ticksOfTenths (s1.routeOr c.route).ackTimeout),
             detector := x.detector.watch tone Loading.watchAbsence }

/-- R68: MATCHED in AWAIT_ACK; in TONE_HEARD a further one leaves the step as it is (R93). -/
def State.ackMatched (s : State) (e : EngineId) (tone : ToneId) : State :=
  if (s.engine e).step = .listen then
    match (s.engine e).work.call with
    | some c => s.ackHeard e tone c
    | none => s
  else s

/-- ACK_MATCHED_TAKEN. -/
def execAckMatchedTaken (e : EngineId) (tone : ToneId) (s : State) : Host.Outcome State Fault Refusal :=
  running (fun s => s.onMatched e tone (fun x => x.phase == .awaitAck) fun s' _ => s'.ackMatched e tone) s

/-! ### The line test's dial tone -/

/-- R156: dial tone matched in a line test: the trunk's count is cleared and the level window begins. -/
def State.testToneHeard (s : State) (e : EngineId) (tone : ToneId) (t : TrunkId) : State :=
  (s.clearLineFailures t).modEngine e fun x =>
    { x with step := .toneHeard, phaseTimer := some levelWindowTicks, work := x.work.mapTest fun r => { r with peak := 0 },
             detector := x.detector.watch tone Loading.watchLevel }

/-- R156: MATCHED in DIALTONE of a line test. -/
def State.testToneMatched (s : State) (e : EngineId) (tone : ToneId) : State :=
  if (s.engine e).step = .listen then
    match (s.engine e).work.trunk with
    | some t => s.testToneHeard e tone t
    | none => s
  else s

/-- LINE_TEST_TONE_MATCHED. -/
def execLineTestToneMatched (e : EngineId) (tone : ToneId) (s : State) : Host.Outcome State Fault Refusal :=
  running (fun s => s.onMatched e tone (fun x => x.phase == .dialTone && x.work.isLineTest)
    fun s' _ => s'.testToneMatched e tone) s

/-! ### ABSENT and LEVEL -/

/-- R63, R68: the tone heard has stopped: its entry is unloaded and the 250 ms guard begins. -/
def State.toneStopped (s : State) (e : EngineId) : State :=
  if (s.engine e).step = .toneHeard && ((s.engine e).phase = .awaitAnswer || (s.engine e).phase = .awaitAck) then
    s.enterGuard e .guard
  else s

/-- R56: the engine takes an ABSENT. -/
def State.absentTaken (e : EngineId) (tone : ToneId) (s : State) : State :=
  let x := s.engine e
  if x.acts && x.reports.contains (.absent tone) then (s.dropReport e (.absent tone)).toneStopped e else s

/-- ABSENT_TAKEN. -/
def execAbsentTaken (e : EngineId) (tone : ToneId) (s : State) : Host.Outcome State Fault Refusal :=
  running (State.absentTaken e tone) s

/-- The oldest LEVEL report not taken, with its band energy. R86 gives no order among LEVEL reports of successive frames that
wait together; that the oldest is taken first is the model's choice (log 29). -/
def oldestLevel : List Report → Option (Report × Nat)
  | [] => none
  | .level t n :: _ => some (.level t n, n)
  | .matched _ :: rs => oldestLevel rs
  | .absent _ :: rs => oldestLevel rs

/-- R156: the engine takes a LEVEL, of several that wait the oldest (log 29): the peak becomes the report's energy if that is
greater. -/
def State.levelTaken (e : EngineId) (s : State) : State :=
  let x := s.engine e
  match oldestLevel x.reports with
  | some (r, n) =>
    if x.acts then
      (s.dropReport e r).modEngine e fun x => { x with work := x.work.mapTest fun w => { w with peak := max w.peak n } }
    else s
  | none => s

/-- LEVEL_TAKEN. -/
def execLevelTaken (e : EngineId) (s : State) : Host.Outcome State Fault Refusal := running (State.levelTaken e) s

end Sys2Proof.Machine
end

