-- ==== Sys2Proof/Machine/EngineCommands.lean ====
section
/-! DEFINITION. The meanings of the engine timers' expiries and of the ends of symbols (R52 to R69, R155, R156), of the
pre-empt mark an engine takes (R71) and of the abort it takes (R72). -/

namespace Sys2Proof.Machine

/-- A step of an engine whose phase timer has run out in the phase and step `here` names. -/
def State.onTimer (s : State) (e : EngineId) (here : Engine → Bool) (act : State → State) : State :=
  let x := s.engine e
  if x.acts && timerDue x.phaseTimer && here x then act s else s

/-- R52: the release guard of CLEAR ends: SEIZE. -/
def State.clearEnd (s : State) (e : EngineId) : State :=
  match (s.engine e).work.trunk with
  | some t => s.enterSeize e t
  | none => s

/-- RELEASE_GUARD_EXPIRY. -/
def execReleaseGuardExpiry (e : EngineId) (s : State) : Host.Outcome State Fault Refusal :=
  running (fun s => s.onTimer e (fun x => x.phase == .clear) fun s' => s'.clearEnd e) s

/-- LOOP_TIMEOUT_EXPIRY (R53, R155). -/
def execLoopTimeoutExpiry (e : EngineId) (s : State) : Host.Outcome State Fault Refusal :=
  running (fun s => s.onTimer e (fun x => x.phase == .seize) fun s' => s'.failWork e .noLoop .noLoop) s

/-- DIAL_TONE_TIMEOUT (R57, R156). -/
def execDialToneTimeout (e : EngineId) (s : State) : Host.Outcome State Fault Refusal :=
  running (fun s => s.onTimer e (fun x => x.phase == .dialTone && x.step == .listen)
    fun s' => s'.failWork e .noDialTone .noDialTone) s

/-- R58: the blind wait ends: DIALING at dial position 0. -/
def State.blindEnd (s : State) (e : EngineId) : State :=
  match (s.engine e).work.call with
  | some c => (s.modEngine e fun x => { x with dialPos := 0 }).dialNext e c.route
  | none => s

/-- BLIND_WAIT_EXPIRY. -/
def execBlindWaitExpiry (e : EngineId) (s : State) : Host.Outcome State Fault Refusal :=
  running (fun s => s.onTimer e (fun x => x.phase == .dialTone && x.step == .blind) fun s' => s'.blindEnd e) s

/-- R59, R67: a symbol or a pause has ended: the next of the dial string, or of the block, or AWAIT_ACK after the last. -/
def State.symbolDone (s : State) (e : EngineId) (c : CallRecord) : State :=
  match (s.engine e).phase with
  | .dialing => (s.modEngine e fun x => { x with dialPos := x.dialPos + 1, generator := Generator.silent }).dialNext e c.route
  | .sendBlock =>
    match (s.engine e).sending with
    | v :: rest => s.modEngine e fun x => { x with sending := rest, generator := Generator.start s.siteOr v }
    | [] => s.enterAwaitAck e c.route
  | _ => s

/-- R61: the generator's report at the end of a symbol's OFF part, or of a pause. -/
def State.symbolEnd (e : EngineId) (s : State) : State :=
  let x := s.engine e
  match x.work.call with
  | some c => if x.acts && x.generator.ended then s.symbolDone e c else s
  | none => s

/-- SYMBOL_END. -/
def execSymbolEnd (e : EngineId) (s : State) : Host.Outcome State Fault Refusal := running (State.symbolEnd e) s

/-- ANSWER_TIMEOUT (R62, R63). -/
def execAnswerTimeout (e : EngineId) (s : State) : Host.Outcome State Fault Refusal :=
  running (fun s => s.onTimer e
    (fun x => x.phase == .awaitAnswer && (x.step == .listen || x.step == .toneHeard))
    fun s' => s'.failCall e .noAnswer) s

/-- R68: a call whose blocks are all acknowledged ends. -/
def State.finishCall (s : State) (e : EngineId) : State :=
  let s1 := s.stopEngine e
  match (s1.engine e).work with
  | .testCall c => (s1.testOutcome c .delivered).close e
  | _ => s1.close e

/-- R68: the guard after an acknowledged block ends: the next entry is sent if it is QUEUED, and otherwise the call ends. -/
def State.nextBlock (s : State) (e : EngineId) (c : CallRecord) : State :=
  match c.blocks[c.current + 1]? with
  | some b =>
    if b.state = .queued then
      (s.modEngine e fun x => x.modCall fun c => { c with current := c.current + 1, tries := 0 }).startSending e
    else s.finishCall e
  | none => s.finishCall e

/-- R63, R68: the end of the 250 ms guard. -/
def State.guardDone (s : State) (e : EngineId) : State :=
  match (s.engine e).phase, (s.engine e).work.call with
  | .awaitAnswer, some _ => s.startSending e
  | .awaitAck, some c => s.nextBlock e c
  | _, _ => s

/-- GUARD_END. -/
def execGuardEnd (e : EngineId) (s : State) : Host.Outcome State Fault Refusal :=
  running (fun s => s.onTimer e (fun x => x.step == .guard) fun s' => s'.guardDone e) s

/-- R69: the ack timeout in LISTEN: the entry is unloaded, and the call stops if marked, resends after a guard, or fails
NO_ACK at its last try. -/
def State.ackTimedOut (s : State) (e : EngineId) : State :=
  match (s.engine e).work.call with
  | some c =>
    let s1 := s.stopListening e
    if c.preempt then s1.preemptStop e
    else if c.tries < (s1.routeOr c.route).blockTries then s1.enterGuard e .resendGuard
    else s1.failCall e .noAck
  | none => s

/-- ACK_TIMEOUT. -/
def execAckTimeout (e : EngineId) (s : State) : Host.Outcome State Fault Refusal :=
  running (fun s => s.onTimer e (fun x => x.phase == .awaitAck && x.step == .listen) fun s' => s'.ackTimedOut e) s

/-- ACK_TONE_HEARD_TIMEOUT (R68). -/
def execAckToneHeardTimeout (e : EngineId) (s : State) : Host.Outcome State Fault Refusal :=
  running (fun s => s.onTimer e (fun x => x.phase == .awaitAck && x.step == .toneHeard)
    fun s' => s'.enterGuard e .guard) s

/-- RESEND_GUARD_END (R69). -/
def execResendGuardEnd (e : EngineId) (s : State) : Host.Outcome State Fault Refusal :=
  running (fun s => s.onTimer e (fun x => x.step == .resendGuard) fun s' => s'.startSending e) s

/-- R54, R155: the loop-loss timer of a supervised engine runs out. -/
def State.loopLossEnd (e : EngineId) (s : State) : State :=
  let x := s.engine e
  if x.acts && timerDue x.lossTimer && x.phase.supervised then s.failWork e .lineLost .noLoop else s

/-- LOOP_LOSS_EXPIRY. -/
def execLoopLossExpiry (e : EngineId) (s : State) : Host.Outcome State Fault Refusal := running (State.loopLossEnd e) s

/-- R156: the code of a measured peak. -/
def peakCode (peak goodLevel : Nat) (reversed : Bool) : TestCode :=
  if peak < goodLevel * 256 then .lowTone else if reversed then .passReversed else .pass

/-- R156: the level window ends: the entry is unloaded and the peak compared with the good level. -/
def State.levelWindowEnd (s : State) (e : EngineId) : State :=
  match (s.engine e).work with
  | .lineTest r =>
    let s1 := s.stopListening e
    s1.endLineTest e (peakCode r.peak s1.siteOr.goodLevel r.polarity)
  | _ => s

/-- LEVEL_WINDOW_EXPIRY. -/
def execLevelWindowExpiry (e : EngineId) (s : State) : Host.Outcome State Fault Refusal :=
  running (fun s => s.onTimer e (fun x => x.phase == .dialTone && x.step == .toneHeard) fun s' => s'.levelWindowEnd e) s

/-- R72: the engine takes the abort posted to it. -/
def State.abortTaken (e : EngineId) (s : State) : State := if (s.engine e).abort.isSome then s.abortEngine e else s

/-- ENGINE_ABORT. -/
def execEngineAbort (e : EngineId) (s : State) : Host.Outcome State Fault Refusal := running (State.abortTaken e) s

/-- R71: whether a mark taken now stops the call at once. -/
def Engine.safePoint (x : Engine) : Bool :=
  match x.phase with
  | .acquire => true
  | .clear => true
  | .seize => true
  | .dialTone => true
  | .dialing => true
  | .awaitAnswer => true
  | .awaitAck => x.step == .toneHeard || x.step == .guard || x.step == .resendGuard
  | _ => false

/-- R71: the engine takes the mark its call carries. -/
def State.markTaken (e : EngineId) (s : State) : State :=
  let x := s.engine e
  if x.acts && x.marked && x.safePoint then s.preemptStop e else s

/-- PREEMPT_MARK_TAKEN. -/
def execPreemptMarkTaken (e : EngineId) (s : State) : Host.Outcome State Fault Refusal := running (State.markTaken e) s

end Sys2Proof.Machine
end

