-- ==== Sys2Proof/Machine/Detector.lean ====
section
/-! DEFINITION. The tone detector (chapter 04): samples and the recurrence of a bin (R78, R81), band energy and total
energy (R82, R83), presence (R84, R85), the cadence classifier (R87 to R92), the absence and level watches (R93, R94),
the frame-end evaluation (R86) and the boundary (R79, R80). -/

namespace Sys2Proof.Machine

/-! ### Samples -/

/-- R78: a 16-bit two's-complement sample shifted right by 4 places, rounding toward minus infinity. -/
def scaleSample (w : Word) : Int := w.toInt / 16

/-- The limit of a bin's recurrence (R81). -/
def binLimit : Int := 8388607

/-- A value brought within -`limit`..`limit` (chapter 00: clamp). -/
def clampInt (limit x : Int) : Int := max (-limit) (min limit x)

/-- R81: one step of a bin tuned by coefficient `c`: v = x + floor(c v1 / 16384) - v2, clamped. -/
def Bin.sample (c x : Int) (b : Bin) : Bin :=
  { b with prev := clampInt binLimit (x + c * b.prev / 16384 - b.prev2), prev2 := b.prev }

/-- The components of a loading's tone copy that the detector uses (R141). -/
def ToneEntry.used (t : ToneEntry) : List Component := if t.components = 2 then [t.first, t.second] else [t.first]

def Loading.running (l : Loading) : Bool := l.status == .running

/-- The bins of a RUNNING loading, each with the component it measures. -/
def Loading.tuned (l : Loading) : List (Fin 6 × Component) := if l.running then l.bins.zip l.copy.used else []

/-- R77, R81, R83: the detector takes one scaled sample into every bin of a RUNNING loading and into Et.
That Et stands still while no loading is RUNNING, in mid-frame too, is the model's choice (log 32). -/
def Detector.sample (d : Detector) (x : Int) : Detector :=
  if d.loadings.any Loading.running then
    { d with
      bins := (d.loadings.flatMap Loading.tuned).foldl
        (fun bins p => vput bins p.1 ((vget bins p.1).sample p.2.coefficient x)) d.bins
      energy := d.energy + (x * x).toNat }
  else d

/-! ### Energy and presence -/

/-- R82: the band energy of a bin with this coefficient at the end of a frame. -/
def Bin.bandEnergy (c : Int) (b : Bin) : Nat :=
  min ((b.prev * b.prev + b.prev2 * b.prev2 - c * b.prev / 16384 * b.prev2).toNat / 64) 4294967295

/-- R84: the three conditions of a component's presence. -/
def Component.present (k : Component) (floorField energy band : Nat) : Bool :=
  decide (floorField * 64 ≤ energy) && decide (k.threshold * 256 ≤ band) && decide (k.ratio * energy ≤ 64 * band)

/-- R85: a tone entry is present when every component of its loading is. -/
def Detector.present (d : Detector) (floorField : Nat) (l : Loading) : Bool :=
  l.tuned.all fun p => p.2.present floorField d.energy ((vget d.bins p.1).bandEnergy p.2.coefficient)

/-- R94: the band energy of a loading's first component. -/
def Detector.firstBand (d : Detector) (l : Loading) : Nat :=
  match l.tuned with
  | p :: _ => (vget d.bins p.1).bandEnergy p.2.coefficient
  | [] => 0

/-! ### The cadence classifier -/

/-- R87: an entry is continuous when its cadence copy's off max is 0. -/
def CadenceEntry.continuous (k : CadenceEntry) : Bool := k.offMax == 0

/-- R89: the verdict on an ON run of this length. -/
def CadenceEntry.onVerdict (k : CadenceEntry) (n : Nat) : Verdict := if k.onMin ≤ n && n ≤ k.onMax then .within else .outside

/-- R90: the cycles after an OFF run of this length, and whether MATCHED is reported. -/
def Classifier.offRunEnd (x : Classifier) (k : CadenceEntry) (n : Nat) : Nat × Bool :=
  if k.offMin ≤ n && n ≤ k.offMax && x.verdict == .within then
    if k.cyclesRequired ≤ x.cycles + 1 then (0, true) else (x.cycles + 1, false)
  else (0, false)

/-- R88: the run ends with its length as it stands, is checked by R89, R90 or R91, and a run of the other kind starts
at length 2. -/
def Classifier.runEnd (x : Classifier) (k : CadenceEntry) : Classifier × Bool :=
  let next := { x with onRun := !x.onRun, length := 2, disagree := false }
  if k.continuous then
    (if x.onRun then { next with continuousMatch := false } else next, false)
  else if x.onRun then ({ next with verdict := k.onVerdict x.length }, false)
  else
    let out := x.offRunEnd k x.length
    ({ next with cycles := out.1 }, out.2)

/-- R88: the frame counted into the run in progress, or ending it. -/
def Classifier.count (x : Classifier) (k : CadenceEntry) (present : Bool) : Classifier × Bool :=
  if present = x.onRun then ({ x with length := min (x.length + 1) 255, disagree := false }, false)
  else if !x.disagree then ({ x with length := min (x.length + 1) 255, disagree := true }, false)
  else x.runEnd k

/-- R88 to R92: one frame of the classifier, with whether it reports MATCHED. -/
def Classifier.frame (x : Classifier) (k : CadenceEntry) (present : Bool) : Classifier × Bool :=
  let out := x.count k present
  if k.continuous && out.1.onRun && decide (k.onMin ≤ out.1.length) && !out.1.continuousMatch then
    ({ out.1 with continuousMatch := true }, true)
  else out

/-! ### Frame end and boundary -/

/-- R93: the absence watch after a frame, with whether it reports ABSENT. -/
def absenceFrame (watch : Option Nat) (present : Bool) : Option Nat × Bool :=
  match watch with
  | none => (none, false)
  | some n => if present then (some 0, false) else if n + 1 = 2 then (none, true) else (some (n + 1), false)

/-- R86: one loading at the end of a frame, with the reports it hands over. A loading that is not RUNNING is not
evaluated. -/
def Detector.evaluate (d : Detector) (floorField : Nat) (l : Loading) : Loading × List Report :=
  if l.running then
    let present := d.present floorField l
    let cls := l.classifier.frame l.cadenceCopy present
    let abs := absenceFrame l.absence present
    ({ l with classifier := cls.1, absence := abs.1 },
      (if cls.2 then [Report.matched l.tone] else []) ++ (if abs.2 then [Report.absent l.tone] else []) ++
        (if l.levelWatch then [Report.level l.tone (d.firstBand l)] else []))
  else (l, [])

/-- R79: the lowest-numbered free bins, `n` of them. -/
def freeBins (bins : Vector Bin 6) (n : Nat) : List (Fin 6) :=
  ((List.finRange 6).filter fun i => !(vget bins i).used).take n

/-- R80: the STOPPING loadings removed, their bins free; R81: every previous value 0 for the next frame, a free bin's too
(log 31). -/
def Detector.removeStopping (d : Detector) : Detector :=
  let kept := d.loadings.filter Loading.live
  { loadings := kept,
    bins := Vector.ofFn fun i => { used := kept.any fun l => l.bins.contains i, prev := 0, prev2 := 0 },
    energy := 0 }

/-- R79: one loading at a boundary: a STARTING one gets the lowest-numbered bins that the loadings before it have left free
(log 28) and becomes RUNNING. -/
def startLoading (acc : List Loading × Vector Bin 6) (l : Loading) : List Loading × Vector Bin 6 :=
  if l.status = .starting then
    let mine := freeBins acc.2 l.copy.used.length
    (acc.1 ++ [{ l with status := .running, bins := mine }],
      mine.foldl (fun bins i => vput bins i { vget bins i with used := true }) acc.2)
  else (acc.1 ++ [l], acc.2)

/-- R79, R80: the boundary: removals first, then starts. Of several loadings that start, the one named earlier takes its bins
first: the model's choice (log 28). -/
def Detector.boundary (d : Detector) : Detector :=
  let cleared := d.removeStopping
  let out := cleared.loadings.foldl startLoading ([], cleared.bins)
  { cleared with loadings := out.1, bins := out.2 }

/-- R86, R80: the end of a detection frame for one engine's detector: every RUNNING loading is evaluated, the reports are
handed to the engine, and the boundary follows. -/
def Engine.frameEnd (x : Engine) (floorField : Nat) : Engine :=
  let out := x.detector.loadings.map (x.detector.evaluate floorField)
  { x with
    reports := x.reports ++ out.flatMap Prod.snd
    detector := ({ x.detector with loadings := out.map Prod.fst }).boundary }

/-- R77: whether the 80th sample of the detection frame has been taken. -/
def State.frameFull (s : State) : Bool := s.hwi.grid == 80

/-- R86: the end of a detection frame in both detectors; the next frame begins. -/
def State.detectionFrameEnd (s : State) : State :=
  let floorField := s.siteOr.silenceFloor
  { s with
    engines := { e0 := s.engines.e0.frameEnd floorField, e1 := s.engines.e1.frameEnd floorField }
    hwi := { s.hwi with grid := 0 } }

/-- R78: the sample of an engine's detector in a frame with these TSI words: the audio slot of the trunk it holds. -/
def State.detectorSample (s : State) (tsi : List Word) (e : EngineId) : Engine :=
  let x := s.engine e
  match x.work.trunk.bind s.trunkSlot with
  | some slot => { x with detector := x.detector.sample (scaleSample (tsi.getD slot 0)) }
  | none => x

/-- R77: one highway frame of both detectors and of the grid. -/
def State.detectorFrame (s : State) (tsi : List Word) : State :=
  { s with
    engines := { e0 := s.detectorSample tsi .e0, e1 := s.detectorSample tsi .e1 }
    hwi := { s.hwi with grid := s.hwi.grid + 1 } }

/-- R95, R130: at the loss of frame sync every loading is released at once: the uses end, and the frame in progress is
discarded; the free bins hold 0 (log 31). -/
def State.detectorLost (s : State) (e : EngineId) : State :=
  (s.stopListening e).modEngine e fun x => { x with detector := Detector.reset }

end Sys2Proof.Machine
end

