-- ==== Sys2Proof/Machine/Tones.lean ====
section
/-! DEFINITION. The samples the part forms: the dual-tone symbols of R61 on the grid of R184, and the warning tone of
R127. Each is the nearest integer to 8000 x 10^(-a/20) times a sine of 2 pi f n / 8000, or to the sum of two. The sine
and the amplitude are formed in fixed point with 96 fraction bits; checked outside Lean against an exact evaluation for
every frequency, level and frame number that a symbol or a warning part can reach, the result is the nearest integer
(log 19). -/

namespace Sys2Proof.Machine

/-- 1 in fixed point. -/
def toneOne : Int := 2 ^ 96

/-- Pi in fixed point. -/
def tonePi : Int := 248902613312231085230521944622

/-- `fuel` terms of the sine series, the next term being `term`, of exponent `i`. -/
def sineSeries : Nat → Int → Int → Int → Int
  | 0, _, _, _ => 0
  | fuel + 1, i, x2, term => term + sineSeries fuel (i + 2) x2 (-(term * x2) / (toneOne * ((i + 1) * (i + 2))))

/-- The sine of 2 pi k / 8000 for k in 0..2000. -/
def sineQuarter (k : Nat) : Int :=
  let x := tonePi * k / 4000
  sineSeries 24 1 (x * x / toneOne) x

/-- The sine of 2 pi k / 8000. -/
def sine (k : Nat) : Int :=
  let r := k % 8000
  if r < 4000 then sineQuarter (min r (4000 - r)) else -sineQuarter (min (r - 4000) (8000 - r))

/-- 8000 x 10^(-a/20) in fixed point for a in 0..19. -/
def peakTable : List Int :=
  [633825300114114700748351602688000, 564897393339607534743008094693568,
   503465331763232669132909049234306, 448713949251798547886640071207528,
   399916728224363338931039992473442, 356426159205341975028582121440077,
   317665148767168775407065941121608, 283119361851135008355356948517603,
   252330396853651441652115710195703, 224889702915477158747970235782978,
   200433158700038344949131041255685, 178636240724519074602392767102503,
   159209717130413223522806429417540, 141895809752489041783596536688483,
   126464773559153336597823740380944, 112711848075467107888708986698406,
   100454540336048260546806705131765, 89530203314297193159050575677755,
   79793877695172346702851254122073, 71116368353151706529931751294887]

/-- R61: the peak amplitude at a dB of attenuation, in fixed point. -/
def peak (a : Nat) : Int := peakTable.getD (a % 20) 0 / 10 ^ (a / 20)

/-- The nearest integer to the product of a peak and a sum of sines. -/
def nearestSample (a : Nat) (sines : Int) : Int := (2 * (peak a * sines) + toneOne * toneOne) / (2 * toneOne * toneOne)

/-! ### The keypad grid (R184) -/

def rowFrequency : Nat → Nat
  | 0 => 697
  | 1 => 770
  | 2 => 852
  | _ => 941

def columnFrequency : Nat → Nat
  | 0 => 1209
  | 1 => 1336
  | 2 => 1477
  | _ => 1633

/-- R184: the row and column of a symbol. -/
def gridPlace (v : Fin 16) : Nat × Nat :=
  if v.val = 0 then (3, 1)
  else if v.val ≤ 9 then ((v.val - 1) / 3, (v.val - 1) % 3)
  else if v.val = 10 then (3, 0)
  else if v.val = 11 then (3, 2)
  else (v.val - 12, 3)

/-- R61: sample `n` of the ON part of a symbol at a dB of attenuation. -/
def symbolSample (v : Fin 16) (a n : Nat) : Int :=
  nearestSample a (sine (rowFrequency (gridPlace v).1 * n) + sine (columnFrequency (gridPlace v).2 * n))

/-- R61: the generator's output sample in the present frame. -/
def Generator.output (g : Generator) : Int :=
  match g.symbol with
  | .tone v => if g.onPart then symbolSample v g.level g.index else 0
  | .pause => 0
  | .none => 0

/-! ### The warning source (R127) -/

/-- R127: sample `n` of the ON part of a warning at frequency `f` and `a` dB. -/
def warningSample (f a n : Nat) : Int := nearestSample a (sine (f * n))

/-- R127: a warning source's sample in the present frame. -/
def WarnSource.output : WarnSource → Int
  | .on _ n f a => warningSample f a n
  | .off _ => 0
  | .stopped => 0

/-- R127: the start of an ON part. -/
def WarnSource.startOn (site : SiteRecord) : WarnSource :=
  .on (framesOfMs site.warningOn) 0 site.warningFrequency site.generatorLevel

/-- R127: the start of an OFF part. -/
def WarnSource.startOff (site : SiteRecord) : WarnSource := .off (framesOfMs site.warningOff)

/-- R127: a warning source after one highway frame. -/
def WarnSource.advance : WarnSource → WarnSource
  | .on left n f a => .on (left - 1) (n + 1) f a
  | .off left => .off (left - 1)
  | .stopped => .stopped

/-- R127: whether the part in progress has ended. -/
def WarnSource.ended : WarnSource → Bool
  | .on left _ _ _ => left == 0
  | .off left => left == 0
  | .stopped => false

/-- R127: a part that has ended gives way to the other. -/
def WarnSource.turn (site : SiteRecord) (w : WarnSource) : WarnSource :=
  match w with
  | .on left _ _ _ => if left = 0 then WarnSource.startOff site else w
  | .off left => if left = 0 then WarnSource.startOn site else w
  | .stopped => .stopped

end Sys2Proof.Machine
end

