-- ==== Sys2Proof/Machine/Highway.lean ====
section
/-! DEFINITION. The Highway Interface (chapter 06) and the inbound assembler: the words of a frame (R119 to R124, R128),
debounce and its deliveries (R125, R126), the assembler and the check word (R172, R173), the silence monitor's valid
cell (R160), one whole highway frame, and the loss and restoration of frame sync (R129 to R131). -/

namespace Sys2Proof.Machine

/-! ### Words and nibbles -/

/-- Word `k` of a line in a frame. -/
def slotWord (line : List Word) (k : Nat) : Word := line.getD k 0

/-- R181: the slot that carries a trunk's nibble. -/
def nibbleSlot (t : TrunkId) : Nat := if t.val < 4 then 29 else 30

/-- R181: a trunk's nibble within its slot's word: trunk 0 and trunk 4 stand highest. -/
def nibbleOf (w : Word) (t : TrunkId) : Nat := w.toNat / 2 ^ (4 * (3 - t.val % 4)) % 16

/-- R181: a trunk's nibble on a line. -/
def lineNibble (line : List Word) (t : TrunkId) : Nat := nibbleOf (slotWord line (nibbleSlot t)) t

/-- R181: the four nibbles of a slot, `f` giving the nibble of each of its trunks. -/
def packNibbles (f : TrunkId → Nat) (base : Nat) : Word :=
  wordOf (((List.range 4).map fun i => f (Fin.ofNat 8 (base + i)) % 16 * 2 ^ (4 * (3 - i))).sum)

/-- R181: the bit of a nibble that carries a signal. -/
def signalBit : LineSignal → Nat
  | .l => 3
  | .g => 2
  | .v => 1
  | .f => 0
  | .s => 3

/-- R125: a trunk's raw signalling bit: L, G, V and F from TSI, S from PXI. -/
def rawSignal (tsi pxi : List Word) (t : TrunkId) (sig : LineSignal) : Bool :=
  let n := lineNibble (match sig with
    | .s => pxi
    | _ => tsi) t
  n / 2 ^ signalBit sig % 2 == 1

/-! ### Forming a frame (R121, R123, R124, R128) -/

/-- R120: the trunk whose applied entry names an audio slot with a role other than UNUSED. -/
def State.slotOwner (s : State) (k : Nat) : Option TrunkId := (List.finRange 8).find? fun t => s.trunkSlot t == some k

/-- R124: the seize a TAKEN trunk's line card sees: its holder's. -/
def State.seizeOf (s : State) (t : TrunkId) : Bool := (s.trunk t).holder.elim false fun e => (s.engine e).seize

/-- R123: the output sample of a TAKEN trunk's holder. -/
def State.generatorSample (s : State) (t : TrunkId) : Int :=
  (s.trunk t).holder.elim 0 fun e => (s.engine e).generator.output

/-- R128: a sum sent within 16 bits. -/
def saturate16 (x : Int) : Word := BitVec.ofInt 16 (max (-32768) (min 32767 x))

/-- R121, R123: the audio word of a slot toward the line cards, for the PXI word `w`. -/
def State.tsoAudio (s : State) (k : Nat) (w : Word) : Word :=
  match s.slotOwner k with
  | none => w
  | some t =>
    if s.managed t then
      match vget s.hwi.applied t with
      | .through => w
      | .warnMix => saturate16 (w.toInt + (vget s.hwi.warnings t).output)
      | .taken => BitVec.ofInt 16 (s.generatorSample t)
      | .blocked => 0
    else w

/-- R121, R123: the audio word of a slot toward the PBX, for the TSI word `w`. -/
def State.pxoAudio (s : State) (k : Nat) (w : Word) : Word :=
  match s.slotOwner k with
  | none => w
  | some t =>
    if s.managed t then
      match vget s.hwi.applied t with
      | .through => w
      | .warnMix => saturate16 (w.toInt + (vget s.hwi.warnings t).output)
      | .taken => 0
      | .blocked => 0
    else w

/-- R124: the nibble of a trunk whose PXI nibble is `n`, toward the line cards: of a managed trunk's, S alone. -/
def State.tsoNibble (s : State) (t : TrunkId) (n : Nat) : Nat :=
  if s.managed t then
    match vget s.hwi.applied t with
    | .through => n / 8 * 8
    | .warnMix => n / 8 * 8
    | .taken => flagBit (s.seizeOf t) 3
    | .blocked => 0
  else n

/-- R124: the out-of-service pattern: F alone present. -/
def outOfService : Nat := 1

/-- R124: the nibble of a trunk whose TSI nibble is `n`, toward the PBX. -/
def State.pxoNibble (s : State) (t : TrunkId) (n : Nat) : Nat :=
  if s.managed t then
    match vget s.hwi.applied t with
    | .through => n
    | .warnMix => n
    | .taken => outOfService
    | .blocked => outOfService
  else n

/-- R176, R177: the word of PXO slot 31: the next word of the cell in emission, or the idle word. -/
def State.controlWord (s : State) : Word :=
  match s.ccp.emitter with
  | .emitting _ (w :: _) => w
  | _ => s.idleWord

/-- R120: the 32 words of TSO. -/
def State.formTso (s : State) (pxi : List Word) : List Word :=
  (List.range 29).map (fun k => s.tsoAudio k (slotWord pxi k)) ++
    [packNibbles (fun t => s.tsoNibble t (lineNibble pxi t)) 0, packNibbles (fun t => s.tsoNibble t (lineNibble pxi t)) 4,
      slotWord pxi 31]

/-- R120: the 32 words of PXO. -/
def State.formPxo (s : State) (tsi : List Word) : List Word :=
  (List.range 29).map (fun k => s.pxoAudio k (slotWord tsi k)) ++
    [packNibbles (fun t => s.pxoNibble t (lineNibble tsi t)) 0, packNibbles (fun t => s.pxoNibble t (lineNibble tsi t)) 4,
      s.controlWord]

/-! ### Debounce (R125, R126) -/

/-- R125: one frame of one bit. -/
def Debounced.frame (x : Debounced) (raw : Bool) : Debounced :=
  if raw = x.value then { x with count := 0 }
  else if x.count + 1 = 16 then { value := raw, count := 0 }
  else { x with count := x.count + 1 }

/-- R125: one frame of a trunk's five bits. -/
def LineBits.frame (b : LineBits) (raw : LineSignal → Bool) : LineBits :=
  { l := b.l.frame (raw .l), g := b.g.frame (raw .g), v := b.v.frame (raw .v), f := b.f.frame (raw .f),
    s := b.s.frame (raw .s) }

def lineSignals : List LineSignal := [.l, .g, .v, .f, .s]

/-- R126: the changes of one trunk's debounced values. -/
def changes (t : TrunkId) (before after : LineBits) : List Delivery :=
  (lineSignals.filter fun sig => (before.get sig).value != (after.get sig).value).map fun sig =>
    ⟨t, sig, (after.get sig).value⟩

/-- R125, R126: the debounce of a whole frame; the changes of managed trunks are delivered. -/
def State.debounceFrame (s : State) (tsi pxi : List Word) : State :=
  let after := vmap (fun t b => b.frame (rawSignal tsi pxi t)) s.hwi.lines
  { s with hwi := { s.hwi with
      lines := after
      deliveries := s.hwi.deliveries ++
        ((List.finRange 8).filter s.managed).flatMap fun t => changes t (vget s.hwi.lines t) (vget after t) } }

/-- R126: the oldest delivery of a trunk's signal that has not been taken, and the state with it taken. -/
def State.takeDelivery (s : State) (t : TrunkId) (sig : LineSignal) : Option (Bool × State) :=
  match s.hwi.deliveries.find? fun d => d.trunk == t && d.signal == sig with
  | some d => some (d.value, { s with hwi := { s.hwi with deliveries := s.hwi.deliveries.erase d } })
  | none => none

/-! ### The inbound assembler (R172, R173) -/

/-- R160: a valid cell at the station-silence monitor. -/
def State.validCell (s : State) : State :=
  let timer := s.tables.site.bind fun x => silenceTimerAt x.silenceTime
  if s.cmu.silent then
    let s1 := ({ s with cmu := { s.cmu with silent := false } }).internalAlert
      ⟨0, 0, s.siteOr.silenceEvent, .restore⟩ classTrouble
    let s2 := s1.raise (.stationSilent false)
    { s2 with cmu := { s2.cmu with silenceTimer := timer } }
  else { s with cmu := { s.cmu with silenceTimer := timer } }

/-- R173: a cell that has passed its check: told to the monitor, then queued, or discarded with OVERRUN. -/
def State.cellArrived (s : State) (c : InCell) : State :=
  let s1 := s.validCell
  if s1.ccp.inbound.length < 4 then { s1 with ccp := { s1.ccp with inbound := s1.ccp.inbound ++ [c] } }
  else { s1 with ccp := { s1.ccp with flags := { s1.ccp.flags with overrun := true } } }

def State.setAssembler (s : State) (a : Assembler) : State := { s with ccp := { s.ccp with assembler := a } }

/-- The station's idle word (chapter 10). -/
def stationIdle : Word := 0xFFFF

/-- R172: one control word at the assembler. -/
def State.assembleWord (s : State) (w : Word) : State :=
  match s.ccp.assembler with
  | .hunt =>
    if w = stationIdle then s
    else if bitsOf w 15 12 = 10 then
      if headerLength w = 0 then s.setAssembler (.check w [])
      else if headerLength w ≤ 40 then s.setAssembler (.body w [] (headerLength w))
      else { s with ccp := { s.ccp with assembler := .skip, flags := { s.ccp.flags with framing := true } } }
    else { s with ccp := { s.ccp with flags := { s.ccp.flags with framing := true } } }
  | .body h ws n =>
    if w = stationIdle then
      { s with ccp := { s.ccp with assembler := .hunt, flags := { s.ccp.flags with abortedCell := true } } }
    else if n ≤ 1 then s.setAssembler (.check h (ws ++ [w]))
    else s.setAssembler (.body h (ws ++ [w]) (n - 1))
  | .check h ws =>
    let s1 := s.setAssembler .hunt
    if checkWord h ws = w then s1.cellArrived ⟨h, ws⟩
    else { s1 with ccp := { s1.ccp with flags := { s1.ccp.flags with badCheck := true } } }
  | .skip => if w = stationIdle then s.setAssembler .hunt else s

/-! ### One frame -/

/-- The steps that are due before the next frame and whose own commands have not come: the end of an emission, the end of
a detection frame, the end of a warning part (log 18). -/
def State.settleDue (s : State) : State :=
  let s1 := s.endEmission
  let s2 := if s1.frameFull then s1.detectionFrameEnd else s1
  { s2 with hwi := { s2.hwi with warnings := vmap (fun _ w => w.turn s2.siteOr) s2.hwi.warnings } }

/-- R122, R127: the path states handed by the Trunk Manager are applied; a warning source starts as its trunk's path
becomes WARN_MIX and stops as it leaves it. -/
def State.applyPaths (s : State) : State :=
  { s with hwi := { s.hwi with
      applied := vmap (fun _ t => pathOf t.state) s.trunks
      warnings := vmap (fun t w =>
        if pathOf (s.trunk t).state = .warnMix then (if w = .stopped then WarnSource.startOn s.siteOr else w)
        else .stopped) s.hwi.warnings } }

/-- R61, R127, R176: the sources and the emitter move on by the frame that has been formed. -/
def State.advanceSources (s : State) : State :=
  { s with
    hwi := { s.hwi with warnings := vmap (fun _ w => w.advance) s.hwi.warnings }
    engines :=
      { e0 := { s.engines.e0 with generator := s.engines.e0.generator.advance }
        e1 := { s.engines.e1 with generator := s.engines.e1.generator.advance } }
    ccp := { s.ccp with emitter := match s.ccp.emitter with
      | .emitting src (_ :: ws) => .emitting src ws
      | x => x } }

/-- R119: one highway frame, handled whole. -/
def State.highwayFrame (s : State) (tsi pxi : List Word) : State :=
  let s1 := s.settleDue.applyPaths
  let s2 := { s1 with hwi := { s1.hwi with tso := some (s1.formTso pxi), pxo := some (s1.formPxo tsi) } }
  ((s2.advanceSources.detectorFrame tsi).debounceFrame tsi pxi).assembleWord (slotWord pxi 31)

/-! ### Frame sync (R129 to R131) -/

/-- The frame period in microseconds (R129). -/
def framePeriod : Nat := 125

/-- R130, R125, R127: the Highway Interface at the loss of sync. -/
def Hwi.lost (x : Hwi) : Hwi :=
  { x with
    sync := .lost none 0
    lossPreceded := true
    lines := vmap (fun _ b =>
      { l := { b.l with count := 0 }, g := { b.g with count := 0 }, v := { b.v with count := 0 },
        f := { b.f with count := 0 }, s := { b.s with count := 0 } }) x.lines
    warnings := Vector.replicate 8 .stopped
    grid := 0
    tso := none
    pxo := none }

/-- R130: the loss of frame sync, the engines of `taken` taking their aborts inside the step (log 6). A detection frame that is
full and whose end has not been commanded is discarded unevaluated (log 18). -/
def State.loseSync (s : State) (taken : EngineSet) : State :=
  let s1 := s.channelLost
  let s2 := { s1 with hwi := s1.hwi.lost, trunks := vmap (fun _ t => Trunk.syncLost t) s1.trunks }
  let s3 := s2.postAborts .syncLoss taken
  (engineIds.foldl State.detectorLost s3).raise (.highway false)

/-- R131: the restoration of frame sync by a pulse at this time. -/
def State.restoreSync (s : State) (time : Nat) : State :=
  let s1 := { s with
    hwi := { s.hwi with sync := .inSync (time + framePeriod) 0, grid := 0 }
    trunks := vmap (fun _ t => Trunk.syncRestored s.siteOr.releaseGuard t) s.trunks }
  let s2 := s1.cause
  if s.hwi.lossPreceded then s2.raise (.highway true) else s2

/-- R129: an FS pulse judged against the sync state. -/
def State.pulse (s : State) (time : Nat) : State :=
  match s.hwi.sync with
  | .inSync expected _ =>
    if time = expected then { s with hwi := { s.hwi with sync := .inSync (expected + framePeriod) 0 } } else s
  | .lost last good =>
    if last.map (· + framePeriod) = some time then
      if good + 1 = 8 then s.restoreSync time
      else { s with hwi := { s.hwi with sync := .lost (some time) (good + 1) } }
    else { s with hwi := { s.hwi with sync := .lost (some time) 0 } }

/-- R129: a missed frame start; the third in succession loses sync, both engines taking their aborts (log 14). In LOST it is
a frame period that passes without a pulse. -/
def State.missedStart (s : State) : State :=
  match s.hwi.sync with
  | .inSync expected missed =>
    if missed ≥ 2 then s.loseSync ⟨true, true⟩
    else { s with hwi := { s.hwi with sync := .inSync (expected + framePeriod) (missed + 1) } }
  | .lost last _ => { s with hwi := { s.hwi with sync := .lost last 0 } }

end Sys2Proof.Machine
end

