-- ==== Sys2Proof/Machine/LineCommands.lean ====
section
/-! DEFINITION. The meanings of the debounced line changes (R53 to R55, R64, R99, R100, R114, R126) and of the trunk timers'
expiries (R99, R106, R111). -/

namespace Sys2Proof.Machine

/-! ### Debounced changes -/

/-- R126: the step that takes a delivered change of a managed trunk; a change of a trunk that is no longer managed is not
watched. -/
def State.onChange (s : State) (t : TrunkId) (sig : LineSignal) (f : State → Bool → State) : State :=
  match s.takeDelivery t sig with
  | some (v, s') => if s'.managed t then f s' v else s'
  | none => s

/-- R108: the engine that holds the trunk in TAKEN and can act on the line. -/
def State.lineEngine (s : State) (t : TrunkId) : Option EngineId :=
  match (s.trunk t).state, (s.trunk t).holder with
  | .taken, some e => if (s.engine e).acts then some e else none
  | _, _ => none

/-- R53, R54, R155: a change of L at the holding engine. -/
def State.loopChanged (s : State) (e : EngineId) (t : TrunkId) (present : Bool) : State :=
  let x := s.engine e
  if x.phase = .seize then (if present && !s.debounced t .f then s.leaveSeize e else s)
  else if x.phase.supervised then
    s.modEngine e fun x => { x with lossTimer := if present then none else some (ticksOfMs s.siteOr.loopLossTime) }
  else s

/-- R100, R106, R108: a change of L: the Trunk Manager's evaluation, and the holder of a TAKEN trunk. -/
def State.lChange (s : State) (t : TrunkId) (present : Bool) : State :=
  match s.lineEngine t with
  | some e => s.loopChanged e t present
  | none => s.officeChanged s t

/-- DEBOUNCED_L_CHANGE. -/
def execDebouncedLChange (t : TrunkId) (s : State) : Host.Outcome State Fault Refusal :=
  running (fun s => s.onChange t .l fun s' v => s'.lChange t v) s

/-- R99: the ring-recent time, 6 s. -/
def ringTicks : Nat := 600

/-- R99: a change of G: the ring-recent timer starts at its fall and is removed at its rise, and the trunk is
re-evaluated. -/
def State.gChange (s : State) (t : TrunkId) (present : Bool) : State :=
  (s.setTrunk t { s.trunk t with ringTimer := if present then none else some ringTicks }).officeChanged s t

/-- DEBOUNCED_G_CHANGE. -/
def execDebouncedGChange (t : TrunkId) (s : State) : Host.Outcome State Fault Refusal :=
  running (fun s => s.onChange t .g fun s' v => s'.gChange t v) s

/-- R64: a change of V away from the polarity reference is FAR_CLEARED. -/
def State.vChange (s : State) (t : TrunkId) (present : Bool) : State :=
  match s.lineEngine t with
  | some e =>
    match (s.engine e).polRef with
    | some reference => if present = reference then s else s.failCall e .farCleared
    | none => s
  | none => s

/-- DEBOUNCED_V_CHANGE. -/
def execDebouncedVChange (t : TrunkId) (s : State) : Host.Outcome State Fault Refusal :=
  running (fun s => s.onChange t .v fun s' v => s'.vChange t v) s

/-- R53, R55, R155: F rising at the holding engine, in SEIZE or after it. -/
def State.faultAtEngine (s : State) (t : TrunkId) : State :=
  match s.lineEngine t with
  | some e =>
    if (s.engine e).phase = .seize || (s.engine e).phase.supervised then s.failWork e .cardFault .cardFault else s
  | none => s

/-- R114: F rising, at the Trunk Manager and at the holder, in either order. F falling changes nothing. -/
def State.fChange (s : State) (t : TrunkId) (order : FaultOrder) (present : Bool) : State :=
  if present then
    match order with
    | .trunkFirst => (s.cardFaultRise t).faultAtEngine t
    | .engineFirst => (s.faultAtEngine t).cardFaultRise t
  else s

/-- DEBOUNCED_F_CHANGE. -/
def execDebouncedFChange (t : TrunkId) (order : FaultOrder) (s : State) : Host.Outcome State Fault Refusal :=
  running (fun s => s.onChange t .f fun s' v => s'.fChange t order v) s

/-- DEBOUNCED_S_CHANGE (R100, R106): the PBX's seize is acted on in office use and in WARNING alone. -/
def execDebouncedSChange (t : TrunkId) (s : State) : Host.Outcome State Fault Refusal :=
  running (fun s => s.onChange t .s fun s' _ => s'.officeChanged s' t) s

/-! ### Trunk timers -/

/-- R106: the warning timer of a WARNING trunk runs out. -/
def State.warningTimerEnd (t : TrunkId) (s : State) : State :=
  if timerDue (s.trunk t).warnTimer && (s.trunk t).state == .warning then s.endWarning t else s

/-- WARNING_TIMER_EXPIRY. -/
def execWarningTimerExpiry (t : TrunkId) (s : State) : Host.Outcome State Fault Refusal :=
  running (State.warningTimerEnd t) s

/-- R99: the ring-recent timer runs out: it is removed and the trunk re-evaluated. -/
def State.ringRecentEnd (t : TrunkId) (s : State) : State :=
  if timerDue (s.trunk t).ringTimer then (s.setTrunk t { s.trunk t with ringTimer := none }).officeChanged s t else s

/-- RING_RECENT_EXPIRY. -/
def execRingRecentExpiry (t : TrunkId) (s : State) : Host.Outcome State Fault Refusal := running (State.ringRecentEnd t) s

/-- R111: the guard of a COOLDOWN trunk runs out. -/
def State.guardTimerEnd (t : TrunkId) (s : State) : State :=
  if (s.trunk t).guard == .running 0 && (s.trunk t).state == .cooldown then s.leaveCooldown t else s

/-- GUARD_TIMER_EXPIRY. -/
def execGuardTimerExpiry (t : TrunkId) (s : State) : Host.Outcome State Fault Refusal := running (State.guardTimerEnd t) s

end Sys2Proof.Machine
end

