-- ==== Sys2Proof/Machine/QueueCommands.lean ====
section
/-! DEFINITION. The meanings of the passing of seconds and of a backoff's end (R4, R20), of the scheduler's steps (R28 to
R39, R42) and of the Command Unit's timers (R152, R159, R160). -/

namespace Sys2Proof.Machine

/-- R4, R20: a second passes for every record. -/
def State.secondPasses (s : State) : State := { s with queue := s.queue.map Record.second }

/-- SECOND_TICK. -/
def execSecondTick (s : State) : Host.Outcome State Fault Refusal := running State.secondPasses s

/-- R20: the backoff of a HELD record reaches 0: it becomes WAITING and is reported. -/
def State.backoffEnd (h : Handle) (s : State) : State :=
  match s.findRecord h with
  | some r =>
    if r.state.backoffOver then (s.updateRecord h fun r => { r with state := .waiting }).reportWaiting h else s
  | none => s

/-- BACKOFF_EXPIRY. -/
def execBackoffExpiry (h : Handle) (s : State) : Host.Outcome State Fault Refusal := running (State.backoffEnd h) s

/-- SELECTION (R28, R29). -/
def execSelection (s : State) : Host.Outcome State Fault Refusal := running State.selectionStep s

/-- R42: the hold timer reaches 0. -/
def State.holdTimerEnd (s : State) : State := if timerDue s.dsc.hold then s.endHold .expired else s

/-- HOLD_TIMER_EXPIRY. -/
def execHoldTimerExpiry (s : State) : Host.Outcome State Fault Refusal := running State.holdTimerEnd s

/-- R152: the expiry timer of a HELD command runs out. -/
def State.slotExpired (s : State) : State :=
  match s.cmu.slot with
  | .held c 0 => ({ s with cmu := { s.cmu with slot := .empty } }).raise (.commandExpired c)
  | .held _ (_ + 1) => s
  | .empty => s
  | .running _ _ => s

/-- COMMAND_EXPIRED. -/
def execCommandExpired (s : State) : Host.Outcome State Fault Refusal := running State.slotExpired s

/-- R159, R12: the periodic test timer runs out: the TEST alert is offered and the timer restarts. -/
def State.periodicEnd (s : State) : State :=
  if timerDue s.cmu.periodic then
    let s1 := s.internalAlert s.testKey classTest
    { s1 with cmu := { s1.cmu with periodic := periodicTimerAt s1.siteOr.periodicInterval } }
  else s

/-- PERIODIC_TEST_EXPIRY. -/
def execPeriodicTestExpiry (s : State) : Host.Outcome State Fault Refusal := running State.periodicEnd s

/-- R160, R12: the silence timer runs out: SILENT, the NEW alert offered, STATION_SILENT ON. -/
def State.silenceEnd (s : State) : State :=
  if timerDue s.cmu.silenceTimer && !s.cmu.silent then
    (({ s with cmu := { s.cmu with silent := true, silenceTimer := none } }).internalAlert
      ⟨0, 0, s.siteOr.silenceEvent, .new⟩ classTrouble).raise (.stationSilent true)
  else s

/-- SILENCE_TIMER_EXPIRY. -/
def execSilenceTimerExpiry (s : State) : Host.Outcome State Fault Refusal := running State.silenceEnd s

end Sys2Proof.Machine
end

