-- ==== Sys2Proof/Machine/StationCommands.lean ====
section
/-! DEFINITION. The meanings of the station's cells and commands: each acts on the cell that CELL_TAKEN has put in its
owner's hand and answers it (R6, R22, R23, R26, R41, R42, R72, R112, R135, R146, R150, R153, R154, R161, R165, R168,
R169, R174). -/

namespace Sys2Proof.Machine

/-- CELL_TAKEN (R174). -/
def execCellTaken (s : State) : Host.Outcome State Fault Refusal := running State.takeCell s

/-! ### Cells -/

/-- R6 to R11, R183: the answer to a station ALERT. R2 speaks of a key reported with the handle in ACCEPTED and COALESCED; R183,
R7 and R10 give the handle alone, and the model follows them: its choice (log 33). -/
def State.answerAlert (s : State) : AlertResult → State
  | .refused => s.refuse .badArgument
  | .coalesced h => s.answer .coalesced [wordOf h.val]
  | .cancelled h k => s.answer .cancelled (wordOf h.val :: k.words)
  | .accepted h => s.answer .accepted [wordOf h.val]
  | .acceptedEvicting h => s.answer .acceptedEvicting [wordOf h.val]
  | .queueFull => s.answer .queueFull []

/-- R6: a station ALERT. -/
def State.stationAlert (s : State) (c : InCell) : State :=
  match c.alertArrival with
  | none => s.answerAlert .refused
  | some (k, cls) => (s.offer k cls).1.answerAlert (s.offer k cls).2

/-- ALERT. -/
def execAlert (s : State) : Host.Outcome State Fault Refusal := running (State.onCell · 1 State.stationAlert) s

/-- R135: a table write: refused, staged, or applied. -/
def State.writeTable (s : State) (c : InCell) : State :=
  match c.parseWrite s.tables with
  | .error reason => s.refuse reason
  | .ok p =>
    if s.inUse p.write.ref then
      ({ s with tables := s.tables.stage p.write }).answer .staged (maskWords p.clamped)
    else if p.clamped = [] then (s.applyWrite p.write).answer .accepted []
    else (s.applyWrite p.write).answer .clamped (maskWords p.clamped)

/-- TABLE_WRITE. -/
def execTableWrite (s : State) : Host.Outcome State Fault Refusal := running (State.onCell · 3 State.writeTable) s

/-- R146: a table read. -/
def State.readTable (s : State) (c : InCell) : State :=
  match addressRef (c.word 1) with
  | none => s.refuse .badArgument
  | some ref => s.replyWith (.tableData ref) false

/-- TABLE_READ. -/
def execTableRead (s : State) : Host.Outcome State Fault Refusal := running (State.onCell · 4 State.readTable) s

/-- R182: the handle field that asks for the summary. -/
def summaryRequest : Nat := 32767

/-- R26: a queue read. -/
def State.readQueue (s : State) (c : InCell) : State :=
  if c.field 1 = summaryRequest then s.replyWith .queueSummary false
  else
    match finOf 32 (c.field 1) with
    | some h => if (s.findRecord h).isSome then s.replyWith (.queueRecord h) false else s.refuse .badArgument
    | none => s.refuse .badArgument

/-- QUEUE_READ. -/
def execQueueRead (s : State) : Host.Outcome State Fault Refusal := running (State.onCell · 8 State.readQueue) s

/-- STATUS_REQUEST (R169). -/
def execStatusRequest (s : State) : Host.Outcome State Fault Refusal :=
  running (State.onCell · 7 fun s _ => s.replyWith .status false) s

/-- R153, R183: the words that name a slot command. -/
def SlotCommand.words (c : SlotCommand) : List Word := [wordOf c.code, wordOf c.argument]

/-- R153: a CANCEL. -/
def State.cancelSlot (s : State) : State :=
  match s.cmu.slot with
  | .held c _ => ({ s with cmu := { s.cmu with slot := .empty } }).answer .cancelled c.words
  | .running c _ => s.answer .tooLate c.words
  | .empty => s.answer .nothingPending []

/-- CANCEL. -/
def execCancel (s : State) : Host.Outcome State Fault Refusal := running (State.onCell · 6 fun s _ => s.cancelSlot) s

/-- R174: a cell of a kind the part does not know. -/
def State.unknownCell (s : State) : State :=
  match s.ccp.inHand with
  | some c => if knownKind c.kind then s else s.answer .unknownKind []
  | none => s

/-- UNKNOWN_KIND. -/
def execUnknownKind (s : State) : Host.Outcome State Fault Refusal := running State.unknownCell s

/-! ### Slot commands (R150) -/

/-- R150: the expiry time of a HELD command, 30 s. -/
def slotTicks : Nat := 3000

/-- R150: a slot command in range meets the slot. -/
def State.placeInSlot (s : State) (c : SlotCommand) : State :=
  match s.cmu.slot with
  | .empty => (({ s with cmu := { s.cmu with slot := .held c slotTicks } }).cause).answer .pending []
  | .held _ _ => s.answer .slotBusy []
  | .running _ _ => s.answer .slotBusy []

/-- R150: LINE_TEST with its trunk. -/
def State.lineTestCommand (s : State) (c : InCell) : State :=
  match finOf 8 (c.field 2) with
  | some t => s.placeInSlot (.lineTest t)
  | none => s.answer .badArgument []

/-- LINE_TEST. -/
def execLineTest (s : State) : Host.Outcome State Fault Refusal := running (State.onCommand · 1 State.lineTestCommand) s

/-- R150: TEST_CALL with its route. -/
def State.testCallCommand (s : State) (c : InCell) : State :=
  match finOf 8 (c.field 2) with
  | some r => s.placeInSlot (.testCall r)
  | none => s.answer .badArgument []

/-- TEST_CALL. -/
def execTestCall (s : State) : Host.Outcome State Fault Refusal := running (State.onCommand · 2 State.testCallCommand) s

/-! ### Barring (R112) -/

/-- R112: the barred flag of one trunk set or cleared; a trunk that becomes grantable is reported (R102). -/
def State.setBarred (s : State) (barred : Bool) (t : TrunkId) : State :=
  s.reportGrantable (s.setTrunk t { s.trunk t with barred := barred }) t

/-- R112: the barred flag of every trunk. -/
def State.setAllBarred (s : State) (barred : Bool) : State := (List.finRange 8).foldl (fun s t => s.setBarred barred t) s

/-- R112: BAR or UNBAR with its trunk. -/
def State.barCommand (barred : Bool) (s : State) (c : InCell) : State :=
  match finOf 8 (c.field 2) with
  | some t => (s.setBarred barred t).answer .done []
  | none => s.answer .badArgument []

/-- BAR. -/
def execBar (s : State) : Host.Outcome State Fault Refusal := running (State.onCommand · 3 (State.barCommand true)) s

/-- UNBAR. -/
def execUnbar (s : State) : Host.Outcome State Fault Refusal := running (State.onCommand · 4 (State.barCommand false)) s

/-- BAR_ALL. -/
def execBarAll (s : State) : Host.Outcome State Fault Refusal :=
  running (State.onCommand · 5 fun s _ => (s.setAllBarred true).answer .done []) s

/-- UNBAR_ALL. -/
def execUnbarAll (s : State) : Host.Outcome State Fault Refusal :=
  running (State.onCommand · 6 fun s _ => (s.setAllBarred false).answer .done []) s

/-! ### The other immediate commands (R154) -/

/-- HOLD (R41). -/
def execHold (s : State) : Host.Outcome State Fault Refusal :=
  running (State.onCommand · 7 fun s c => (s.setHold (c.field 2)).answer .done []) s

/-- RESUME (R42). -/
def execResume (s : State) : Host.Outcome State Fault Refusal :=
  running (State.onCommand · 8 fun s _ => (s.endHold .resume).answer .done []) s

/-- ABORT_CALLS (R72). -/
def execAbortCalls (taken : EngineSet) (s : State) : Host.Outcome State Fault Refusal :=
  running (State.onCommand · 9 fun s _ => (s.postAborts .abortCalls taken).answer .done []) s

/-- RELEASE_STRANDED (R23). -/
def execReleaseStranded (s : State) : Host.Outcome State Fault Refusal :=
  running (State.onCommand · 10 fun s _ => s.releaseStranded.answer .done []) s

/-- R22: PURGE with its handle. -/
def State.purgeCommand (s : State) (c : InCell) : State :=
  match (finOf 32 (c.field 2)).bind s.findRecord with
  | none => s.answer .badArgument []
  | some r => if r.state.isInCall then s.answer .busy [] else (s.removeRecord r.handle).answer .done []

/-- PURGE. -/
def execPurge (s : State) : Host.Outcome State Fault Refusal := running (State.onCommand · 11 State.purgeCommand) s

/-- SET_NOTIFY (R165). -/
def execSetNotify (s : State) : Host.Outcome State Fault Refusal :=
  running (State.onCommand · 12 fun s c => (s.setNotify c.maskBit).answer .done []) s

/-- CLEAR_EVENTS (R168). -/
def execClearEvents (s : State) : Host.Outcome State Fault Refusal :=
  running (State.onCommand · 13 fun s c => (s.clearEvents c.maskBit).answer .done []) s

/-- R154: a command code that names no command. -/
def State.badCode (s : State) (c : InCell) : State :=
  if 1 ≤ c.code && c.code ≤ 14 then s else s.answer .badArgument []

/-- BAD_COMMAND_CODE. -/
def execBadCommandCode (s : State) : Host.Outcome State Fault Refusal := running (State.onCell · 5 State.badCode) s

/-! ### INIT (R161) -/

/-- R161, stage 1, R179: DONE is placed in the answer queue, and no cell is taken until it has been sent. -/
def State.initAnswer (s : State) : State :=
  let s1 := s.replyWith (.answer 5 .done []) true
  { s1 with ccp := { s1.ccp with initWait := true } }

/-- R161, stage 2, R163: every event record and the emission record as after power-on reset. -/
def State.initEvents (s : State) : State := { s with evr := Evr.reset }

/-- R161, R149: a HELD command is removed; a running one is ended by its engine's abort. -/
def CommandSlot.init : CommandSlot → CommandSlot
  | .held _ _ => .empty
  | .running c e => .running c e
  | .empty => .empty

/-- R134, R159, R117: the tables are cleared, the periodic timer goes with readiness, and every trunk is UNMANAGED. -/
def State.initTables (s : State) : State :=
  { s with
    tables := Tables.empty
    trunks := Vector.replicate 8 Trunk.reset
    cmu := { s.cmu with slot := s.cmu.slot.init, periodic := none, silent := false, silenceTimer := none } }

/-- R161: INIT, its stages in order; in stage 3 the engines of `taken` take their aborts before the tables are cleared
and the others after it (log 6). -/
def State.initPart (taken : EngineSet) (s : State) (_ : InCell) : State :=
  let s1 := (s.initAnswer.initEvents.postAborts .init taken).initTables.releaseHeld.endHold .init
  { s1 with dsc := { s1.dsc with noTrunk := false } }

/-- INIT. -/
def execInit (taken : EngineSet) (s : State) : Host.Outcome State Fault Refusal :=
  running (State.onCommand · 14 (State.initPart taken)) s

end Sys2Proof.Machine
end

