-- ==== Sys2Proof/Machine/SyncCommands.lean ====
section
/-! DEFINITION. The meanings of the reset pin's, the frame sync's and the highway's commands (R119, R127, R129 to R132,
R86). Every meaning but POWER_ON_RESET has no effect while RESET_N is held low (log 15). -/

namespace Sys2Proof.Machine

/-- R132: while RESET_N is held low the part drives neither TSO nor PXO and receives nothing. -/
def State.holdInReset (s : State) : State := { s with resetLow := true, hwi := { s.hwi with tso := none, pxo := none } }

/-- RESET_N_ASSERTED. -/
def execResetNAsserted (s : State) : Host.Outcome State Fault Refusal := .next s.holdInReset

/-- POWER_ON_RESET: RESET_N is released and every block takes its power-on reset state (R132). The commands still waiting
are the environment's and stay. -/
def execPowerOnReset (s : State) : Host.Outcome State Fault Refusal := .next { State.reset with pending := s.pending }

/-- FS_PULSE (R129). -/
def execFsPulse (time : Nat) (s : State) : Host.Outcome State Fault Refusal := running (State.pulse · time) s

/-- MISSED_FRAME_START (R129). -/
def execMissedFrameStart (s : State) : Host.Outcome State Fault Refusal := running State.missedStart s

/-- R129: whether two consecutive frame starts have been missed, so that the next is the third. -/
def SyncState.thirdMiss : SyncState → Bool
  | .inSync _ missed => decide (2 ≤ missed)
  | .lost _ _ => false

/-- R130: the third consecutive missed frame start. -/
def State.thirdMissed (taken : EngineSet) (s : State) : State := if s.hwi.sync.thirdMiss then s.loseSync taken else s

/-- SYNC_LOST (R130). -/
def execSyncLost (taken : EngineSet) (s : State) : Host.Outcome State Fault Refusal := running (State.thirdMissed taken) s

/-- R129: whether a pulse at this time completes the eighth consecutive good frame. -/
def SyncState.eighthGood (time : Nat) : SyncState → Bool
  | .inSync _ _ => false
  | .lost last good => good == 7 && last.map (· + framePeriod) == some time

/-- R131: the pulse that completes the eighth good frame. -/
def State.eighthPulse (time : Nat) (s : State) : State :=
  if s.hwi.sync.eighthGood time then s.restoreSync time else s

/-- SYNC_RESTORED (R131). -/
def execSyncRestored (time : Nat) (s : State) : Host.Outcome State Fault Refusal := running (State.eighthPulse time) s

/-- R119, R130: a frame is received and formed while sync is present. -/
def State.frameReceived (tsi pxi : List Word) (s : State) : State := if s.inSync then s.highwayFrame tsi pxi else s

/-- HIGHWAY_FRAME (R119). -/
def execHighwayFrame (tsi pxi : List Word) (s : State) : Host.Outcome State Fault Refusal :=
  running (State.frameReceived tsi pxi) s

/-- R127: the part of a warning source that has ended gives way to the other. -/
def State.warningPartEnd (t : TrunkId) (s : State) : State :=
  { s with hwi := { s.hwi with warnings := vput s.hwi.warnings t ((vget s.hwi.warnings t).turn s.siteOr) } }

/-- WARNING_PART_END (R127). -/
def execWarningPartEnd (t : TrunkId) (s : State) : Host.Outcome State Fault Refusal := running (State.warningPartEnd t) s

/-- R86: the end of a detection frame whose 80 samples have been taken. -/
def State.frameEndDue (s : State) : State := if s.frameFull then s.detectionFrameEnd else s

/-- DETECTION_FRAME_END (R86). -/
def execDetectionFrameEnd (s : State) : Host.Outcome State Fault Refusal := running State.frameEndDue s

end Sys2Proof.Machine
end

