-- ==== Sys2Proof/Machine/Dispatch.lean ====
section
/-! DEFINITION. One arm per command of the table, each a call of its meaning. -/

namespace Sys2Proof.Machine

def exec (i : Instr) (s : State) : Host.Outcome State Fault Refusal :=
  match i with
  | .resetNAsserted => Sys2Proof.Machine.execResetNAsserted s
  | .powerOnReset => Sys2Proof.Machine.execPowerOnReset s
  | .fsPulse time => Sys2Proof.Machine.execFsPulse time s
  | .missedFrameStart => Sys2Proof.Machine.execMissedFrameStart s
  | .syncLost taken => Sys2Proof.Machine.execSyncLost taken s
  | .syncRestored time => Sys2Proof.Machine.execSyncRestored time s
  | .highwayFrame tsi pxi => Sys2Proof.Machine.execHighwayFrame tsi pxi s
  | .debouncedLChange trunk => Sys2Proof.Machine.execDebouncedLChange trunk s
  | .debouncedGChange trunk => Sys2Proof.Machine.execDebouncedGChange trunk s
  | .debouncedVChange trunk => Sys2Proof.Machine.execDebouncedVChange trunk s
  | .debouncedFChange trunk order => Sys2Proof.Machine.execDebouncedFChange trunk order s
  | .debouncedSChange trunk => Sys2Proof.Machine.execDebouncedSChange trunk s
  | .warningPartEnd trunk => Sys2Proof.Machine.execWarningPartEnd trunk s
  | .detectionFrameEnd => Sys2Proof.Machine.execDetectionFrameEnd s
  | .dialToneMatchedTaken engine tone => Sys2Proof.Machine.execDialToneMatchedTaken engine tone s
  | .answerMatchedTaken engine tone => Sys2Proof.Machine.execAnswerMatchedTaken engine tone s
  | .ackMatchedTaken engine tone => Sys2Proof.Machine.execAckMatchedTaken engine tone s
  | .lineTestToneMatched engine tone => Sys2Proof.Machine.execLineTestToneMatched engine tone s
  | .absentTaken engine tone => Sys2Proof.Machine.execAbsentTaken engine tone s
  | .levelTaken engine => Sys2Proof.Machine.execLevelTaken engine s
  | .secondTick => Sys2Proof.Machine.execSecondTick s
  | .backoffExpiry handle => Sys2Proof.Machine.execBackoffExpiry handle s
  | .selection => Sys2Proof.Machine.execSelection s
  | .preemptMarkTaken engine => Sys2Proof.Machine.execPreemptMarkTaken engine s
  | .warningTimerExpiry trunk => Sys2Proof.Machine.execWarningTimerExpiry trunk s
  | .ringRecentExpiry trunk => Sys2Proof.Machine.execRingRecentExpiry trunk s
  | .guardTimerExpiry trunk => Sys2Proof.Machine.execGuardTimerExpiry trunk s
  | .releaseGuardExpiry engine => Sys2Proof.Machine.execReleaseGuardExpiry engine s
  | .loopTimeoutExpiry engine => Sys2Proof.Machine.execLoopTimeoutExpiry engine s
  | .dialToneTimeout engine => Sys2Proof.Machine.execDialToneTimeout engine s
  | .blindWaitExpiry engine => Sys2Proof.Machine.execBlindWaitExpiry engine s
  | .symbolEnd engine => Sys2Proof.Machine.execSymbolEnd engine s
  | .answerTimeout engine => Sys2Proof.Machine.execAnswerTimeout engine s
  | .guardEnd engine => Sys2Proof.Machine.execGuardEnd engine s
  | .ackTimeout engine => Sys2Proof.Machine.execAckTimeout engine s
  | .ackToneHeardTimeout engine => Sys2Proof.Machine.execAckToneHeardTimeout engine s
  | .resendGuardEnd engine => Sys2Proof.Machine.execResendGuardEnd engine s
  | .loopLossExpiry engine => Sys2Proof.Machine.execLoopLossExpiry engine s
  | .levelWindowExpiry engine => Sys2Proof.Machine.execLevelWindowExpiry engine s
  | .engineAbort engine => Sys2Proof.Machine.execEngineAbort engine s
  | .holdTimerExpiry => Sys2Proof.Machine.execHoldTimerExpiry s
  | .commandExpired => Sys2Proof.Machine.execCommandExpired s
  | .periodicTestExpiry => Sys2Proof.Machine.execPeriodicTestExpiry s
  | .silenceTimerExpiry => Sys2Proof.Machine.execSilenceTimerExpiry s
  | .cellTaken => Sys2Proof.Machine.execCellTaken s
  | .alert => Sys2Proof.Machine.execAlert s
  | .tableWrite => Sys2Proof.Machine.execTableWrite s
  | .tableRead => Sys2Proof.Machine.execTableRead s
  | .queueRead => Sys2Proof.Machine.execQueueRead s
  | .statusRequest => Sys2Proof.Machine.execStatusRequest s
  | .cancel => Sys2Proof.Machine.execCancel s
  | .unknownKind => Sys2Proof.Machine.execUnknownKind s
  | .lineTest => Sys2Proof.Machine.execLineTest s
  | .testCall => Sys2Proof.Machine.execTestCall s
  | .bar => Sys2Proof.Machine.execBar s
  | .unbar => Sys2Proof.Machine.execUnbar s
  | .barAll => Sys2Proof.Machine.execBarAll s
  | .unbarAll => Sys2Proof.Machine.execUnbarAll s
  | .hold => Sys2Proof.Machine.execHold s
  | .resume => Sys2Proof.Machine.execResume s
  | .abortCalls taken => Sys2Proof.Machine.execAbortCalls taken s
  | .releaseStranded => Sys2Proof.Machine.execReleaseStranded s
  | .purge => Sys2Proof.Machine.execPurge s
  | .setNotify => Sys2Proof.Machine.execSetNotify s
  | .clearEvents => Sys2Proof.Machine.execClearEvents s
  | .init taken => Sys2Proof.Machine.execInit taken s
  | .badCommandCode => Sys2Proof.Machine.execBadCommandCode s
  | .answerEmissionStart => Sys2Proof.Machine.execAnswerEmissionStart s
  | .eventCellStart => Sys2Proof.Machine.execEventCellStart s
  | .emissionEnd => Sys2Proof.Machine.execEmissionEnd s

end Sys2Proof.Machine
end

