-- ==== Sys2Proof/Safety.lean ====
section
/-! DEFINITION. The terms the statements use: what every state of the part must satisfy, block by block (that every step keeps it
is a statement of Obligations.lean), what a step makes of a call, a test, a trunk or a record, given as relations between two
states, what a selection finds, and what the outbound cells and the table writes hold, word by word. -/

namespace Sys2Proof.Machine

/-! ### The alert queue -/

/-- R2, R3, R7, R11: handles name one record each, records stand in queue order, and of the records with one key at most
one is WAITING, HELD or STRANDED. -/
def QueueSound (s : State) : Prop :=
  (s.queue.map Record.handle).Nodup ∧
  s.queue.Pairwise (fun a b => a.cls ≤ b.cls) ∧
  ((s.queue.filter fun r => !r.state.isInCall).map Record.key).Nodup

/-- R1: a record's failures, repeat count and age stay within their ranges, and its key was in range when it was admitted. -/
def RecordsInRange (s : State) : Prop :=
  ∀ r ∈ s.queue, r.failures ≤ 15 ∧ r.repeats ≤ 15 ∧ r.age ≤ 65535 ∧ r.key.inRange = true

/-! ### Trunks and their holders -/

/-- R98: the states a trunk may have under a role. -/
def roleAllows : TrunkRole → TrunkState → Bool
  | .unused, .unmanaged => true
  | .office, .unmanaged => true
  | .shared, .idleOffice => true
  | .shared, .officeBusy => true
  | .shared, .warning => true
  | .shared, .taken => true
  | .shared, .cooldown => true
  | .reserved, .idleReserved => true
  | .reserved, .taken => true
  | .reserved, .cooldown => true
  | _, _ => false

/-- R97, R98: each trunk's state belongs to its role; it has a holder exactly in WARNING and TAKEN, a warning timer exactly
in WARNING and a guard exactly in COOLDOWN. -/
def TrunksSound (s : State) : Prop :=
  ∀ t : TrunkId,
    roleAllows (s.trunkRole t) (s.trunk t).state = true ∧
    ((s.trunk t).holder.isSome = true ↔ (s.trunk t).state = .warning ∨ (s.trunk t).state = .taken) ∧
    ((s.trunk t).warnTimer.isSome = true ↔ (s.trunk t).state = .warning) ∧
    ((s.trunk t).guard = .absent ↔ (s.trunk t).state ≠ .cooldown)

/-- R73: a trunk's holder is an engine that is not IDLE and whose call or test is on that trunk. -/
def HoldersSound (s : State) : Prop :=
  ∀ t : TrunkId, ∀ e : EngineId, (s.trunk t).holder = some e →
    (s.engine e).phase ≠ .idle ∧ (s.engine e).work.trunk = some t

/-! ### Engines and detectors -/

/-- R30: no two calls in progress have the same route. -/
def RoutesDistinct (s : State) : Prop :=
  ∀ c0 c1, s.engines.e0.work.call = some c0 → s.engines.e1.work.call = some c1 → c0.route ≠ c1.route

/-- R45 to R47: the handles of the entries that an ending of the call has still to settle, in block-list order. -/
def CallRecord.unsettled (c : CallRecord) : List Handle := (c.blocks.filter BlockEntry.open).filterMap BlockEntry.handle

/-- R68: the engine waits for the end of a tone, or of the guard, after an acknowledged block. -/
def Engine.acknowledged (x : Engine) : Bool := x.phase == .awaitAck && (x.step == .toneHeard || x.step == .guard)

/-- R36, R44, R67, R68: a call's entries are sent in order. Those before the current one are ACKED, and so is the current one
between its acknowledgement and the end of the guard; until then it is neither ACKED nor FAILED; those after it are QUEUED. -/
def CallRecord.InOrder (c : CallRecord) (acknowledged : Bool) : Prop :=
  c.current < c.blocks.length ∧
  ∀ i b, c.blocks[i]? = some b →
    (i < c.current ∨ i = c.current ∧ acknowledged = true → b.state = .acked) ∧
    (i = c.current → acknowledged = false → b.open = true) ∧
    (c.current < i → b.state = .queued)

/-- R13: a record is IN_CALL of engine `e` exactly when its handle stands in an entry, neither ACKED nor FAILED, of the block list
of the alert call of `e`, and it stands there once. R74: the entry of a test call names no record. -/
def CallsHoldRecords (s : State) : Prop :=
  ∀ e : EngineId,
    (∀ h, (∃ r ∈ s.queue, r.handle = h ∧ r.state = .inCall e) ↔ ∃ c, (s.engine e).work = .alertCall c ∧ h ∈ c.unsettled) ∧
    (∀ c, (s.engine e).work = .alertCall c → c.unsettled.Nodup ∧ c.InOrder (s.engine e).acknowledged) ∧
    ∀ c, (s.engine e).work = .testCall c → ∀ b ∈ c.blocks, b.handle = none

/-- R81, R87: a detector's bin values and run lengths stay within their ranges. -/
def Detector.Sound (d : Detector) : Prop :=
  (∀ i : Fin 6, -binLimit ≤ (vget d.bins i).prev ∧ (vget d.bins i).prev ≤ binLimit ∧
    -binLimit ≤ (vget d.bins i).prev2 ∧ (vget d.bins i).prev2 ≤ binLimit) ∧
  ∀ l ∈ d.loadings, l.classifier.length ≤ 255

def DetectorsSound (s : State) : Prop := s.engines.e0.detector.Sound ∧ s.engines.e1.detector.Sound

/-! ### Highway, channel and events -/

/-- R125: a disagreement count that has not reached 16. -/
def DebounceSound (s : State) : Prop :=
  ∀ t : TrunkId, ∀ sig : LineSignal, ((vget s.hwi.lines t).get sig).count ≤ 15

/-- R174: the inbound queue and the answer queue each hold at most 4 cells, the reply still owed for the cell in hand
counted. -/
def ChannelSound (s : State) : Prop :=
  s.ccp.inbound.length ≤ 4 ∧ s.ccp.answers.length + (if s.ccp.inHand.isSome then 1 else 0) ≤ 4

/-- R163: pending is set exactly while the count, 1..255, is above 0, and a kind's latest detail is one of that kind; so
also in the snapshot of the cell in emission, which names each kind once. -/
def EventsSound (s : State) : Prop :=
  (∀ k : EventKind, ((vget s.evr.records k).pending = true ↔ 0 < (vget s.evr.records k).count) ∧
    (vget s.evr.records k).count ≤ 255 ∧ ∀ d, (vget s.evr.records k).latest = some d → d.kind = k) ∧
  ∀ m, s.evr.emission = some m → (m.entries.map SnapEntry.kind).Nodup ∧
    ∀ n ∈ m.entries, 0 < n.count ∧ n.count ≤ 255 ∧ ∀ d, n.latest = some d → d.kind = n.kind

/-! ### Tables -/

/-- A value within a range of a field (R136). -/
def within (lo hi x : Nat) : Bool := decide (lo ≤ x) && decide (x ≤ hi)

/-- R137. -/
def SiteRecord.inRange (x : SiteRecord) : Bool :=
  within 4 8 x.account.length && within 30 100 x.symbolOn && within 30 100 x.symbolOff && within 0 20 x.generatorLevel &&
  within 0 65535 x.silenceFloor && within 100 2000 x.loopTimeout && within 50 1000 x.loopLossTime &&
  within 500 5000 x.releaseGuard && within 300 3400 x.warningFrequency && within 100 1000 x.warningOn &&
  within 100 1000 x.warningOff && within 0 168 x.periodicInterval && within 0 999 x.periodicEvent &&
  (x.silenceTime == 0 || within 10 600 x.silenceTime) && within 0 999 x.silenceEvent && within 0 999 x.lineFaultEvent &&
  within 0 65535 x.goodLevel

/-- R138. -/
def ClassEntry.inRange (x : ClassEntry) : Bool :=
  within 1 4 x.routes.length && within 0 10 x.warningTime && within 0 120 x.cancelWindow && within 1 60 x.backoffBase &&
  within 10 900 x.backoffCap && within 1 7 x.maxCycles

/-- R139. -/
def RouteEntry.inRange (x : RouteEntry) : Bool :=
  within 1 24 x.dial.length && within 1 8 x.blocksPerCall && within 1 4 x.blockTries && within 2 5 x.fallbackAfter &&
  within 10 90 x.answerTimeout && within 5 50 x.ackTimeout

/-- R140. -/
def TrunkEntry.inRange (x : TrunkEntry) : Bool := within 0 28 x.slot

/-- R141. -/
def Component.inRange (x : Component) : Bool :=
  decide (-32768 ≤ x.coefficient) && decide (x.coefficient ≤ 32767) && within 0 65535 x.threshold && within 0 63 x.ratio

/-- R141. -/
def ToneEntry.inRange (x : ToneEntry) : Bool := within 1 2 x.components && x.first.inRange && x.second.inRange

/-- R142: each field in its range, and each pair in order, an off max of 0 apart. -/
def CadenceEntry.inRange (x : CadenceEntry) : Bool :=
  within 1 255 x.onMin && within x.onMin 255 x.onMax && within 1 255 x.offMin &&
  (x.offMax == 0 || within x.offMin 255 x.offMax) && within 1 4 x.cyclesRequired

/-- An entry that is in range if it is there. -/
def ifPresent {α : Type} (p : α → Bool) : Option α → Bool
  | none => true
  | some x => p x

/-- R136 to R142: every loaded entry and every staged write holds values within the ranges of its fields. -/
def TablesInRange (s : State) : Prop :=
  ifPresent SiteRecord.inRange s.tables.site = true ∧
  (∀ c : ClassId, ifPresent ClassEntry.inRange (vget s.tables.classes c) = true) ∧
  (∀ r : RouteId, ifPresent RouteEntry.inRange (vget s.tables.routes r).applied = true ∧
    ifPresent RouteEntry.inRange (vget s.tables.routes r).staged = true) ∧
  (∀ t : TrunkId, ifPresent TrunkEntry.inRange (vget s.tables.trunks t).applied = true ∧
    ifPresent TrunkEntry.inRange (vget s.tables.trunks t).staged = true) ∧
  (∀ t : ToneId, ifPresent ToneEntry.inRange (vget s.tables.tones t).applied = true ∧
    ifPresent ToneEntry.inRange (vget s.tables.tones t).staged = true) ∧
  ∀ c : CadenceId, ifPresent CadenceEntry.inRange (vget s.tables.cadences c).applied = true ∧
    ifPresent CadenceEntry.inRange (vget s.tables.cadences c).staged = true

/-- R140: no two trunks with a role other than UNUSED name the same audio slot in their applied entries or staged
writes. -/
def SlotsDistinct (s : State) : Prop :=
  ∀ t u : TrunkId, t ≠ u →
    ∀ a ∈ [(vget s.tables.trunks t).applied, (vget s.tables.trunks t).staged],
    ∀ b ∈ [(vget s.tables.trunks u).applied, (vget s.tables.trunks u).staged],
    ∀ x y, a = some x → b = some y → x.role ≠ .unused → y.role ≠ .unused → x.slot ≠ y.slot

/-- R49, R73: an IDLE engine holds nothing: every field is as after power-on reset but for its detector, whose loadings are
all STOPPING. -/
def IdleEnginesEmpty (s : State) : Prop :=
  ∀ e : EngineId, (s.engine e).phase = .idle →
    s.engine e = { Engine.reset with detector := (s.engine e).detector } ∧
    ∀ l ∈ (s.engine e).detector.loadings, l.status = .stopping

/-! ### What a command leaves as it is -/

/-- The commands waiting, the reset pin, the timebase, the highway and the control channel are as they were. -/
structure SameEdge (s t : State) : Prop where
  pending : t.pending = s.pending
  resetLow : t.resetLow = s.resetLow
  clock : t.clock = s.clock
  hwi : t.hwi = s.hwi
  ccp : t.ccp = s.ccp

/-- The parts of the tables, the scheduler, the Command Unit and the Event Reporter that no end of a use of a tone or cadence
entry changes: a staged write of such an entry may be applied (R145), with its TABLE_APPLIED and its cause to select. -/
structure SameButToneTables (s t : State) : Prop where
  edge : SameEdge s t
  queue : t.queue = s.queue
  site : t.tables.site = s.tables.site
  classes : t.tables.classes = s.tables.classes
  routes : t.tables.routes = s.tables.routes
  trunkEntries : t.tables.trunks = s.tables.trunks
  hold : t.dsc.hold = s.dsc.hold
  noTrunk : t.dsc.noTrunk = s.dsc.noTrunk
  startOrder : t.dsc.startOrder = s.dsc.startOrder
  marked : t.dsc.marked = s.dsc.marked
  slot : t.cmu.slot = s.cmu.slot
  results : t.cmu.results = s.cmu.results
  silent : t.cmu.silent = s.cmu.silent
  silenceTimer : t.cmu.silenceTimer = s.cmu.silenceTimer
  events : ∀ k : EventKind, k ≠ 12 → vget t.evr.records k = vget s.evr.records k
  emission : t.evr.emission = s.evr.emission

/-- The block list of an engine's call grown by late joins (R36) and nothing else of the engine changed. -/
def OnlyJoined (x y : Engine) : Prop :=
  ∃ hs : List Handle,
    y = { x with work := x.work.mapCall fun c => { c with blocks := c.blocks ++ hs.map fun h => ⟨some h, .queued⟩ } }

/-- R143: the engine's call is on the route, or a live loading of its detector was copied from the tone or cadence entry. -/
def Engine.names (x : Engine) : TableRef → Bool
  | .route r =>
    match x.work.call with
    | some c => c.route == r
    | none => false
  | .tone k => x.detector.loadings.any fun l => l.live && l.tone == k
  | .cadence k => x.detector.loadings.any fun l => l.live && l.cadence == k
  | .site => false
  | .cls _ => false
  | .trunk _ => false

/-- R143, R145: engine `e` alone has loadings of this tone or cadence entry. -/
def State.lastLoaded (s : State) (e : EngineId) : TableRef → Bool
  | .tone k => (s.engine e).names (.tone k) && !(s.engine (other e)).names (.tone k)
  | .cadence k => (s.engine e).names (.cadence k) && !(s.engine (other e)).names (.cadence k)
  | .site => false
  | .cls _ => false
  | .route _ => false
  | .trunk _ => false

/-- R107, R143, R145: the entries whose use ends as engine `e` goes through CLOSING: its call's route, the tone and cadence
entries of its loadings, and the trunk that it holds in WARNING, each used by no one else. -/
def State.lastUse (s : State) (e : EngineId) : TableRef → Bool
  | .route r => (s.engine e).names (.route r) &&
      !((s.engine (other e)).phase != .closing && (s.engine (other e)).names (.route r))
  | .trunk u => (s.engine e).work.trunk == some u && (s.trunk u).holder == some e && (s.trunk u).state == .warning
  | .tone k => s.lastLoaded e (.tone k)
  | .cadence k => s.lastLoaded e (.cadence k)
  | .site => false
  | .cls _ => false

/-- R63, R80, R143, R145: the tone and cadence entries whose use ends as engine `e` releases every loading but that of tone entry
`kept`: of those it had loaded, the ones that neither the loading it keeps nor the other engine uses. -/
def State.lastReleased (s : State) (e : EngineId) (kept : ToneId) : TableRef → Bool
  | .tone k => k != kept && s.lastLoaded e (.tone k)
  | .cadence k => s.lastLoaded e (.cadence k) &&
      !(s.engine e).detector.loadings.any fun l => l.live && l.tone == kept && l.cadence == k
  | .site => false
  | .cls _ => false
  | .route _ => false
  | .trunk _ => false

/-- R145: an entry whose last use may have ended: a staged write is then its contents. -/
def Staged.settled {α : Type} (x : Staged α) (ended : Bool) : Staged α :=
  match x.staged with
  | some w => if ended then ⟨some w, none⟩ else x
  | none => x

/-- R145: the staged writes of the entries whose last use has ended are applied, with TABLE_APPLIED, and every other entry of the
four tables that hold staged writes is as it was. -/
structure UsesEnded (ended : TableRef → Bool) (s t : State) : Prop where
  routes : ∀ r : RouteId, vget t.tables.routes r = (vget s.tables.routes r).settled (ended (.route r))
  trunks : ∀ u : TrunkId, vget t.tables.trunks u = (vget s.tables.trunks u).settled (ended (.trunk u))
  tones : ∀ k : ToneId, vget t.tables.tones k = (vget s.tables.tones k).settled (ended (.tone k))
  cadences : ∀ k : CadenceId, vget t.tables.cadences k = (vget s.tables.cadences k).settled (ended (.cadence k))
  told : ∀ ref w, s.tables.stagedWrite ref = some w → ended ref = true → (vget t.evr.records 12).pending = true

/-- R56, R70, R73: engine `e` has gone through CLOSING: it is IDLE with nothing left but its loadings, all STOPPING (its reports
not taken are discarded: log 12; its generator sends nothing: log 27); its trunk, if it held it, is released; its call has left the start order and a
mark on it is gone; a selection is due. R145: a staged write of an entry of which it was the last user is applied, with
TABLE_APPLIED. The channel, the highway, the other trunks and table entries and, but for late joins, the other engine are as
they were. -/
structure Closed (e : EngineId) (s t : State) : Prop where
  edge : SameEdge s t
  engine : t.engine e = { Engine.reset with detector := (s.engine e).detector.release fun _ => true }
  other : ∀ f : EngineId, f ≠ e → OnlyJoined (s.engine f) (t.engine f)
  trunks : ∀ u : TrunkId, (s.engine e).work.trunk ≠ some u → t.trunk u = s.trunk u
  released : ∀ u : TrunkId, (s.engine e).work.trunk = some u → (s.trunk u).holder = some e →
    ((s.trunk u).state = .taken →
      (t.trunk u).state = .cooldown ∧ (t.trunk u).holder = none ∧
        (t.trunk u).guard = .running (ticksOfMs s.siteOr.releaseGuard)) ∧
    ((s.trunk u).state = .warning → (t.trunk u).holder = none ∧ (t.trunk u).warnTimer = none)
  hold : t.dsc.hold = s.dsc.hold
  noTrunk : t.dsc.noTrunk = s.dsc.noTrunk
  startOrder : t.dsc.startOrder = s.dsc.startOrder.filter fun f => f != e
  marked : t.dsc.marked = if s.dsc.marked = some e then none else s.dsc.marked
  selection : s.dsc.selectionsDue < t.dsc.selectionsDue
  site : t.tables.site = s.tables.site
  classes : t.tables.classes = s.tables.classes
  uses : UsesEnded (s.lastUse e) s t
  silent : t.cmu.silent = s.cmu.silent
  silenceTimer : t.cmu.silenceTimer = s.cmu.silenceTimer
  emission : t.evr.emission = s.evr.emission

/-! ### What the Trunk Manager makes of a failure or of a test -/

/-- The trunk's count and flag, and the events of its faults, are as they were. -/
structure FlagsKept (u : TrunkId) (s t : State) : Prop where
  failures : (t.trunk u).failures = (s.trunk u).failures
  faulted : (t.trunk u).faulted = (s.trunk u).faulted
  fault : vget t.evr.records 5 = vget s.evr.records 5
  cleared : vget t.evr.records 6 = vget s.evr.records 6

/-- R113: a line failure counted on the trunk: the count rises, to 2; one that brings it to 2 on a trunk not faulted, and no
other, makes it faulted, with TRUNK_FAULT of cause COUNT. -/
structure FailureCounted (u : TrunkId) (s t : State) : Prop where
  failures : (t.trunk u).failures = min ((s.trunk u).failures + 1) 2
  below : (s.trunk u).failures = 0 ∨ (s.trunk u).faulted = true →
    (t.trunk u).faulted = (s.trunk u).faulted ∧ vget t.evr.records 5 = vget s.evr.records 5
  second : 1 ≤ (s.trunk u).failures → (s.trunk u).faulted = false →
    (t.trunk u).faulted = true ∧ vget t.evr.records 5 = (vget s.evr.records 5).occur (.trunkFault u .count)
  cleared : vget t.evr.records 6 = vget s.evr.records 6

/-- R113: what a call that fails with this cause makes of its trunk: a line failure is counted, and any other changes nothing. -/
def FlagsAfterCall (u : TrunkId) (cause : CallOutcome) (s t : State) : Prop :=
  (cause ∈ [CallOutcome.noLoop, .cardFault, .noDialTone, .lineLost] → FailureCounted u s t) ∧
  (cause ∉ [CallOutcome.noLoop, .cardFault, .noDialTone, .lineLost] → FlagsKept u s t)

/-- R115: what a line test's code makes of the trunk. PASS and PASS_REVERSED clear the count and, with F absent, the flag, with
TRUNK_CLEARED if it was set; NO_LOOP, CARD_FAULT, NO_DIAL_TONE and LOW_TONE set the flag, with TRUNK_FAULT of cause TEST if it
was clear, and leave the count; ABORTED changes nothing. The alert of a cleared trunk is said apart (LineAlertOffered). -/
def TestCodeTaken (u : TrunkId) (code : TestCode) (s t : State) : Prop :=
  (code ∈ [TestCode.pass, .passReversed] →
    (t.trunk u).failures = 0 ∧ vget t.evr.records 5 = vget s.evr.records 5 ∧
    ((s.trunk u).faulted = true → s.debounced u .f = false →
      (t.trunk u).faulted = false ∧ vget t.evr.records 6 = (vget s.evr.records 6).occur (.trunkCleared u)) ∧
    ((s.trunk u).faulted = false ∨ s.debounced u .f = true →
      (t.trunk u).faulted = (s.trunk u).faulted ∧ vget t.evr.records 6 = vget s.evr.records 6)) ∧
  (code ∈ [TestCode.noLoop, .cardFault, .noDialTone, .lowTone] →
    (t.trunk u).failures = (s.trunk u).failures ∧ (t.trunk u).faulted = true ∧
    vget t.evr.records 5 = (if (s.trunk u).faulted then vget s.evr.records 5
      else (vget s.evr.records 5).occur (.trunkFault u .test)) ∧
    vget t.evr.records 6 = vget s.evr.records 6) ∧
  (code = .aborted → FlagsKept u s t)

/-! ### What a call or test that ends makes of what its engine holds -/

/-- What a failure of this cause, or of this line-test code, makes of what engine `e` holds (R70, R45, R46, R74, R157,
R158): an alert call raises CALL_FAILED; a test call empties the slot with TEST_CALL_DONE; a line test writes its result,
empties the slot and raises LINE_TEST_DONE. The engine has gone through CLOSING. On the trunk that it held in TAKEN a call's line
failure is counted (R113), and a line test's code taken (R115). -/
def Ended (e : EngineId) (cause : CallOutcome) (code : TestCode) (s t : State) : Prop :=
  Closed e s t ∧
  (∀ c, (s.engine e).work.call = some c → (s.trunk c.trunk).state = .taken → (s.trunk c.trunk).holder = some e →
    FlagsAfterCall c.trunk cause s t) ∧
  match (s.engine e).work with
  | .alertCall c =>
    vget t.evr.records 1 = (vget s.evr.records 1).occur (.callFailed c.route c.trunk cause) ∧
      t.cmu.slot = s.cmu.slot ∧ t.cmu.results = s.cmu.results
  | .testCall c =>
    (c.blocks.all fun b => b.state != .acked) = true →
      vget t.evr.records 9 = (vget s.evr.records 9).occur (.testCallDone c.route cause) ∧
        t.cmu.slot = .empty ∧ t.cmu.results = s.cmu.results
  | .lineTest r =>
    vget t.evr.records 8 = (vget s.evr.records 8).occur
        (.lineTestDone r.trunk code (if code.measured then r.peak else 0) r.loopDelay) ∧
      t.cmu.slot = .empty ∧
      t.cmu.results = vput s.cmu.results r.trunk ⟨true, code, if code.measured then r.peak else 0, r.loopDelay⟩ ∧
      ((s.trunk r.trunk).state = .taken → (s.trunk r.trunk).holder = some e → TestCodeTaken r.trunk code s t)
  | .nothing => True

/-- What a stop without a cause makes of what engine `e` holds (R47, R71, R72): no CALL_FAILED; a test call empties the slot
with TEST_CALL_DONE of this outcome; a line test ends with the code ABORTED. The engine has gone through CLOSING. Nothing is
counted on the trunk that it held in TAKEN (R113, R115). -/
def Stopped (e : EngineId) (outcome : CallOutcome) (s t : State) : Prop :=
  Closed e s t ∧
  (∀ u, (s.engine e).work.trunk = some u → (s.trunk u).state = .taken → (s.trunk u).holder = some e → FlagsKept u s t) ∧
  match (s.engine e).work with
  | .alertCall _ =>
    vget t.evr.records 1 = vget s.evr.records 1 ∧ t.cmu.slot = s.cmu.slot ∧ t.cmu.results = s.cmu.results
  | .testCall c =>
    (c.blocks.all fun b => b.state != .acked) = true →
      vget t.evr.records 9 = (vget s.evr.records 9).occur (.testCallDone c.route outcome) ∧
        t.cmu.slot = .empty ∧ t.cmu.results = s.cmu.results
  | .lineTest r =>
    vget t.evr.records 8 = (vget s.evr.records 8).occur (.lineTestDone r.trunk .aborted 0 r.loopDelay) ∧
      t.cmu.slot = .empty ∧ t.cmu.results = vput s.cmu.results r.trunk ⟨true, .aborted, 0, r.loopDelay⟩
  | .nothing => True

/-- R167, R178: the event record of a kind as a loss of sync leaves it before the engines stop: what an EVENT cell in emission
carried of the kind has been given back. -/
def State.recordAtLoss (s : State) (k : EventKind) : EventRecord :=
  match s.ccp.emitter, s.evr.emission with
  | .emitting .event (_ :: _), some cell =>
    match cell.entries.find? fun n => n.kind == k && cell.restore.contains k with
    | some n => { vget s.evr.records k with pending := true, count := min ((vget s.evr.records k).count + n.count) 255 }
    | none => vget s.evr.records k
  | _, _ => vget s.evr.records k

/-- R72, R157, R158: what an abort of both engines makes of the slot's command, the results and the events 8 and 9, `before`
being an event record as the aborts found it. An engine of `taken` that ran a test which the abort reaches has ended it: a line
test with LINE_TEST_DONE and its result of code ABORTED, a test call with TEST_CALL_DONE, DELIVERED if its block had been
acknowledged (log 9) and ABORTED otherwise, and the slot is EMPTY. Where none did, the results and the two events stand. A slot
holds one command, so one engine runs a test. -/
def TestsAborted (s t : State) (taken : EngineSet) (reaches : Work → Bool) (before : EventKind → EventRecord) : Prop :=
  (∀ e, takes taken e = true → (s.engine e).phase ≠ .closing → reaches (s.engine e).work = true →
    ((s.engine (other e)).work = .nothing ∨ (s.engine (other e)).work.isAlertCall = true) →
    (∀ r, (s.engine e).work = .lineTest r →
      t.cmu.slot = .empty ∧ t.cmu.results = vput s.cmu.results r.trunk ⟨true, .aborted, 0, r.loopDelay⟩ ∧
      vget t.evr.records 8 = (before 8).occur (.lineTestDone r.trunk .aborted 0 r.loopDelay) ∧
      vget t.evr.records 9 = before 9) ∧
    ∀ c, (s.engine e).work = .testCall c →
      t.cmu.slot = .empty ∧ t.cmu.results = s.cmu.results ∧
      vget t.evr.records 9 = (before 9).occur (.testCallDone c.route
        (if c.blocks.any fun b => b.state == .acked then .delivered else .aborted)) ∧
      vget t.evr.records 8 = before 8) ∧
  ((∀ e, takes taken e = false ∨ (s.engine e).phase = .closing ∨ reaches (s.engine e).work = false ∨
      (s.engine e).work = .nothing ∨ (s.engine e).work.isAlertCall = true) →
    t.cmu.results = s.cmu.results ∧ vget t.evr.records 8 = before 8 ∧ vget t.evr.records 9 = before 9)

/-! ### What becomes of the records of a call that ends -/

/-- R46: engine `e` holds an alert call, and the command is one at which the line fails: no loop, no dial tone, a loop lost, a
reorder tone in place of dial tone, or a card fault at the entry to SEIZE or later. -/
def LineFails (s : State) (e : EngineId) (c : CallRecord) (cmd : Instr) : Prop :=
  (s.engine e).acts = true ∧
  ((cmd = .loopTimeoutExpiry e ∧ (s.engine e).phaseTimer = some 0 ∧ (s.engine e).phase = .seize) ∨
  (cmd = .dialToneTimeout e ∧ (s.engine e).phaseTimer = some 0 ∧ (s.engine e).phase = .dialTone ∧
    (s.engine e).step = .listen) ∨
  (cmd = .loopLossExpiry e ∧ (s.engine e).lossTimer = some 0 ∧ (s.engine e).phase.supervised = true) ∨
  (∃ tone, cmd = .dialToneMatchedTaken e tone ∧ Report.matched tone ∈ (s.engine e).reports ∧
    (s.engine e).phase = .dialTone ∧ (s.engine e).step = .listen ∧ (s.engine e).roleOf tone = some .reorder) ∨
  (cmd = .releaseGuardExpiry e ∧ (s.engine e).phaseTimer = some 0 ∧ (s.engine e).phase = .clear ∧
    s.debounced c.trunk .f = true) ∨
  (∃ order s1, cmd = .debouncedFChange c.trunk order ∧ s.takeDelivery c.trunk .f = some (true, s1) ∧
    s.managed c.trunk = true ∧ (s.trunk c.trunk).state = .taken ∧ (s.trunk c.trunk).holder = some e ∧
    ((s.engine e).phase = .seize ∨ (s.engine e).phase.supervised = true)))

/-- R47: the command stops the alert call of engine `e` without a cause: its abort, or its mark at a safe point or at an
acknowledgement timeout. -/
def CallStops (s : State) (e : EngineId) (c : CallRecord) (cmd : Instr) : Prop :=
  (cmd = .engineAbort e ∧ (s.engine e).abort.isSome = true) ∨
  ((s.engine e).acts = true ∧ c.preempt = true ∧
    ((cmd = .preemptMarkTaken e ∧ (s.engine e).safePoint = true) ∨
    (cmd = .ackTimeout e ∧ (s.engine e).phaseTimer = some 0 ∧ (s.engine e).phase = .awaitAck ∧ (s.engine e).step = .listen)))

/-- R45: the command is one at which the far end fails the alert call of engine `e`: busy, congestion, no answer, no
acknowledgement at the last try, or the far end cleared. -/
def FarEndFails (s : State) (e : EngineId) (c : CallRecord) (cmd : Instr) : Prop :=
  (s.engine e).acts = true ∧
  ((∃ tone, cmd = .answerMatchedTaken e tone ∧ Report.matched tone ∈ (s.engine e).reports ∧
    (s.engine e).phase = .awaitAnswer ∧ (s.engine e).step = .listen ∧
    ((s.engine e).roleOf tone = some .busy ∨ (s.engine e).roleOf tone = some .reorder)) ∨
  (cmd = .answerTimeout e ∧ (s.engine e).phaseTimer = some 0 ∧ (s.engine e).phase = .awaitAnswer ∧
    ((s.engine e).step = .listen ∨ (s.engine e).step = .toneHeard)) ∨
  (cmd = .ackTimeout e ∧ (s.engine e).phaseTimer = some 0 ∧ (s.engine e).phase = .awaitAck ∧ (s.engine e).step = .listen ∧
    c.preempt = false ∧ (s.routeOr c.route).blockTries ≤ c.tries) ∨
  (∃ v s1, cmd = .debouncedVChange c.trunk ∧ s.takeDelivery c.trunk .v = some (v, s1) ∧ s.managed c.trunk = true ∧
    (s.trunk c.trunk).state = .taken ∧ (s.trunk c.trunk).holder = some e ∧ (s.engine e).polRef = some (!v)))

/-- R16: the record of this handle has been merged into another record of its key, which is protected now. -/
def MergedAway (t : State) (h : Handle) (k : Key) : Prop :=
  t.findRecord h = none ∧
    ∃ v ∈ t.queue, v.key = k ∧ v.handle ≠ h ∧ v.isProtected = true ∧ v.state.isInCall = false

/-- R16: what the merge leaves of the one record with the key of a record that has left its call, where no other record of that
key leaves it: the survivor's repeat count grows by 1 and the leaving record's, and it is protected. -/
def Survives (s t : State) (c : CallRecord) (h : Handle) (r : Record) : Prop :=
  ∀ v ∈ s.queue, v.key = r.key → v.state.isInCall = false →
    MergedAway t h r.key ∧
    ((∀ g ∈ c.unsettled, g ≠ h → ∀ x, s.findRecord g = some x → x.key ≠ r.key) →
      t.findRecord v.handle = some { v with repeats := min (v.repeats + 1 + r.repeats) 15, isProtected := true })

/-- R47, R15, R16: each record that an alert call stopped by an engine of `taken` has still to settle is WAITING with its
counts, or in the other engine's call, or merged. -/
def AbortedSettled (s t : State) (taken : EngineSet) : Prop :=
  ∀ e c, takes taken e = true → (s.engine e).work = .alertCall c → (s.engine e).phase ≠ .closing →
    ∀ h ∈ c.unsettled, ∀ r, s.findRecord h = some r → r.state = .inCall e →
      (∃ st n p, t.findRecord h = some { r with state := st, repeats := n, isProtected := p } ∧
        (st = .waiting ∨ st = .inCall (other e))) ∨
      MergedAway t h r.key

/-- Every record whose key is not that of a record the call has to settle is as it was. -/
def OthersKept (s t : State) (c : CallRecord) : Prop :=
  ∀ x ∈ s.queue, (∀ h ∈ c.unsettled, ∀ r, s.findRecord h = some r → r.key ≠ x.key) → x ∈ t.queue

/-- R12, R113, R115: the trunk-fault (NEW) or trunk-cleared (RESTORE) alert of trunk `u` has been offered as `s` stands, class
TROUBLE, source 0, zone `u` + 1 and the site record's line fault event code; what an offer makes of the queue is in AlertAdmission
and AlertMeetsRecord. An engine `e` that held no alert call leaves the queue, and the other engine, as the offer does; one that
held an alert call settles its records, and every other record stands as the offer leaves it. -/
def LineAlertOffered (u : TrunkId) (q : Qualifier) (e : EngineId) (s t : State) : Prop :=
  ∀ m, m = s.internalAlert ⟨0, u.val + 1, s.siteOr.lineFaultEvent, q⟩ 4 →
    vget t.evr.records 4 = vget m.evr.records 4 ∧
    ((s.engine e).work.isAlertCall = false → t.queue = m.queue ∧ t.engine (other e) = m.engine (other e)) ∧
    (QueueSound s → ∀ c, (m.engine e).work = .alertCall c → OthersKept m t c)

/-- R113: a call's line failure that is the trunk's second, on a trunk not faulted, offers the trunk-fault alert. -/
def SecondFailureAlerts (e : EngineId) (s t : State) : Prop :=
  ∀ c, (s.engine e).work.call = some c → 1 ≤ (s.trunk c.trunk).failures → (s.trunk c.trunk).faulted = false →
    LineAlertOffered c.trunk .new e s t

/-! ### What an engine does next -/

/-- R79: the detector can take up a tone entry: it is valid, and so is the cadence entry it refers to. -/
def State.loadable (s : State) (k : ToneId) : Bool :=
  match (vget s.tables.tones k).applied with
  | some en => (vget s.tables.cadences en.cadence).applied.isSome
  | none => false

/-- R79: a loading as it is when its entry has just been named: STARTING, with copies of the tone entry and of the cadence entry
it refers to, a fresh classifier and both watches off; it has no bins until the next boundary. -/
structure FreshLoading (s : State) (l : Loading) : Prop where
  copy : (vget s.tables.tones l.tone).applied = some l.copy
  cadence : l.cadence = l.copy.cadence
  cadenceCopy : (vget s.tables.cadences l.copy.cadence).applied = some l.cadenceCopy
  status : l.status = .starting
  classifier : l.classifier =
    { onRun := false, length := 0, disagree := false, verdict := .none, cycles := 0, continuousMatch := false }
  watches : l.absence = none ∧ l.levelWatch = false
  bins : l.bins = []

/-- R56, R79: engine `x` has named the entries of a listening step, with the tables of `s`, and has become `y`: it listens for the
valid ones in their roles, and its detector has taken each of them up once, beside the loadings it had. -/
structure NamesTones (s : State) (roles : List (ToneRole × ToneId)) (x y : Engine) : Prop where
  listening : y.listening = roles.filter fun p => s.loadable p.2
  loaded : ∃ new : List Loading, y.detector = { x.detector with loadings := x.detector.loadings ++ new } ∧
    (new.map Loading.tone).Nodup ∧
    (∀ k, k ∈ new.map Loading.tone ↔ s.loadable k = true ∧ ∃ role, (role, k) ∈ roles) ∧
    ∀ l ∈ new, FreshLoading s l

/-- R59, R60, R62, R56: engine `x` of state `s` goes on at a position of its route's dial string and has become `y`: a tone or a
pause is being sent, a W has brought it back to DIALTONE, LISTEN, one position on, or the string is at its end and it is in
AWAIT_ANSWER, LISTEN; in a LISTEN step the entries of the step are named. What the generator holds while it sends nothing, and
beside its timer during a pause, is the model's choice (log 27). -/
def DialsFrom (s : State) (route : RouteId) (pos : Nat) (x y : Engine) : Prop :=
  match (s.routeOr route).dial[pos]? with
  | some (.tone v) =>
    y = { x with phase := .dialing, step := .none, phaseTimer := none, dialPos := pos,
                 generator := Generator.start s.siteOr (Fin.castLE (by decide) v) }
  | some .pause =>
    y = { x with phase := .dialing, step := .none, phaseTimer := none, dialPos := pos, generator := Generator.startPause }
  | some .wait =>
    y = { x with phase := .dialTone, step := .listen, phaseTimer := some 400, dialPos := pos + 1,
                 generator := Generator.silent, listening := y.listening, detector := y.detector } ∧
      (x.work.isLineTest = false →
        NamesTones s [(ToneRole.dialTone, s.siteOr.dialTone), (ToneRole.reorder, s.siteOr.reorderTone)] x y)
  | none =>
    y = { x with phase := .awaitAnswer, step := .listen, phaseTimer := some ((s.routeOr route).answerTimeout * 100),
                 dialPos := pos, generator := Generator.silent, listening := y.listening, detector := y.detector } ∧
      NamesTones s [(ToneRole.busy, s.siteOr.busyTone), (ToneRole.reorder, s.siteOr.reorderTone),
        (ToneRole.handshake, (s.routeOr route).handshakeTone)] x y

/-- R67: the engine sends this block as one more try of its current entry. -/
def Engine.sendsBlock (x : Engine) (site : SiteRecord) (block : List (Fin 16)) : Engine :=
  { x with
    phase := .sendBlock
    step := .none
    phaseTimer := none
    work := x.work.mapCall fun c =>
      { c with tries := c.tries + 1, blocks := c.blocks.modify c.current fun b => { b with state := .sending } }
    sending := block.tail
    generator := match block with
      | v :: _ => Generator.start site v
      | [] => Generator.silent }

/-- R56, R63, R68: a listening step has ended and a 250 ms guard step begins: nothing is listened for, every loading is STOPPING,
and the reports not taken are discarded (log 12). -/
def Engine.guarding (x : Engine) (step : Step) : Engine :=
  { x with step := step, phaseTimer := some 25, listening := [], reports := [],
           detector := x.detector.release fun _ => true }


/-! ### What a selection finds -/

/-- R29: the route at position `p` of the record's list is the first valid one, from the record's own position to the end and
then from 0. -/
def State.nextRoute (s : State) (r : Record) (ce : ClassEntry) (p : Nat) (rt : RouteId) : Prop :=
  ce.routes[p]? = some rt ∧ s.routeValid rt = true ∧
  ∀ i ri, ce.routes[i]? = some ri →
    r.routePos ≤ i ∧ i < p ∨ p < r.routePos ∧ (r.routePos ≤ i ∨ i < p) → s.routeValid ri = false

/-- R29: a record asked to stand at position `p`: its route failures are cleared if that is another position. -/
def Record.standsAt (r : Record) (p : Nat) : Record :=
  { r with routePos := p, routeFailures := if p = r.routePos then r.routeFailures else 0 }

/-- R31: a WAITING record, valid where it stands, whose route is free and whose class's mode no trunk is grantable under. -/
def State.refusedTrunk (s : State) (x : Record) : Prop :=
  x.state = .waiting ∧ ∃ cx rx, s.classEntry x.cls = some cx ∧ cx.routes[x.routePos]? = some rx ∧ s.routeValid rx = true ∧
    s.callOn rx = none ∧ ∀ u, s.grantable cx.preemptMode u = false

/-- R29 to R31: a record that the walk passes over without moving it: not WAITING, of an invalid class entry, with no valid route,
on a route with a call, or refused a trunk. -/
def State.passedOver (s : State) (x : Record) : Prop :=
  x.state ≠ .waiting ∨ s.classEntry x.cls = none ∨
  (∃ cx, s.classEntry x.cls = some cx ∧ ∀ rx ∈ cx.routes, s.routeValid rx = false) ∨
  (∃ cx rx, s.classEntry x.cls = some cx ∧ cx.routes[x.routePos]? = some rx ∧ s.routeValid rx = true ∧
    (s.callOn rx).isSome = true) ∨
  s.refusedTrunk x

/-- R33: the handles of the block list of a call built for record `r` on route `rt`: `r` itself, then every other WAITING record
that stands on the route, in queue order, to the route's blocks per call. -/
def State.blockHandles (s : State) (r : Record) (rt : RouteId) : List Handle :=
  (r.handle :: (s.queue.filter fun x => x.handle != r.handle && x.state == .waiting &&
    (s.classEntry x.cls).bind (fun k => k.routes[x.routePos]?) == some rt).map Record.handle).take (s.routeOr rt).blocksPerCall

/-- R13, R29, R33: the queue once a call of engine `e` has taken the records of these handles, `r` among them at position `p`: they
are IN_CALL and protected; every other record stands as it was, but that the pre-emption check after the selection may have moved
a record whose route is not valid. -/
structure RecordsTaken (s t : State) (e : EngineId) (r : Record) (p : Nat) (took : List Handle) : Prop where
  order : t.queue.map Record.handle = s.queue.map Record.handle
  taken : ∀ x ∈ s.queue, x.handle ∈ took → t.findRecord x.handle = some
    { (if x.handle = r.handle then x.standsAt p else x) with state := .inCall e, isProtected := true }
  others : ∀ x ∈ s.queue, x.handle ∉ took → ∃ i n, t.findRecord x.handle = some { x with routePos := i, routeFailures := n } ∧
    (x.state ≠ .waiting ∨ (∃ cx rx, s.classEntry x.cls = some cx ∧ cx.routes[x.routePos]? = some rx ∧ s.routeValid rx = true) →
      i = x.routePos ∧ n = x.routeFailures)

/-! ### The bodies of the outbound cells -/

/-- R183: an ANSWER's word 1 holds the echoed kind in bits 11-8 and the result code in bits 3-0; the detail follows. The bits the
layout does not name are 0 (log 11). -/
def AnswerBodies : Prop :=
  ∀ result code, (result, code) ∈ [(Result.accepted, 0), (.acceptedEvicting, 1), (.coalesced, 2), (.cancelled, 3),
      (.queueFull, 4), (.clamped, 5), (.staged, 6), (.refused, 7), (.pending, 8), (.done, 9), (.slotBusy, 10), (.tooLate, 11),
      (.nothingPending, 12), (.busy, 13), (.badArgument, 14), (.unknownKind, 15)] →
    ∀ (echo : Nat) (detail : List Word), answerBody echo result detail = BitVec.ofNat 16 (echo * 256 + code) :: detail

/-- R183: word 1 of TABLE_DATA is the addressing word, with bit 15 set when the entry is loaded and bit 14 when it holds a staged
write, and the cell has the length of a write to its table. R146: a write with that body gives the applied entry again, with no
field clamped; an entry that is not loaded is sent as zeros. Positions beyond a stated length are 0 (log 10). -/
def TableBodies (s : State) : Prop :=
  (∀ (ref : TableRef) (table entry length : Nat) (loaded staged : Bool),
    (table, entry, length, loaded, staged) = (match ref with
      | .site => (0, 0, 26, s.tables.site.isSome, false)
      | .cls k => (1, k.val, 13, (vget s.tables.classes k).isSome, false)
      | .route k => (2, k.val, 19, (vget s.tables.routes k).applied.isSome, (vget s.tables.routes k).staged.isSome)
      | .trunk k => (3, k.val, 3, (vget s.tables.trunks k).applied.isSome, (vget s.tables.trunks k).staged.isSome)
      | .tone k => (4, k.val, 13, (vget s.tables.tones k).applied.isSome, (vget s.tables.tones k).staged.isSome)
      | .cadence k => (5, k.val, 6, (vget s.tables.cadences k).applied.isSome, (vget s.tables.cadences k).staged.isSome)) →
    ∃ ws, s.tables.tableBody ref = BitVec.ofNat 16
        ((if loaded then 32768 else 0) + (if staged then 16384 else 0) + table * 256 + entry) :: ws ∧
      ws.length + 1 = length ∧ (loaded = false → ws = List.replicate ws.length 0)) ∧
  (TablesInRange s → SlotsDistinct s → ∀ (header : Word) (read : TableRef → InCell),
    (∀ ref, read ref = ⟨header, s.tables.tableBody ref⟩) →
    (∀ en, s.tables.site = some en → (read .site).parseWrite s.tables = .ok ⟨.site en, []⟩) ∧
    (∀ k en, vget s.tables.classes k = some en → (read (.cls k)).parseWrite s.tables = .ok ⟨.cls k en, []⟩) ∧
    (∀ k en, (vget s.tables.routes k).applied = some en → (read (.route k)).parseWrite s.tables = .ok ⟨.route k en, []⟩) ∧
    (∀ k en, (vget s.tables.trunks k).applied = some en → (read (.trunk k)).parseWrite s.tables = .ok ⟨.trunk k en, []⟩) ∧
    (∀ k en, (vget s.tables.tones k).applied = some en → (read (.tone k)).parseWrite s.tables = .ok ⟨.tone k en, []⟩) ∧
    ∀ k en, (vget s.tables.cadences k).applied = some en →
      (read (.cadence k)).parseWrite s.tables = .ok ⟨.cadence k en, []⟩)

/-- R183: the key words K1 and K2, the six words of a single record, and a record's word in the summary. The bits the layout does
not name are 0 (log 11). -/
def QueueBodies : Prop :=
  (∀ k : Key, k.words = [BitVec.ofNat 16 (k.source * 1024 + k.zone), BitVec.ofNat 16 ((match k.qualifier with
    | .new => 1
    | .restore => 2
    | .test => 3) * 1024 + k.event)]) ∧
  (∀ (r : Record) (state binding backoff : Nat), (state, binding, backoff) = (match r.state with
      | .waiting => (0, 0, 0)
      | .inCall .e0 => (1, 1, 0)
      | .inCall .e1 => (1, 2, 0)
      | .held n _ => (2, 0, n)
      | .stranded => (3, 0, 0)) →
    r.words = BitVec.ofNat 16 (r.handle.val * 2048 + r.cls.val * 256 + state * 64 + (if r.isProtected then 32 else 0) + binding)
      :: r.key.words ++ [BitVec.ofNat 16
        (r.failures * 4096 + r.routePos * 1024 + r.routeFailures * 128 + r.cycles * 16 + r.repeats),
        BitVec.ofNat 16 backoff, BitVec.ofNat 16 r.age]) ∧
  ∀ s : State, s.summaryBody = 1 :: s.queue.map fun r => BitVec.ofNat 16 (r.handle.val * 2048 + r.cls.val * 256 +
    (match r.state with
      | .waiting => 0
      | .inCall _ => 1
      | .held _ _ => 2
      | .stranded => 3) * 64)

/-- R183: the codes of the outcomes of a call, of a line test, of the phases and of the trunk states. -/
def CodeTables : Prop :=
  (∀ o n, (o, n) ∈ [(CallOutcome.delivered, 0), (.noLoop, 1), (.cardFault, 2), (.noDialTone, 3), (.lineLost, 4), (.busy, 5),
    (.congestion, 6), (.noAnswer, 7), (.noAck, 8), (.farCleared, 9), (.preempted, 10), (.aborted, 11)] → o.code = n) ∧
  (∀ c n, (c, n) ∈ [(TestCode.pass, 0), (.passReversed, 1), (.lowTone, 2), (.noLoop, 3), (.cardFault, 4), (.noDialTone, 5),
    (.aborted, 6)] → c.code = n) ∧
  (∀ p n, (p, n) ∈ [(Phase.idle, 0), (.acquire, 1), (.clear, 2), (.seize, 3), (.dialTone, 4), (.dialing, 5),
    (.awaitAnswer, 6), (.sendBlock, 7), (.awaitAck, 8), (.closing, 9)] → p.code = n) ∧
  ∀ x n, (x, n) ∈ [(TrunkState.unmanaged, 0), (.idleOffice, 1), (.officeBusy, 2), (.idleReserved, 3), (.warning, 4),
    (.taken, 5), (.cooldown, 6)] → x.code = n

/-- R183: the 40 words of STATUS. The minutes of a hold are rounded up (R41). The bits the layout does not name, and the fields of
what is not there, are 0 (log 11); the code, delay and peak of a result are those its record holds, valid or not (log 16). -/
def StatusBodies (s : State) : Prop :=
  ∃ (engineWord : EngineId → Word) (slotWord : Word) (flags : (EventRecord → Bool) → Nat),
    (∀ e, engineWord e = BitVec.ofNat 16 ((s.engine e).phase.code * 4096 + match (s.engine e).work with
      | .nothing => 0
      | .alertCall c => 1024 + c.route.val * 16 + c.trunk.val
      | .testCall c => 2048 + c.route.val * 16 + c.trunk.val
      | .lineTest r => 3072 + r.trunk.val)) ∧
    (slotWord = BitVec.ofNat 16 (match s.cmu.slot with
      | .empty => 0
      | .held (.lineTest u) _ => 16384 + 256 + u.val * 16
      | .held (.testCall r) _ => 16384 + 512 + r.val * 16
      | .running (.lineTest u) e => 32768 + 256 + u.val * 16 + (if e = .e1 then 1 else 0)
      | .running (.testCall r) e => 32768 + 512 + r.val * 16 + (if e = .e1 then 1 else 0))) ∧
    (∀ f, flags f = ((List.finRange 16).map fun k => if f (vget s.evr.records k) then 2 ^ k.val else 0).sum) ∧
    s.statusBody.length = 40 ∧
    s.statusBody[0]? = some (BitVec.ofNat 16 ((if s.ready then 32768 else 0) + (if s.dsc.hold.isSome then 16384 else 0) +
      (match s.dsc.hold with
        | some n => (n + 5999) / 6000
        | none => 0) * 256 + (if s.cmu.silent then 16 else 0) + (if s.ccp.flags.badCheck then 8 else 0) +
      (if s.ccp.flags.overrun then 4 else 0) + (if s.ccp.flags.abortedCell then 2 else 0) +
      (if s.ccp.flags.framing then 1 else 0))) ∧
    s.statusBody[1]? = some (engineWord .e0) ∧ s.statusBody[2]? = some (engineWord .e1) ∧
    s.statusBody[3]? = some slotWord ∧
    s.statusBody[4]? = some (BitVec.ofNat 16 ((s.queue.countP fun r => r.state == .waiting) * 256 +
      s.queue.countP fun r => r.state == .inCall .e0 || r.state == .inCall .e1)) ∧
    s.statusBody[5]? = some (BitVec.ofNat 16 ((s.queue.countP fun r => r.state != .waiting && r.state != .inCall .e0 &&
      r.state != .inCall .e1 && r.state != .stranded) * 256 + s.queue.countP fun r => r.state == .stranded)) ∧
    (∀ (u : TrunkId) (x : Trunk) (r : TestResult), x = s.trunk u → r = vget s.cmu.results u →
      (s.statusBody.drop (6 + 4 * u.val)).take 4 =
        [BitVec.ofNat 16 (x.state.code * 4096 + (if x.barred then 2048 else 0) + (if x.faulted then 1024 else 0) +
          x.failures * 256 + (if r.valid then 128 else 0) + r.code.code * 16),
        BitVec.ofNat 16 r.loopDelay, BitVec.ofNat 16 (r.peak / 65536), BitVec.ofNat 16 (r.peak % 65536)]) ∧
    s.statusBody[38]? = some (BitVec.ofNat 16 (flags EventRecord.pending)) ∧
    s.statusBody[39]? = some (BitVec.ofNat 16 (flags EventRecord.enabled))

/-- R183: an entry of an EVENT body is its head, kind in bits 15-12 and count in bits 11-4, and the detail words of its kind. The
bits the layout does not name are 0 (log 11). -/
def EventBodies : Prop :=
  (∀ n : SnapEntry, n.words = BitVec.ofNat 16 (n.kind.val * 4096 + n.count * 16) :: match n.latest with
    | some d => d.words
    | none => []) ∧
  (∀ h k r, (Detail.delivered h k r).words = BitVec.ofNat 16 (r.val * 256 + h.val) :: k.words) ∧
  (∀ r u o, (Detail.callFailed r u o).words = [BitVec.ofNat 16 (r.val * 256 + u.val * 16 + o.code)]) ∧
  (∀ h a b, (Detail.fallback h a b).words = [BitVec.ofNat 16 (b.val * 4096 + a.val * 256 + h.val)]) ∧
  (∀ h k, (Detail.stranded h k).words = BitVec.ofNat 16 h.val :: k.words ∧
    (Detail.evicted h k).words = BitVec.ofNat 16 h.val :: k.words) ∧
  (∀ u c n, (c, n) ∈ [(FaultCause.count, 0), (.card, 1), (.test, 2)] →
    (Detail.trunkFault u c).words = [BitVec.ofNat 16 (u.val * 16 + n)]) ∧
  (∀ u, (Detail.trunkCleared u).words = [BitVec.ofNat 16 (u.val * 16)]) ∧
  (∀ u c, (Detail.officePreempted u c).words = [BitVec.ofNat 16 (u.val * 16 + c.val)]) ∧
  (∀ u c p d, (Detail.lineTestDone u c p d).words =
    [BitVec.ofNat 16 (u.val * 4096 + c.code * 256 + d), BitVec.ofNat 16 (p / 65536), BitVec.ofNat 16 (p % 65536)]) ∧
  (∀ r o, (Detail.testCallDone r o).words = [BitVec.ofNat 16 (r.val * 256 + o.code)]) ∧
  (∀ u, (Detail.commandExpired (.lineTest u)).words = [BitVec.ofNat 16 (u.val * 16 + 1)]) ∧
  (∀ r, (Detail.commandExpired (.testCall r)).words = [BitVec.ofNat 16 (r.val * 16 + 2)]) ∧
  (Detail.stationSilent true).words = [1] ∧ (Detail.stationSilent false).words = [0] ∧
  (∀ ref table entry, (table, entry) = (match ref with
      | .site => (0, 0)
      | .cls k => (1, k.val)
      | .route k => (2, k.val)
      | .trunk k => (3, k.val)
      | .tone k => (4, k.val)
      | .cadence k => (5, k.val)) →
    (Detail.tableApplied ref).words = [BitVec.ofNat 16 (table * 256 + entry)]) ∧
  (∀ c n, (c, n) ∈ [(HoldCause.resume, 0), (.expired, 1), (.init, 2)] →
    (Detail.holdEnded c).words = [BitVec.ofNat 16 n]) ∧
  (∀ c, (Detail.noTrunk c).words = [BitVec.ofNat 16 c.val]) ∧
  (Detail.highway false).words = [0] ∧ (Detail.highway true).words = [1]

/-! ### What a table write holds -/

/-- R136: the clamped list of a write: the words at which its clamped fields begin, in the order of the fields. -/
def clampedOf (fs : List NumField) : List Nat := (fs.filter NumField.clamped).map NumField.word

/-- R182: symbol `i` of those packed three to a word from body word `k` on. -/
def InCell.symbolAt (c : InCell) (k i : Nat) : Nat := (c.word (k + i / 3)).toNat / 16 ^ (2 - i % 3) % 16

/-- R182: the number in bits 7-0 of two words, upper half first. -/
def InCell.wide (c : InCell) (k : Nat) : Nat := (c.word k).toNat % 256 * 256 + (c.word (k + 1)).toNat % 256

/-- R137, R136, R182: the fields of a site record write. -/
def InCell.SiteFields (c : InCell) (en : SiteRecord) (ks : List Nat) : Prop :=
  ∀ on off level loop loss guard freq wOn wOff interval pEvent silence sEvent fEvent : NumField,
    on = defaultField 9 30 100 50 (c.field 9) → off = defaultField 10 30 100 50 (c.field 10) →
    level = rangeField 11 0 20 (c.field 11) → loop = defaultField 14 100 2000 400 (c.field 14) →
    loss = defaultField 15 50 1000 200 (c.field 15) → guard = defaultField 16 500 5000 1000 (c.field 16) →
    freq = rangeField 17 300 3400 (c.field 17) → wOn = rangeField 18 100 1000 (c.field 18) →
    wOff = rangeField 19 100 1000 (c.field 19) → interval = rangeField 20 0 168 (c.field 20) →
    pEvent = rangeField 21 0 999 (c.field 21) →
    silence = (if c.field 22 = 0 then ⟨22, 0, false⟩ else rangeField 22 10 600 (c.field 22)) →
    sEvent = rangeField 23 0 999 (c.field 23) → fEvent = rangeField 24 0 999 (c.field 24) →
    en.account.map Fin.val = (List.range (c.field 2)).map (c.symbolAt 3) ∧ en.dialTone.val = c.field 6 ∧
    en.busyTone.val = c.field 7 ∧ en.reorderTone.val = c.field 8 ∧ en.symbolOn = on.value ∧ en.symbolOff = off.value ∧
    en.generatorLevel = level.value ∧ en.silenceFloor = c.wide 12 ∧ en.loopTimeout = loop.value ∧
    en.loopLossTime = loss.value ∧ en.releaseGuard = guard.value ∧ en.warningFrequency = freq.value ∧
    en.warningOn = wOn.value ∧ en.warningOff = wOff.value ∧ en.periodicInterval = interval.value ∧
    en.periodicEvent = pEvent.value ∧ en.silenceTime = silence.value ∧ en.silenceEvent = sEvent.value ∧
    en.lineFaultEvent = fEvent.value ∧ en.goodLevel = c.wide 25 ∧
    ks = clampedOf [on, off, level, loop, loss, guard, freq, wOn, wOff, interval, pEvent, silence, sEvent, fEvent]

/-- R138, R136, R182: the fields of a class entry write whose route list is not empty. The route-id words beyond the stated
length are not read (log 10). -/
def InCell.ClassFields (c : InCell) (en : ClassEntry) (ks : List Nat) : Prop :=
  ∀ length warning window base cap cycles sym : NumField,
    length = rangeField 2 1 4 (c.field 2) → warning = rangeField 8 0 10 (c.field 8) →
    window = rangeField 9 0 120 (c.field 9) → base = rangeField 10 1 60 (c.field 10) →
    cap = rangeField 11 10 900 (c.field 11) → cycles = rangeField 12 1 7 (c.field 12) →
    sym = rangeField 13 0 15 (c.field 13) →
    en.routes.map Fin.val = (List.range length.value).map (fun i => c.field (3 + i)) ∧
    ([.none, .afterWarning, .immediate] : List PreemptMode)[c.field 7]? = some en.preemptMode ∧
    en.warningTime = warning.value ∧ en.cancelWindow = window.value ∧ en.backoffBase = base.value ∧
    en.backoffCap = cap.value ∧ en.maxCycles = cycles.value ∧ en.classSymbol.val = sym.value ∧
    ks = clampedOf [length, warning, window, base, cap, cycles, sym]

/-- R139, R136, R182: the fields of a route entry write. -/
def InCell.RouteFields (c : InCell) (en : RouteEntry) (ks : List Nat) : Prop :=
  ∀ blocks tries after answer ack : NumField,
    blocks = rangeField 14 1 8 (c.field 14) → tries = rangeField 15 1 4 (c.field 15) →
    after = rangeField 16 2 5 (c.field 16) → answer = defaultField 18 10 90 45 (c.field 18) →
    ack = defaultField 19 5 50 15 (c.field 19) →
    en.valid = decide (c.field 2 = 1) ∧ en.dial.length = c.field 3 ∧
    (∀ i, i < c.field 3 → en.dial[i]? = some
      (if h : c.symbolAt 4 i < 12 then .tone ⟨c.symbolAt 4 i, h⟩ else if c.symbolAt 4 i = 12 then .pause else .wait)) ∧
    en.handshakeTone.val = c.field 12 ∧ en.ackTone.val = c.field 13 ∧ en.blocksPerCall = blocks.value ∧
    en.blockTries = tries.value ∧ en.fallbackAfter = after.value ∧
    en.dialToneMode = (if c.field 17 = 0 then .wait else .blind) ∧ en.answerTimeout = answer.value ∧
    en.ackTimeout = ack.value ∧ ks = clampedOf [blocks, tries, after, answer, ack]

/-- R141, R136, R182: the fields of a tone entry write. -/
def InCell.ToneFields (c : InCell) (en : ToneEntry) (ks : List Nat) : Prop :=
  ∀ components ratio1 ratio2 : NumField, components = rangeField 2 1 2 (c.field 2) →
    ratio1 = rangeField 7 0 63 (c.field 7) → ratio2 = rangeField 12 0 63 (c.field 12) →
    en.components = components.value ∧
    en.first = ⟨if c.wide 3 < 32768 then (c.wide 3 : Int) else c.wide 3 - 65536, c.wide 5, ratio1.value⟩ ∧
    en.second = ⟨if c.wide 8 < 32768 then (c.wide 8 : Int) else c.wide 8 - 65536, c.wide 10, ratio2.value⟩ ∧
    en.cadence.val = c.field 13 ∧ ks = clampedOf [components, ratio1, ratio2]

/-! ### How an alert is decided -/

/-- R6, R12: an alert of this key and class is decided as `t`: an internal arrival leaves `t` and is not answered, and the step
of a station ALERT that carries the key and the class is `t` answered so. -/
def State.DecidesAlert (s : State) (k : Key) (cls : ClassId) (t : State) (result : Result) (detail : List Word) : Prop :=
  s.internalAlert k cls = t ∧
  ∀ c, s.resetLow = false → s.held 1 = some c → c.alertArrival = some (k, cls) →
    exec .alert s = .next (t.answer result detail)

end Sys2Proof.Machine
end

