-- ==== Sys2Proof/Certificates/Slice0/Obligations.lean ====
section
/-! DEFINITION. The statements about the model, for the provers. Each docstring names the rules of spec/ it formalises;
OBLIGATIONS.json lists them in this order. "Live" below means that RESET_N is not held low. -/

open Sys2Proof Sys2Proof.Machine

/-! ### The machine as a whole -/

/-- A step takes the command at the front of the queue and runs its meaning with the queue's rest. -/
def Obligations.StepRunsFrontCommand : Prop :=
  ∀ (c : Instr) (rest : List Instr) (s : State),
    step { s with pending := c :: rest } = exec c { s with pending := rest }

/-- The model's choice (log 2): on an empty queue a step is one 10 ms unit of the internal timebase. Every running timer
falls by one unit and stays at 0, where its expiry is due; a pending guard and an absent timer stay; the second in progress of
each record's age, and of its backoff, grows by one unit (log 5); nothing else of the part changes but the timebase. -/
def Obligations.EmptyQueueStepTicksTimers : Prop :=
  ∀ s : State, s.pending = [] → s.resetLow = false →
    ∃ t, step s = .next t ∧ t.clock = s.clock + 1 ∧
      (∀ e, t.engine e = { s.engine e with
        phaseTimer := (s.engine e).phaseTimer.map fun n => n - 1
        lossTimer := (s.engine e).lossTimer.map fun n => n - 1 }) ∧
      (∀ u, t.trunk u = { s.trunk u with
        ringTimer := (s.trunk u).ringTimer.map fun n => n - 1
        warnTimer := (s.trunk u).warnTimer.map fun n => n - 1
        guard := match (s.trunk u).guard with
          | .running n => .running (n - 1)
          | g => g }) ∧
      t.dsc = { s.dsc with hold := s.dsc.hold.map fun n => n - 1 } ∧
      t.cmu.periodic = s.cmu.periodic.map (fun n => n - 1) ∧
      t.cmu.silenceTimer = s.cmu.silenceTimer.map (fun n => n - 1) ∧
      (∀ c n, s.cmu.slot = .held c n → t.cmu.slot = .held c (n - 1)) ∧
      ((∀ c n, s.cmu.slot ≠ .held c n) → t.cmu.slot = s.cmu.slot) ∧
      t.cmu.results = s.cmu.results ∧ t.cmu.silent = s.cmu.silent ∧
      t.pending = [] ∧ t.resetLow = false ∧ t.hwi = s.hwi ∧ t.ccp = s.ccp ∧ t.tables = s.tables ∧ t.evr = s.evr ∧
      t.queue = s.queue.map fun r => { r with
        agePart := r.agePart + 1
        state := match r.state with
          | .held n part => .held n (part + 1)
          | st => st }

/-- R132: RESET_N low takes both PCM outputs to high impedance; at its release every block takes its power-on reset state
(the commands still waiting are the environment's and stay). While RESET_N is held low the part receives nothing; the model's
choice (log 15) is that every command but the two of the reset pin has no effect then, and that no time passes. What the reset
tables do not give is the model's choice too: the clock (log 4), the last pulse (log 14), the fields of an invalid result (log 16),
and what a silent generator (log 27) and a free bin (log 31) hold. -/
def Obligations.ResetPinCommands : Prop :=
  (∀ s : State,
    exec .resetNAsserted s = .next { s with resetLow := true, hwi := { s.hwi with tso := none, pxo := none } } ∧
    exec .powerOnReset s = .next { State.reset with pending := s.pending }) ∧
  ∀ s : State, s.resetLow = true →
    (∀ c : Instr, c ≠ .resetNAsserted → c ≠ .powerOnReset → exec c s = .next s) ∧ (s.pending = [] → step s = .next s)

/-- The values the reset tables give: R25, R27, R49, R61, R76, R117, R122, R125, R127, R129, R132, R134, R147, R149, R157, R159,
R160, R163, R172, R179. R77: the detection grid counts from the first highway frame. R130, R132: sync is LOST with a good count of 0
and nothing is driven; R131: no loss has preceded the first acquisition. -/
def Obligations.PowerOnValues : Prop :=
  State.reset.queue = [] ∧
  State.reset.dsc.hold = none ∧ State.reset.dsc.noTrunk = false ∧ State.reset.dsc.startOrder = [] ∧
  State.reset.dsc.marked = none ∧
  (∀ e, (State.reset.engine e).phase = .idle ∧ (State.reset.engine e).step = .none ∧
    (State.reset.engine e).work = .nothing ∧ (State.reset.engine e).dialPos = 0 ∧ (State.reset.engine e).seize = false ∧
    (State.reset.engine e).seizeStart = none ∧
    (State.reset.engine e).phaseTimer = none ∧ (State.reset.engine e).lossTimer = none ∧
    (State.reset.engine e).polRef = none ∧ (State.reset.engine e).generator.symbol = .none ∧
    (State.reset.engine e).detector.loadings = [] ∧
    ∀ i, (vget (State.reset.engine e).detector.bins i).used = false) ∧
  (∀ u, State.reset.trunkRole u = .unused ∧ State.reset.trunkSlot u = none ∧ (State.reset.trunk u).state = .unmanaged ∧
    (State.reset.trunk u).barred = false ∧ (State.reset.trunk u).faulted = false ∧ (State.reset.trunk u).failures = 0 ∧
    (State.reset.trunk u).ringTimer = none ∧ (State.reset.trunk u).busySince = none ∧ (State.reset.trunk u).holder = none ∧
    (State.reset.trunk u).warnTimer = none ∧ (State.reset.trunk u).guard = .absent ∧
    vget State.reset.hwi.applied u = .through ∧ vget State.reset.hwi.warnings u = .stopped ∧
    (∀ sig, (vget State.reset.hwi.lines u).get sig = ⟨false, 0⟩) ∧ (vget State.reset.cmu.results u).valid = false) ∧
  State.reset.inSync = false ∧ (∃ last, State.reset.hwi.sync = .lost last 0) ∧ State.reset.hwi.lossPreceded = false ∧
  State.reset.hwi.tso = none ∧ State.reset.hwi.pxo = none ∧ State.reset.hwi.grid = 0 ∧
  State.reset.tables = Tables.empty ∧ State.reset.ready = false ∧
  State.reset.cmu.slot = .empty ∧ State.reset.cmu.periodic = none ∧ State.reset.cmu.silent = false ∧
  State.reset.cmu.silenceTimer = none ∧
  (∀ k, vget State.reset.evr.records k = { pending := false, count := 0, latest := none, enabled := true }) ∧
  State.reset.evr.emission = none ∧
  State.reset.ccp.assembler = .hunt ∧ State.reset.ccp.inbound = [] ∧ State.reset.ccp.answers = [] ∧
  State.reset.ccp.emitter = .idle ∧
  State.reset.ccp.flags = { badCheck := false, overrun := false, abortedCell := false, framing := false }

/-! ### Invariants -/

/-- Every invariant that the statements below say each step keeps holds right after reset. What a free bin (log 31) and a silent
generator (log 27) hold then is the model's choice. -/
def Obligations.ResetMeetsInvariants : Prop :=
  QueueSound State.reset ∧ RecordsInRange State.reset ∧ TrunksSound State.reset ∧ HoldersSound State.reset ∧
  RoutesDistinct State.reset ∧ CallsHoldRecords State.reset ∧ DetectorsSound State.reset ∧ DebounceSound State.reset ∧ ChannelSound State.reset ∧
  EventsSound State.reset ∧ TablesInRange State.reset ∧ SlotsDistinct State.reset ∧ IdleEnginesEmpty State.reset

/-- R2, R3, R7, R11, R16: whatever the step, handles stay distinct, records stay in queue order, and of the records with one key
at most one is WAITING, HELD or STRANDED. R13: and a record is IN_CALL of an engine exactly when its handle stands in one entry,
neither ACKED nor FAILED, of the block list of that engine's alert call, and once; R36, R44, R67, R68: the entries are sent in
order; R74: a test call names no record. The premise on IDLE engines is an invariant (StepKeepsIdleEnginesEmpty). -/
def Obligations.StepKeepsQueueSound : Prop :=
  ∀ s t : State, QueueSound s → step s = .next t →
    QueueSound t ∧ (IdleEnginesEmpty s → CallsHoldRecords s → CallsHoldRecords t)

/-- R1, R4, R7, R17: a record's failures stay within 15, its repeat count within 15 and its age within 65535, and its key within
the ranges of R6. -/
def Obligations.StepKeepsRecordsInRange : Prop := ∀ s t : State, RecordsInRange s → step s = .next t → RecordsInRange t

/-- R97, R98, R73: a trunk's state stays one of its role, it has a holder exactly in WARNING and TAKEN, and the holder is an
engine that is not IDLE and whose call or test is on that trunk. -/
def Obligations.StepKeepsTrunksHeld : Prop :=
  ∀ s t : State, TrunksSound s → HoldersSound s → step s = .next t → TrunksSound t ∧ HoldersSound t

/-- R30: no two calls in progress ever have the same route. -/
def Obligations.StepKeepsRoutesDistinct : Prop := ∀ s t : State, RoutesDistinct s → step s = .next t → RoutesDistinct t

/-- R81, R87, R125: the bin values stay within their clamp, the run lengths within 255, and a disagreement count never
stands at 16. -/
def Obligations.StepKeepsSignalsSound : Prop :=
  ∀ s t : State, step s = .next t → (DetectorsSound s → DetectorsSound t) ∧ (DebounceSound s → DebounceSound t)

/-- R174: neither cell queue ever holds more than 4 cells, the reply still owed for a cell in hand counted. -/
def Obligations.StepKeepsChannelSound : Prop := ∀ s t : State, ChannelSound s → step s = .next t → ChannelSound t

/-- R163, R164, R166 to R168: pending goes with a count above 0, counts stay within 255, and a kind's latest detail is of that
kind, through snapshot, loss and restore; a snapshot names each kind once. -/
def Obligations.StepKeepsEventsSound : Prop := ∀ s t : State, EventsSound s → step s = .next t → EventsSound t

/-- R136 to R142: every loaded entry and every staged write stays within the ranges of its fields, and no two trunks, staged
writes counted, ever name the same audio slot. -/
def Obligations.StepKeepsTablesSound : Prop :=
  ∀ s t : State, step s = .next t → (TablesInRange s → TablesInRange t) ∧ (SlotsDistinct s → SlotsDistinct t)

/-- R49, R73: an IDLE engine holds nothing but STOPPING loadings (its reports discarded with the release: log 12). What the
generator of an IDLE engine holds is the model's choice (log 27). -/
def Obligations.StepKeepsIdleEnginesEmpty : Prop :=
  ∀ s t : State, IdleEnginesEmpty s → step s = .next t → IdleEnginesEmpty t

/-! ### Frame sync and the highway -/

/-- R129: an FS pulse and a missed frame start judged against the sync state: on time the missed count clears, off time
nothing changes; unsynchronized, a pulse 125 us after the last adds a good frame, any other starts the count again, a frame
period without a pulse clears it, and the eighth good frame restores sync; a missed start counts, and the third in succession
loses sync. The model's choices (log 14): a pulse is on time exactly 125 us after the last; the first pulse after a loss and a
pulse at another interval start the count at 0 and the next interval is measured from them; a MISSED_FRAME_START in LOST is a
frame period without a pulse; FS_PULSE restores sync in its own step, as SYNC_RESTORED does, and MISSED_FRAME_START loses it in
its own, as SYNC_LOST with both engines does. -/
def Obligations.FramePulsesJudged : Prop :=
  ∀ s : State, s.resetLow = false →
    (∀ x m, s.hwi.sync = .inSync x m →
      exec (.fsPulse x) s = .next { s with hwi := { s.hwi with sync := .inSync (x + 125) 0 } } ∧
      (∀ time, time ≠ x → exec (.fsPulse time) s = .next s) ∧
      (m < 2 → exec .missedFrameStart s = .next { s with hwi := { s.hwi with sync := .inSync (x + 125) (m + 1) } }) ∧
      (2 ≤ m → exec .missedFrameStart s = exec (.syncLost ⟨true, true⟩) s)) ∧
    (∀ last good, s.hwi.sync = .lost last good →
      exec .missedFrameStart s = .next { s with hwi := { s.hwi with sync := .lost last 0 } } ∧
      (∀ time, last.map (· + 125) ≠ some time →
        exec (.fsPulse time) s = .next { s with hwi := { s.hwi with sync := .lost (some time) 0 } }) ∧
      (∀ p, last = some p → good ≠ 7 →
        exec (.fsPulse (p + 125)) s = .next { s with hwi := { s.hwi with sync := .lost (some (p + 125)) (good + 1) } }) ∧
      (∀ p, last = some p → good = 7 → exec (.fsPulse (p + 125)) s = exec (.syncRestored (p + 125)) s))

/-- R131, R77, R110: the eighth good frame restores sync: the next frame start is expected one period later, the detection grid
starts afresh, each pending guard starts at the release guard, a selection is due, and HIGHWAY RESTORED is raised if a loss
preceded. Nothing else changes. That the pulse's step is this one is the model's choice (log 14). (Causes to select are counted:
log 8.) -/
def Obligations.SyncRestoredEffect : Prop :=
  ∀ (s : State) (p : Nat), s.resetLow = false → s.hwi.sync = .lost (some p) 7 →
    ∃ t, exec (.syncRestored (p + 125)) s = .next t ∧
      t.hwi = { s.hwi with sync := .inSync (p + 250) 0, grid := 0 } ∧
      (∀ u, t.trunk u = { s.trunk u with
        guard := if (s.trunk u).guard = .pending then .running (ticksOfMs s.siteOr.releaseGuard) else (s.trunk u).guard }) ∧
      t.dsc = { s.dsc with selectionsDue := s.dsc.selectionsDue + 1 } ∧
      vget t.evr.records 15 = (if s.hwi.lossPreceded then (vget s.evr.records 15).occur (.highway true)
        else vget s.evr.records 15) ∧
      (∀ k : EventKind, k ≠ 15 → vget t.evr.records k = vget s.evr.records k) ∧ t.evr.emission = s.evr.emission ∧
      t.pending = s.pending ∧ t.resetLow = s.resetLow ∧ t.clock = s.clock ∧ t.ccp = s.ccp ∧ t.tables = s.tables ∧
      t.queue = s.queue ∧ t.engines = s.engines ∧ t.cmu = s.cmu

/-- R130, R110, R125, R127, R95, R72, R178: the third missed frame start: the outputs stop, the debounced values stand with
their counts at 0, the warning sources stop, every WARNING, TAKEN or COOLDOWN trunk is in COOLDOWN with a pending guard, the
detectors hold nothing, an engine that held a call or test and takes its abort in the step is IDLE and another one carries the
abort (which of them do is an operand of the command: the model's choice, log 6), the assembler hunts, and HIGHWAY LOST is
raised. R47, R15, R16: a record that a stopped call had still to settle is WAITING with its counts, or in the other engine's
call, or merged. R72, R157, R158: a running line test or test call that an abort taken in the step ends is told: LINE_TEST_DONE
with its result of code ABORTED, or TEST_CALL_DONE, ABORTED where its block was not acknowledged (else DELIVERED, the model's
reading, log 9), and the slot is EMPTY; where none ends, the slot and the results stand. The silence monitor is as it was. R145,
R147, R159: the tables and the periodic test timer are as they were where no staged write waits for an end of its use; where one
that applies leaves the tables not ready, no periodic test timer runs. R167, R170, R178: of a cell in emission nothing more is
sent: an answer's entry stays at the head of its queue, a STATUS cell's flags are set again, and an EVENT cell's kinds are
pending again with its counts added; the event records of the other kinds are as they were, but for those of a test that ends
and of staged writes that apply. That changes delivered and not yet taken wait through the loss (log 22) and that no pulse has
been seen at it (log 14) are the model's choices. So are what the generator of an IDLE engine holds (log 27), that its reports
are gone (R56; log 12) and the 0 that a free bin holds (log 31). The premise on the events is an invariant
(StepKeepsEventsSound). -/
def Obligations.SyncLostEffect : Prop :=
  ∀ (s : State) (x m : Nat) (taken : EngineSet), s.resetLow = false → EventsSound s → s.hwi.sync = .inSync x m → 2 ≤ m →
    ∃ t, exec (.syncLost taken) s = .next t ∧
      t.hwi.sync = .lost none 0 ∧ t.hwi.tso = none ∧ t.hwi.pxo = none ∧ t.hwi.grid = 0 ∧ t.hwi.lossPreceded = true ∧
      t.hwi.applied = s.hwi.applied ∧ t.hwi.deliveries = s.hwi.deliveries ∧
      (∀ u, vget t.hwi.warnings u = .stopped ∧
        ∀ sig, (vget t.hwi.lines u).get sig = ⟨((vget s.hwi.lines u).get sig).value, 0⟩) ∧
      (∀ u, (s.trunk u).state = .warning ∨ (s.trunk u).state = .taken ∨ (s.trunk u).state = .cooldown →
        t.trunk u = { s.trunk u with state := .cooldown, holder := none, warnTimer := none, guard := .pending }) ∧
      (∀ u, (s.trunk u).state ≠ .warning → (s.trunk u).state ≠ .taken → (s.trunk u).state ≠ .cooldown →
        t.trunk u = s.trunk u) ∧
      (∀ e, (t.engine e).detector = Detector.reset) ∧
      (∀ e, (s.engine e).work ≠ .nothing → (s.engine e).phase ≠ .closing →
        (takes taken e = true → t.engine e = Engine.reset) ∧
        (takes taken e = false → (t.engine e).abort = some .syncLoss ∧ (t.engine e).phase = (s.engine e).phase)) ∧
      (QueueSound s → AbortedSettled s t taken) ∧
      t.ccp.assembler = .hunt ∧ t.ccp.emitter = .idle ∧
      (vget t.evr.records 15).pending = true ∧ (vget t.evr.records 15).latest = some (.highway false) ∧
      (s.ccp.emitter = .idle → t.ccp = { s.ccp with assembler := .hunt } ∧
        vget t.evr.records 15 = (vget s.evr.records 15).occur (.highway false)) ∧
      (∀ w ws, s.ccp.emitter = .emitting (.answer none) (w :: ws) →
        t.ccp = { s.ccp with assembler := .hunt, emitter := .idle }) ∧
      (∀ f w ws, s.ccp.emitter = .emitting (.answer (some f)) (w :: ws) →
        t.ccp = { s.ccp with assembler := .hunt, emitter := .idle, flags :=
          { badCheck := s.ccp.flags.badCheck || f.badCheck, overrun := s.ccp.flags.overrun || f.overrun,
            abortedCell := s.ccp.flags.abortedCell || f.abortedCell, framing := s.ccp.flags.framing || f.framing } }) ∧
      (∀ cell w ws, s.ccp.emitter = .emitting .event (w :: ws) → s.evr.emission = some cell →
        t.ccp = { s.ccp with assembler := .hunt, emitter := .idle } ∧ t.evr.emission = none ∧
        (∀ n ∈ cell.entries, n.kind ∈ cell.restore → n.kind ∉ ([8, 9, 12, 15] : List EventKind) →
          vget t.evr.records n.kind = { vget s.evr.records n.kind with
            pending := true, count := min ((vget s.evr.records n.kind).count + n.count) 255 }) ∧
        ∀ k : EventKind, k ∉ ([8, 9, 12, 15] : List EventKind) → (∀ n ∈ cell.entries, n.kind = k → k ∉ cell.restore) →
          vget t.evr.records k = vget s.evr.records k) ∧
      ((∀ w ws, s.ccp.emitter ≠ .emitting .event (w :: ws)) → ∀ k : EventKind, k ∉ ([8, 9, 12, 15] : List EventKind) →
        vget t.evr.records k = vget s.evr.records k) ∧
      TestsAborted s t taken (fun _ => true) s.recordAtLoss ∧
      ((∀ e, takes taken e = false ∨ (s.engine e).phase = .closing ∨ (s.engine e).work = .nothing ∨
        (s.engine e).work.isAlertCall = true) → t.cmu.slot = s.cmu.slot ∧ t.cmu.results = s.cmu.results) ∧
      t.cmu.silent = s.cmu.silent ∧ t.cmu.silenceTimer = s.cmu.silenceTimer ∧
      ((∀ ref, s.tables.stagedWrite ref = none) → t.tables = s.tables ∧ t.cmu.periodic = s.cmu.periodic) ∧
      ((s.ready = false → s.cmu.periodic = none) → t.ready = false → t.cmu.periodic = none) ∧
      t.pending = s.pending ∧ t.resetLow = s.resetLow ∧ t.clock = s.clock

/-- R119 to R124, R128: the words of one highway frame. An audio slot that no managed trunk's entry names passes both ways
unchanged; a managed trunk's slot passes while its trunk is in an office state, carries the saturated sums with one warning
sample both ways in WARNING, the holder's generator sample toward the line and silence toward the PBX in TAKEN, and silence
both ways otherwise. Slot 31 of TSO passes PXI's word. The premise is an invariant (StepKeepsTablesSound). -/
def Obligations.HighwayFrameAudio : Prop :=
  ∀ (s : State) (tsi pxi : List Word), s.resetLow = false → s.inSync = true → SlotsDistinct s →
    ∃ (t : State) (tso pxo : List Word), exec (.highwayFrame tsi pxi) s = .next t ∧
      t.hwi.tso = some tso ∧ t.hwi.pxo = some pxo ∧ tso.length = 32 ∧ pxo.length = 32 ∧
      slotWord tso 31 = slotWord pxi 31 ∧
      (∀ k, k < 29 → (∀ u, s.managed u = true → s.trunkSlot u ≠ some k) →
        slotWord tso k = slotWord pxi k ∧ slotWord pxo k = slotWord tsi k) ∧
      (∀ k u, k < 29 → s.managed u = true → s.trunkSlot u = some k →
        (pathOf (s.trunk u).state = .through → slotWord tso k = slotWord pxi k ∧ slotWord pxo k = slotWord tsi k) ∧
        (pathOf (s.trunk u).state = .blocked → slotWord tso k = 0 ∧ slotWord pxo k = 0) ∧
        (pathOf (s.trunk u).state = .taken →
          slotWord tso k = BitVec.ofInt 16 (s.generatorSample u) ∧ slotWord pxo k = 0) ∧
        (pathOf (s.trunk u).state = .warnMix → ∀ w : Int,
          w = (if vget s.hwi.warnings u = .stopped then WarnSource.startOn s.siteOr
            else (vget s.hwi.warnings u).turn s.siteOr).output →
          slotWord tso k = BitVec.ofInt 16 (max (-32768) (min 32767 ((slotWord pxi k).toInt + w))) ∧
          slotWord pxo k = BitVec.ofInt 16 (max (-32768) (min 32767 ((slotWord tsi k).toInt + w)))))

/-- R119, R124, R126, R61, R77, R78, R176: the rest of a frame that no due step precedes, with the port idle: the nibbles a
managed trunk's line card and PBX see, one frame of debounce with its deliveries, of the generators, the detectors and the grid.
The station's idle word changes nothing more: every record, table, call and event is as it was. R125: one frame of a debounced
bit: an agreeing frame clears the count, a disagreeing one counts, and the sixteenth in succession, and none before it, changes
the value and clears the count. R61: the frames of a symbol: its sample number k in frame k of the ON part, silence in the OFF
part, and the end due once both have run; a pause ends after 16000 frames; a generator with no symbol stays and is silent. That
the symbol times run to the next multiple of 10 ms is the model's reading (log 26), log 19 says how a sample is formed, and
that Et stands still while no loading is RUNNING (see Detector.sample) is the model's choice (log 32). -/
def Obligations.HighwayFrameMovesOn : Prop :=
  (∀ (x : Debounced) (raw : Bool),
    (raw = x.value → x.frame raw = { x with count := 0 }) ∧
    (raw ≠ x.value → x.count < 15 → x.frame raw = { x with count := x.count + 1 }) ∧
    (raw ≠ x.value → x.count = 15 → x.frame raw = { value := raw, count := 0 })) ∧
  (∀ v : Bool, (List.replicate 16 (!v)).foldl Debounced.frame ⟨v, 0⟩ = ⟨!v, 0⟩ ∧
    ∀ n : Nat, n ≤ 15 → (List.replicate n (!v)).foldl Debounced.frame ⟨v, 0⟩ = ⟨v, n⟩) ∧
  (∀ (site : SiteRecord) (v : Fin 16) (k on off : Nat) (g : Generator), 0 < site.symbolOn →
    on = (site.symbolOn + 9) / 10 * 80 → off = (site.symbolOff + 9) / 10 * 80 →
    g = (List.range k).foldl (fun g _ => g.advance) (Generator.start site v) →
    g.symbol = .tone v ∧
    (k < on → g.onPart = true ∧ g.index = k ∧ g.output = symbolSample v site.generatorLevel k ∧ g.ended = false) ∧
    (on ≤ k → g.onPart = false ∧ g.output = 0 ∧ g.ended = decide (on + off ≤ k))) ∧
  (∀ (k : Nat) (g : Generator), g = (List.range k).foldl (fun g _ => g.advance) Generator.startPause →
    g.symbol = .pause ∧ g.output = 0 ∧ g.ended = decide (16000 ≤ k)) ∧
  (∀ g : Generator, g.symbol = .none → g.advance = g ∧ g.output = 0 ∧ g.ended = false) ∧
  ∀ (s : State) (tsi pxi : List Word), s.resetLow = false → s.inSync = true → s.ccp.emitter = .idle → s.hwi.grid < 80 →
    s.ccp.assembler = .hunt → slotWord pxi 31 = 0xFFFF →
    ∃ t, exec (.highwayFrame tsi pxi) s = .next t ∧
      (∀ u : TrunkId, (∃ w, t.hwi.tso = some w ∧ lineNibble w u =
          (if s.managed u then
            match pathOf (s.trunk u).state with
            | .through => lineNibble pxi u / 8 * 8
            | .warnMix => lineNibble pxi u / 8 * 8
            | .taken => if s.seizeOf u then 8 else 0
            | .blocked => 0
          else lineNibble pxi u)) ∧
        ∃ w, t.hwi.pxo = some w ∧ slotWord w 31 = s.idleWord ∧ lineNibble w u =
          (if s.managed u then
            match pathOf (s.trunk u).state with
            | .through => lineNibble tsi u
            | .warnMix => lineNibble tsi u
            | .taken => 1
            | .blocked => 1
          else lineNibble tsi u)) ∧
      (∀ u, vget t.hwi.applied u = pathOf (s.trunk u).state) ∧
      (∀ u, vget t.hwi.warnings u =
        (if pathOf (s.trunk u).state = .warnMix then
          (if vget s.hwi.warnings u = .stopped then WarnSource.startOn s.siteOr
            else (vget s.hwi.warnings u).turn s.siteOr).advance
        else .stopped)) ∧
      (∀ u sig, (vget t.hwi.lines u).get sig = ((vget s.hwi.lines u).get sig).frame (rawSignal tsi pxi u sig)) ∧
      (∀ u sig v, (⟨u, sig, v⟩ : Delivery) ∈ t.hwi.deliveries ↔ ⟨u, sig, v⟩ ∈ s.hwi.deliveries ∨
        s.managed u = true ∧ v = ((vget t.hwi.lines u).get sig).value ∧ v ≠ ((vget s.hwi.lines u).get sig).value) ∧
      t.hwi.grid = s.hwi.grid + 1 ∧ t.hwi.sync = s.hwi.sync ∧
      (∀ e, t.engine e = { s.engine e with
        generator := (s.engine e).generator.advance
        detector := match (s.engine e).work.trunk.bind s.trunkSlot with
          | some k => (s.engine e).detector.sample (scaleSample (tsi.getD k 0))
          | none => (s.engine e).detector }) ∧
      t.pending = s.pending ∧ t.resetLow = s.resetLow ∧ t.clock = s.clock ∧ t.ccp = s.ccp ∧ t.tables = s.tables ∧
      t.queue = s.queue ∧ t.dsc = s.dsc ∧ t.trunks = s.trunks ∧ t.cmu = s.cmu ∧ t.evr = s.evr

/-- R172, R173, R160, R12: one control word at the inbound assembler, in each of its states. A wrong check word discards the cell
with BAD_CHECK. A valid cell joins the inbound queue, or is discarded with OVERRUN when four are there; the silence monitor
restarts its timer whether or not the cell is queued, and, if SILENT, is LISTENING again, with STATION_SILENT OFF and a RESTORE
alert of class TROUBLE offered. -/
def Obligations.AssemblerTakesWord : Prop :=
  (∀ (s : State) (w : Word),
    (s.ccp.assembler = .hunt →
      (w = 0xFFFF → s.assembleWord w = s) ∧
      (bitsOf w 15 12 = 10 → headerLength w = 0 →
        s.assembleWord w = { s with ccp := { s.ccp with assembler := .check w [] } }) ∧
      (bitsOf w 15 12 = 10 → 1 ≤ headerLength w → headerLength w ≤ 40 →
        s.assembleWord w = { s with ccp := { s.ccp with assembler := .body w [] (headerLength w) } }) ∧
      (bitsOf w 15 12 = 10 → 40 < headerLength w →
        s.assembleWord w =
          { s with ccp := { s.ccp with assembler := .skip, flags := { s.ccp.flags with framing := true } } }) ∧
      (w ≠ 0xFFFF → bitsOf w 15 12 ≠ 10 →
        s.assembleWord w = { s with ccp := { s.ccp with flags := { s.ccp.flags with framing := true } } })) ∧
    (∀ h ws n, s.ccp.assembler = .body h ws n →
      (w = 0xFFFF → s.assembleWord w =
        { s with ccp := { s.ccp with assembler := .hunt, flags := { s.ccp.flags with abortedCell := true } } }) ∧
      (w ≠ 0xFFFF → 2 ≤ n → s.assembleWord w =
        { s with ccp := { s.ccp with assembler := .body h (ws ++ [w]) (n - 1) } }) ∧
      (w ≠ 0xFFFF → n ≤ 1 → s.assembleWord w =
        { s with ccp := { s.ccp with assembler := .check h (ws ++ [w]) } })) ∧
    (∀ h ws, s.ccp.assembler = .check h ws →
      (w.toNat = ((65535 - h.toNat) + (ws.map BitVec.toNat).sum) % 65536 →
        s.assembleWord w = ({ s with ccp := { s.ccp with assembler := .hunt } } : State).cellArrived ⟨h, ws⟩) ∧
      (w.toNat ≠ ((65535 - h.toNat) + (ws.map BitVec.toNat).sum) % 65536 →
        s.assembleWord w =
          { s with ccp := { s.ccp with assembler := .hunt, flags := { s.ccp.flags with badCheck := true } } })) ∧
    (s.ccp.assembler = .skip →
      (w = 0xFFFF → s.assembleWord w = { s with ccp := { s.ccp with assembler := .hunt } }) ∧
      (w ≠ 0xFFFF → s.assembleWord w = s))) ∧
  ∀ (s : State) (c : InCell) (x : SiteRecord), s.tables.site = some x →
    (s.ccp.inbound.length < 4 → (s.cellArrived c).ccp = { s.ccp with inbound := s.ccp.inbound ++ [c] }) ∧
    (4 ≤ s.ccp.inbound.length →
      (s.cellArrived c).ccp = { s.ccp with flags := { s.ccp.flags with overrun := true } }) ∧
    (s.cellArrived c).cmu.silent = false ∧
    (s.cellArrived c).cmu.silenceTimer = (if x.silenceTime = 0 then none else some (x.silenceTime * 100)) ∧
    (s.cmu.silent = true →
      vget (s.cellArrived c).evr.records 11 = (vget s.evr.records 11).occur (.stationSilent false) ∧
      (s.cellArrived c).queue = (s.internalAlert ⟨0, 0, x.silenceEvent, .restore⟩ 4).queue) ∧
    (s.cmu.silent = false → (s.cellArrived c).evr = s.evr ∧ (s.cellArrived c).queue = s.queue) ∧
    (s.cellArrived c).hwi = s.hwi ∧ (s.cellArrived c).tables = s.tables ∧ (s.cellArrived c).trunks = s.trunks

/-- R86, R79, R80, R81, R83: the end of a detection frame in both detectors: each RUNNING loading that stays is what its
evaluation makes of it, its classifier and absence watch moved on (see DetectorArithmetic), and its reports are handed to the
engine; the STOPPING loadings go; each STARTING one becomes RUNNING with its copies and classifier kept, and, where the kept
loadings need no more than the six bins, it gets as many distinct free bins as it has components, a bin being taken exactly when
a loading has it; and the next frame starts with every bin's values and the total energy at 0 (a free bin's values: the
model's choice, log 31). The engines' own fields and everything else stay. -/
def Obligations.DetectionFrameEndEffect : Prop :=
  ∀ s : State, s.resetLow = false → s.hwi.grid = 80 →
    ∃ t, exec .detectionFrameEnd s = .next t ∧
      t.hwi = { s.hwi with grid := 0 } ∧
      (∀ e, t.engine e = { s.engine e with
          reports := (s.engine e).reports ++ (s.engine e).detector.loadings.flatMap fun l =>
            ((s.engine e).detector.evaluate s.siteOr.silenceFloor l).2
          detector := (t.engine e).detector } ∧
        (t.engine e).detector.energy = 0 ∧
        (∀ i, (vget (t.engine e).detector.bins i).prev = 0 ∧ (vget (t.engine e).detector.bins i).prev2 = 0) ∧
        ∀ kept : List Loading, kept = (s.engine e).detector.loadings.filter Loading.live →
          (t.engine e).detector.loadings.length = kept.length ∧
          (∀ (i : Nat) (l m : Loading), kept[i]? = some l → (t.engine e).detector.loadings[i]? = some m →
            m.status = .running ∧
            (l.status = .running → m = ((s.engine e).detector.evaluate s.siteOr.silenceFloor l).1) ∧
            (l.status = .starting → m = { l with status := .running, bins := m.bins })) ∧
          ((∀ l ∈ kept, l.status = .starting → l.bins = []) → (kept.flatMap Loading.bins).Nodup →
            (kept.map fun l => if l.status = .running then l.bins.length
              else if l.copy.components = 2 then 2 else 1).sum ≤ 6 →
            ((t.engine e).detector.loadings.flatMap Loading.bins).Nodup ∧
            (∀ (i : Nat) (l m : Loading), kept[i]? = some l → (t.engine e).detector.loadings[i]? = some m →
              l.status = .starting → m.bins.length = if l.copy.components = 2 then 2 else 1) ∧
            ∀ i, (vget (t.engine e).detector.bins i).used = true ↔
              ∃ m ∈ (t.engine e).detector.loadings, i ∈ m.bins)) ∧
      t.pending = s.pending ∧ t.resetLow = s.resetLow ∧ t.clock = s.clock ∧ t.ccp = s.ccp ∧ t.tables = s.tables ∧
      t.queue = s.queue ∧ t.dsc = s.dsc ∧ t.trunks = s.trunks ∧ t.cmu = s.cmu ∧ t.evr = s.evr

/-! ### The detector's and the generator's arithmetic -/

/-- R81, R83, R82, R84, R85: one sample taken by a detector with one RUNNING loading of one component: the bin's recurrence
with its clamp, the other bins untouched, the total energy grown by the square of the sample. At the end of a frame: the band
energy of a bin, and the presence of a loading of one or two components, each against its own threshold and ratio and the
frame's common total energy. R88 to R92: one frame of a cadenced and of a continuous classifier: the run it counts into, ends
or begins, the verdict, the cycles and MATCHED. R86, R93, R94: what a RUNNING loading's evaluation makes of its classifier and its
watches, and its reports MATCHED, ABSENT and LEVEL. -/
def Obligations.DetectorArithmetic : Prop :=
  (∀ (d : Detector) (l : Loading) (i : Fin 6) (x : Int), d.loadings = [l] → l.status = .running → l.copy.components = 1 →
    l.bins = [i] → ∀ v : Int,
    v = x + Int.fdiv (l.copy.first.coefficient * (vget d.bins i).prev) 16384 - (vget d.bins i).prev2 →
    vget (d.sample x).bins i =
        { vget d.bins i with prev := max (-8388607) (min 8388607 v), prev2 := (vget d.bins i).prev } ∧
      (∀ j, j ≠ i → vget (d.sample x).bins j = vget d.bins j) ∧
      ((d.sample x).energy : Int) = d.energy + x * x ∧ (d.sample x).loadings = d.loadings) ∧
  (∀ (b : Bin) (c p : Int),
    p = b.prev * b.prev + b.prev2 * b.prev2 - Int.fdiv (c * b.prev) 16384 * b.prev2 →
    (b.bandEnergy c : Int) = min (Int.fdiv (max p 0) 64) 4294967295) ∧
  (∀ (k : Component) (floorField et band : Nat),
    k.present floorField et band = true ↔ floorField * 64 ≤ et ∧ k.threshold * 256 ≤ band ∧ k.ratio * et ≤ 64 * band) ∧
  (∀ (d : Detector) (l : Loading) (i j : Fin 6) (floorField : Nat), l.status = .running → l.bins = [i, j] →
    l.copy.components = 2 →
    (d.present floorField l = true ↔
      l.copy.first.present floorField d.energy ((vget d.bins i).bandEnergy l.copy.first.coefficient) = true ∧
      l.copy.second.present floorField d.energy ((vget d.bins j).bandEnergy l.copy.second.coefficient) = true)) ∧
  (∀ (d : Detector) (l : Loading) (i : Fin 6) (floorField : Nat), l.status = .running → l.bins = [i] →
    l.copy.components = 1 →
    d.present floorField l =
      l.copy.first.present floorField d.energy ((vget d.bins i).bandEnergy l.copy.first.coefficient)) ∧
  (∀ (x : Classifier) (k : CadenceEntry) (present : Bool), k.offMax ≠ 0 →
    (present = x.onRun →
      x.frame k present = ({ x with length := min (x.length + 1) 255, disagree := false }, false)) ∧
    (present ≠ x.onRun → x.disagree = false →
      x.frame k present = ({ x with length := min (x.length + 1) 255, disagree := true }, false)) ∧
    (present = false → x.onRun = true → x.disagree = true →
      x.frame k present = ({ x with
        onRun := false, length := 2, disagree := false
        verdict := if k.onMin ≤ x.length ∧ x.length ≤ k.onMax then .within else .outside }, false)) ∧
    (present = true → x.onRun = false → x.disagree = true →
      (k.offMin ≤ x.length → x.length ≤ k.offMax → x.verdict = .within → x.cycles + 1 < k.cyclesRequired →
        x.frame k present =
          ({ x with onRun := true, length := 2, disagree := false, cycles := x.cycles + 1 }, false)) ∧
      (k.offMin ≤ x.length → x.length ≤ k.offMax → x.verdict = .within → k.cyclesRequired ≤ x.cycles + 1 →
        x.frame k present = ({ x with onRun := true, length := 2, disagree := false, cycles := 0 }, true)) ∧
      (¬(k.offMin ≤ x.length ∧ x.length ≤ k.offMax ∧ x.verdict = .within) →
        x.frame k present = ({ x with onRun := true, length := 2, disagree := false, cycles := 0 }, false)))) ∧
  (∀ (x y : Classifier) (k : CadenceEntry) (present : Bool), k.offMax = 0 →
    y = (if present = x.onRun then { x with length := min (x.length + 1) 255, disagree := false }
      else if x.disagree = false then { x with length := min (x.length + 1) 255, disagree := true }
      else { x with onRun := present, length := 2, disagree := false,
                    continuousMatch := if x.onRun then false else x.continuousMatch }) →
    x.frame k present = if y.onRun = true ∧ k.onMin ≤ y.length ∧ y.continuousMatch = false
      then ({ y with continuousMatch := true }, true) else (y, false)) ∧
  ∀ (d : Detector) (l : Loading) (i : Fin 6) (rest : List (Fin 6)) (floorField : Nat), l.status = .running →
    l.bins = i :: rest → ∀ present : Bool, present = d.present floorField l →
    ∃ watch, (d.evaluate floorField l).1 =
        { l with classifier := (l.classifier.frame l.cadenceCopy present).1, absence := watch } ∧
      (l.absence = none → watch = none) ∧ (l.absence.isSome = true → present = true → watch = some 0) ∧
      (l.absence = some 0 → present = false → watch = some 1) ∧ (l.absence = some 1 → present = false → watch = none) ∧
      (d.evaluate floorField l).2 =
        (if (l.classifier.frame l.cadenceCopy present).2 then [Report.matched l.tone] else []) ++
        (if l.absence = some 1 ∧ present = false then [Report.absent l.tone] else []) ++
        (if l.levelWatch then [Report.level l.tone ((vget d.bins i).bandEnergy l.copy.first.coefficient)] else [])

/-- R66: the check symbol is (16 - S mod 16) mod 16 with S = (15 - q1) + q2 + ... + qn, and it makes the block's weighted sum
a multiple of 16. -/
def Obligations.CheckSymbolClosesBlock : Prop :=
  ∀ (q : Fin 16) (qs : List (Fin 16)) (total : Nat), total = (15 - q.val) + (qs.map Fin.val).sum →
    (checkSymbol (q :: qs)).val = (16 - total % 16) % 16 ∧ (total + (checkSymbol (q :: qs)).val) % 16 = 0

/-! ### Lines and trunks -/

/-- R53, R54, R58, R155: a delivered change of L at the engine that holds the trunk in TAKEN. After SEIZE the loop-loss timer
starts as L goes and is removed as it comes; in SEIZE an L present with no card fault ends SEIZE for DIALTONE, a call of a BLIND
route in step BLIND until 3 s after the seize start, any other in LISTEN with its 4 s timeout, a line test with its loop delay;
in SEIZE an L absent changes nothing. R52: in CLEAR a change of L changes nothing. R56, R79: in LISTEN the valid entries of the
step are loaded STARTING, with copies and fresh classifiers. That the time since the seize start is read as no more than 200
units, in the blind wait and in the loop delay, is the model's choice (log 2), and so is what the generator holds while it sends
nothing (log 27). -/
def Obligations.LoopCurrentAtHolder : Prop :=
  ∀ (s s1 : State) (u : TrunkId) (e : EngineId) (v : Bool), s.resetLow = false → s.takeDelivery u .l = some (v, s1) →
    s.managed u = true → (s.trunk u).state = .taken → (s.trunk u).holder = some e → (s.engine e).acts = true →
    ((s.engine e).phase.supervised = true →
      exec (.debouncedLChange u) s = .next (s1.setEngine e { s.engine e with
        lossTimer := if v then none else some (ticksOfMs s.siteOr.loopLossTime) })) ∧
    ((s.engine e).phase = .clear → exec (.debouncedLChange u) s = .next s1) ∧
    ((s.engine e).phase = .seize → v = false → exec (.debouncedLChange u) s = .next s1) ∧
    ((s.engine e).phase = .seize → v = true → s.debounced u .f = false →
      (∀ c, (s.engine e).work.call = some c →
        ((s.routeOr c.route).dialToneMode = .blind →
          exec (.debouncedLChange u) s = .next (s1.setEngine e { s.engine e with
            phase := .dialTone, step := .blind
            phaseTimer := some (300 - min (s.clock - (s.engine e).seizeStart.getD s.clock) 200) })) ∧
        ((s.routeOr c.route).dialToneMode = .wait →
          ∃ y, exec (.debouncedLChange u) s = .next (s1.setEngine e y) ∧
            y = { s.engine e with phase := .dialTone, step := .listen, phaseTimer := some 400,
                                  generator := Generator.silent, listening := y.listening, detector := y.detector } ∧
            NamesTones s [(ToneRole.dialTone, s.siteOr.dialTone), (ToneRole.reorder, s.siteOr.reorderTone)] (s.engine e) y)) ∧
      (∀ r, (s.engine e).work = .lineTest r →
        ∃ y, exec (.debouncedLChange u) s = .next (s1.setEngine e y) ∧
          y = { s.engine e with
            phase := .dialTone, step := .listen, phaseTimer := some 400, generator := Generator.silent
            work := .lineTest { r with loopDelay := min (s.clock - (s.engine e).seizeStart.getD s.clock) 200 }
            listening := y.listening, detector := y.detector } ∧
          NamesTones s [(ToneRole.dialTone, s.siteOr.dialTone)] (s.engine e) y))

/-- R100, R28, R102: a delivered change of L or S on a SHARED trunk in an office state: office use makes an IDLE_OFFICE trunk
OFFICE_BUSY since this moment; its end makes an OFFICE_BUSY trunk IDLE_OFFICE, which is reported if it has become grantable; a
change that leaves the answer as it was changes nothing. R106, R51, R52: in WARNING the end of office use puts the trunk into
TAKEN and its holder into CLEAR with the seize off for the release guard. R101, R108, R111: on an IDLE_RESERVED or a COOLDOWN
trunk a change of L or S, and in TAKEN one of S, changes nothing. (Causes to select are counted: log 8.) -/
def Obligations.OfficeUseFollowsSignals : Prop :=
  ∀ (s s1 : State) (u : TrunkId) (sig : LineSignal) (c : Instr) (v : Bool), s.resetLow = false →
    (sig = .l ∧ c = .debouncedLChange u ∨ sig = .s ∧ c = .debouncedSChange u) →
    s.takeDelivery u sig = some (v, s1) →
    ((s.trunk u).state = .idleReserved ∨ (s.trunk u).state = .cooldown ∨ (s.trunk u).state = .taken ∧ sig = .s →
      exec c s = .next s1) ∧
    (s.trunkRole u = .shared →
      ((s.trunk u).state = .idleOffice → s.officeUse u = true →
        exec c s = .next (s1.setTrunk u { s.trunk u with state := .officeBusy, busySince := some s.clock })) ∧
      ((s.trunk u).state = .idleOffice → s.officeUse u = false → exec c s = .next s1) ∧
      ((s.trunk u).state = .officeBusy → s.officeUse u = true → exec c s = .next s1) ∧
      ((s.trunk u).state = .officeBusy → s.officeUse u = false → ∀ s2 : State,
        s2 = s1.setTrunk u { s.trunk u with state := .idleOffice, busySince := none } →
        exec c s = .next (if (s.trunk u).barred || (s.trunk u).faulted then s2 else s2.cause)) ∧
      ((s.trunk u).state = .warning → s.officeUse u = true → exec c s = .next s1) ∧
      (∀ e k, (s.trunk u).state = .warning → s.officeUse u = false → (s.trunk u).holder = some e →
        (s.engine e).phase = .acquire → (s.engine e).abort = none → (s.engine e).work.call = some k → k.fromOffice = true →
        exec c s =
          .next ((s1.setTrunk u { s.trunk u with state := .taken, busySince := none, warnTimer := none }).setEngine e
            { s.engine e with phase := .clear, step := .none, seize := false,
                              phaseTimer := some (ticksOfMs s.siteOr.releaseGuard) })))

/-- R99, R100, R111: a delivered change of G on a managed trunk: its fall starts the ring-recent timer at 6 s and its rise
removes it, in every state that is not an office call's end; the timer running out removes it, and a reserved trunk, or a shared
one with no other office use, may be granted again, unless a further fall of G waits to be taken (the model's reading, log 25).
On a busy trunk that L or S keeps in use, and in TAKEN and COOLDOWN, the timer running out removes it and nothing more; a timer
that has not run out does nothing (the model's choice, log 1). R106, R51, R52: in WARNING a change of G leaves the office call
in being, and the timer running out with no other office use puts the trunk into TAKEN and its holder into CLEAR. (Causes to
select are counted: log 8.) -/
def Obligations.RingFollowsG : Prop :=
  ∀ (s : State) (u : TrunkId), s.resetLow = false →
    (∀ s1 v, s.takeDelivery u .g = some (v, s1) → s.managed u = true → s.debounced u .g = v →
      ((s.trunk u).state = .idleReserved ∨ (s.trunk u).state = .taken ∨ (s.trunk u).state = .cooldown ∨
          (s.trunk u).state = .officeBusy ∨ (s.trunk u).state = .warning →
        exec (.debouncedGChange u) s =
          .next (s1.setTrunk u { s.trunk u with ringTimer := if v then none else some 600 })) ∧
      ((s.trunk u).state = .idleOffice → s.trunkRole u = .shared →
        exec (.debouncedGChange u) s = .next (s1.setTrunk u { s.trunk u with
          ringTimer := if v then none else some 600, state := .officeBusy, busySince := some s.clock }))) ∧
    ((s.trunk u).ringTimer = some 0 → (⟨u, .g, false⟩ : Delivery) ∈ s.hwi.deliveries →
      s.trunkRole u = .reserved ∧ (s.trunk u).state = .idleReserved ∨
        s.trunkRole u = .shared ∧ (s.trunk u).state = .officeBusy ∨ (s.trunk u).state = .warning →
      exec (.ringRecentExpiry u) s = .next (s.setTrunk u { s.trunk u with ringTimer := none })) ∧
    ((s.trunk u).ringTimer = some 0 → s.debounced u .g = false → (⟨u, .g, false⟩ : Delivery) ∉ s.hwi.deliveries →
      (s.trunkRole u = .reserved → (s.trunk u).state = .idleReserved → ∀ s2 : State,
        s2 = s.setTrunk u { s.trunk u with ringTimer := none } →
        exec (.ringRecentExpiry u) s = .next (if (s.trunk u).barred || (s.trunk u).faulted then s2 else s2.cause)) ∧
      (s.trunkRole u = .shared → (s.trunk u).state = .officeBusy → s.debounced u .l = false → s.debounced u .s = false →
        ∀ s2 : State, s2 = s.setTrunk u { s.trunk u with ringTimer := none, state := .idleOffice, busySince := none } →
        exec (.ringRecentExpiry u) s = .next (if (s.trunk u).barred || (s.trunk u).faulted then s2 else s2.cause))) ∧
    ((s.trunk u).ringTimer = some 0 →
      (s.trunkRole u = .shared ∧ (s.trunk u).state = .officeBusy ∧ (s.debounced u .l = true ∨ s.debounced u .s = true)) ∨
        (s.trunk u).state = .taken ∨ (s.trunk u).state = .cooldown →
      exec (.ringRecentExpiry u) s = .next (s.setTrunk u { s.trunk u with ringTimer := none })) ∧
    ((s.trunk u).ringTimer ≠ some 0 → exec (.ringRecentExpiry u) s = .next s) ∧
    ((s.trunk u).ringTimer = some 0 → (s.trunk u).state = .warning →
      (s.debounced u .g = true ∨ s.debounced u .l = true ∨ s.debounced u .s = true →
        exec (.ringRecentExpiry u) s = .next (s.setTrunk u { s.trunk u with ringTimer := none })) ∧
      (∀ e k, s.debounced u .g = false → s.debounced u .l = false → s.debounced u .s = false →
        (⟨u, .g, false⟩ : Delivery) ∉ s.hwi.deliveries → (s.trunk u).holder = some e → (s.engine e).phase = .acquire →
        (s.engine e).abort = none → (s.engine e).work.call = some k → k.fromOffice = true →
        exec (.ringRecentExpiry u) s =
          .next ((s.setTrunk u { s.trunk u with
            ringTimer := none, state := .taken, busySince := none, warnTimer := none }).setEngine e
            { s.engine e with phase := .clear, step := .none, seize := false,
                              phaseTimer := some (ticksOfMs s.siteOr.releaseGuard) })))

/-- R114, R55, R53, R155: a delivered F on a managed trunk: its rise makes a trunk that is not faulted faulted, with TRUNK_FAULT
of cause CARD, and, where an engine holds the trunk TAKEN in SEIZE or later, ends what the engine holds with CARD_FAULT; its
fall changes nothing. R52: at a holder in CLEAR its rise makes the trunk faulted alone. The two are taken in either order: R113,
R115: the call's line failure is counted, or the line test's code taken, on a trunk that the card fault has faulted already, or
before it has, a second failure offering the trunk-fault alert (R12) then (see Ended). What the generator of an engine that has
gone through CLOSING holds (log 27), and that its reports are discarded with the release (R56; log 12), is the model's. -/
def Obligations.CardFaultRises : Prop :=
  ∀ (s s1 : State) (u : TrunkId) (order : FaultOrder) (v : Bool), s.resetLow = false →
    s.takeDelivery u .f = some (v, s1) → s.managed u = true →
    (v = false → exec (.debouncedFChange u order) s = .next s1) ∧
    (v = true → (s.trunk u).state ≠ .taken →
      exec (.debouncedFChange u order) s =
        .next (if (s.trunk u).faulted then s1
          else (s1.setTrunk u { s.trunk u with faulted := true }).raise (.trunkFault u .card))) ∧
    (∀ e, v = true → (s.trunk u).state = .taken → (s.trunk u).holder = some e → (s.engine e).phase = .clear →
      exec (.debouncedFChange u order) s =
        .next (if (s.trunk u).faulted then s1
          else (s1.setTrunk u { s.trunk u with faulted := true }).raise (.trunkFault u .card))) ∧
    (∀ e, v = true → (s.trunk u).state = .taken → (s.trunk u).holder = some e → (s.engine e).acts = true →
      (s.engine e).phase = .seize ∨ (s.engine e).phase.supervised = true → (s.engine e).work.trunk = some u →
      ∃ t, exec (.debouncedFChange u order) s = .next t ∧ (t.trunk u).faulted = true ∧
        (t.trunk u).state = .cooldown ∧ (t.trunk u).holder = none ∧
        (order = .trunkFirst → Ended e .cardFault .cardFault
          (if (s.trunk u).faulted then s1
            else (s1.setTrunk u { s.trunk u with faulted := true }).raise (.trunkFault u .card)) t) ∧
        (order = .engineFirst → ∃ m, Ended e .cardFault .cardFault s1 m ∧ SecondFailureAlerts e s1 m ∧
          t = if (m.trunk u).faulted then m
            else (m.setTrunk u { m.trunk u with faulted := true }).raise (.trunkFault u .card)) ∧
        t.engine e = { Engine.reset with detector := (s.engine e).detector.release fun _ => true })

/-- R64: a delivered change of V at the engine that holds the trunk in TAKEN: away from the polarity reference it is
FAR_CLEARED; at the reference, or before one is taken, it changes nothing. R52, R101: on a trunk that is not TAKEN, and at a
holder in CLEAR, a change of V changes nothing. What the generator of an engine that has gone through CLOSING holds (log 27),
and that its reports are discarded with the release (R56; log 12), is the model's. -/
def Obligations.PolarityLossClearsCall : Prop :=
  (∀ (s s1 : State) (u : TrunkId) (v : Bool), s.resetLow = false → s.takeDelivery u .v = some (v, s1) →
    ((s.trunk u).state ≠ .taken ∨
      ∃ e, (s.trunk u).holder = some e ∧ (s.engine e).phase = .clear ∧ (s.engine e).polRef = none) →
    exec (.debouncedVChange u) s = .next s1) ∧
  ∀ (s s1 : State) (u : TrunkId) (e : EngineId) (v : Bool), s.resetLow = false → s.takeDelivery u .v = some (v, s1) →
    s.managed u = true → (s.trunk u).state = .taken → (s.trunk u).holder = some e → (s.engine e).acts = true →
    ((s.engine e).polRef = none ∨ (s.engine e).polRef = some v → exec (.debouncedVChange u) s = .next s1) ∧
    ((s.engine e).polRef = some (!v) → (s.engine e).work.call.isSome = true →
      ∃ t, exec (.debouncedVChange u) s = .next t ∧ Ended e .farCleared .noLoop s1 t)

/-- R106, R51, R52: a warning timer that runs out puts the trunk into TAKEN and its holder, whose call is from the office, into
CLEAR with the seize off for the release guard. R111: a guard that runs out puts the trunk into the idle state of its role,
reported if it has become grantable (causes to select are counted: log 8). R111, R145, R116: with a trunk write staged, that
write is applied as the guard runs out, with TABLE_APPLIED and a cause to select, and the trunk is in the state of its new role.
R127: a warning part that has ended gives way to the other, read from the site record then: ON of frequency and level for the
warning on time, OFF for the warning off time. That a change delivered and not yet taken waits while the applied write makes its
trunk unmanaged is the model's reading (log 22). -/
def Obligations.TrunkTimersEnd : Prop :=
  (∀ (s : State) (u : TrunkId), s.resetLow = false →
    (∀ n f a, vget s.hwi.warnings u = .on 0 n f a →
      exec (.warningPartEnd u) s = .next { s with hwi := { s.hwi with
        warnings := vput s.hwi.warnings u (.off (s.siteOr.warningOff * 8)) } }) ∧
    (vget s.hwi.warnings u = .off 0 →
      exec (.warningPartEnd u) s = .next { s with hwi := { s.hwi with
        warnings := vput s.hwi.warnings u
          (.on (s.siteOr.warningOn * 8) 0 s.siteOr.warningFrequency s.siteOr.generatorLevel) } })) ∧
  ∀ (s : State) (u : TrunkId), s.resetLow = false →
    (∀ e c, (s.trunk u).state = .warning → (s.trunk u).warnTimer = some 0 → (s.trunk u).holder = some e →
      (s.engine e).phase = .acquire → (s.engine e).abort = none → (s.engine e).work.call = some c → c.fromOffice = true →
      exec (.warningTimerExpiry u) s =
        .next ((s.setTrunk u { s.trunk u with state := .taken, busySince := none, warnTimer := none }).setEngine e
          { s.engine e with phase := .clear, step := .none, seize := false,
                            phaseTimer := some (ticksOfMs s.siteOr.releaseGuard) })) ∧
    ((s.trunk u).state = .cooldown → (s.trunk u).guard = .running 0 → (vget s.tables.trunks u).staged = none →
      (s.trunkRole u = .reserved → ∀ s2 : State,
        s2 = s.setTrunk u { s.trunk u with state := .idleReserved, guard := .absent } →
        exec (.guardTimerExpiry u) s =
          .next (if (s.trunk u).barred || (s.trunk u).faulted || s.ringRecently u then s2 else s2.cause)) ∧
      (s.trunkRole u = .shared → ∀ s2 : State,
        s2 = s.setTrunk u (if s.officeUse u
          then { s.trunk u with state := .officeBusy, guard := .absent, busySince := some s.clock }
          else { s.trunk u with state := .idleOffice, guard := .absent, busySince := none }) →
        exec (.guardTimerExpiry u) s = .next (if (s.trunk u).barred || (s.trunk u).faulted then s2 else s2.cause))) ∧
    (∀ en, (s.trunk u).state = .cooldown → (s.trunk u).guard = .running 0 → (vget s.tables.trunks u).staged = some en →
      s.managed u = true → ∃ t, exec (.guardTimerExpiry u) s = .next t ∧
        t.tables = { s.tables with trunks := vput s.tables.trunks u ⟨some en, none⟩ } ∧
        (∀ k : EventKind, vget t.evr.records k =
          if k = 12 then (vget s.evr.records 12).occur (.tableApplied (.trunk u)) else vget s.evr.records k) ∧
        t.evr.emission = s.evr.emission ∧ s.dsc.selectionsDue < t.dsc.selectionsDue ∧
        (∀ kept : Trunk, kept = { s.trunk u with holder := none, warnTimer := none, guard := .absent } →
          t.trunk u = (match en.role with
            | .unused => { Trunk.reset with barred := (s.trunk u).barred }
            | .office => { Trunk.reset with barred := (s.trunk u).barred }
            | .reserved => { kept with state := .idleReserved, busySince := none }
            | .shared => if s.officeUse u then { kept with state := .officeBusy, busySince := some s.clock }
              else { kept with state := .idleOffice, busySince := none })) ∧
        (∀ w, w ≠ u → t.trunk w = s.trunk w) ∧ SameEdge s t ∧ t.queue = s.queue ∧ t.engines = s.engines ∧
        t.dsc.hold = s.dsc.hold ∧ t.cmu.slot = s.cmu.slot ∧ t.cmu.silent = s.cmu.silent)

/-- R102, R99: a trunk is grantable to a request of a mode exactly when it is managed, not barred, not faulted, and
IDLE_RESERVED without ring recently, IDLE_OFFICE, or OFFICE_BUSY with a mode other than NONE. R104: a line test is granted a
managed trunk, barred or faulted as it may be, that is IDLE_RESERVED without ring recently or IDLE_OFFICE. Ring recently is G,
the timer, or a fall of G that waits to be taken (the last the model's reading, log 25). R103: the grant order. A request is
refused exactly when no trunk is grantable; otherwise it is granted a grantable trunk: the lowest IDLE_RESERVED one, else the
lowest IDLE_OFFICE one, else of the busy ones the one longest in office use, the lowest among equals. R105: the grant puts an
OFFICE_BUSY trunk into WARNING for an AFTER_WARNING request of a class with a warning time, its warning source to start afresh
(R106), and any other into TAKEN, with OFFICE_PREEMPTED for an office call. -/
def Obligations.GrantOrder : Prop :=
  (∀ (s : State) (u : TrunkId) (ring : Prop),
    (ring ↔ s.debounced u .g = true ∨ (s.trunk u).ringTimer ≠ none ∨ (⟨u, .g, false⟩ : Delivery) ∈ s.hwi.deliveries) →
    (∀ mode, s.grantable mode u = true ↔
      (s.trunkRole u = .shared ∨ s.trunkRole u = .reserved) ∧ (s.trunk u).barred = false ∧ (s.trunk u).faulted = false ∧
      ((s.trunk u).state = .idleReserved ∧ ¬ring ∨ (s.trunk u).state = .idleOffice ∨
        (s.trunk u).state = .officeBusy ∧ mode ≠ .none)) ∧
    (s.lineTestGrantable u = true ↔
      (s.trunkRole u = .shared ∨ s.trunkRole u = .reserved) ∧
      ((s.trunk u).state = .idleReserved ∧ ¬ring ∨ (s.trunk u).state = .idleOffice))) ∧
  (∀ (s : State) (mode : PreemptMode),
    (s.chooseTrunk mode = none ↔ ∀ u, s.grantable mode u = false) ∧
    ∀ u, s.chooseTrunk mode = some u → s.grantable mode u = true ∧
      ((s.trunk u).state = .idleReserved → ∀ w, s.grantable mode w = true → (s.trunk w).state = .idleReserved → u ≤ w) ∧
      ((s.trunk u).state = .idleOffice →
        ∀ w, s.grantable mode w = true →
          (s.trunk w).state ≠ .idleReserved ∧ ((s.trunk w).state = .idleOffice → u ≤ w)) ∧
      ((s.trunk u).state = .officeBusy →
        ∀ w, s.grantable mode w = true → (s.trunk w).state = .officeBusy ∧
          ((s.trunk u).busySince.getD 0 < (s.trunk w).busySince.getD 0 ∨
            (s.trunk u).busySince.getD 0 = (s.trunk w).busySince.getD 0 ∧ u ≤ w))) ∧
  ∀ (s : State) (u : TrunkId) (e : EngineId) (mode : PreemptMode) (sec : Nat) (cls : ClassId),
    ((s.trunk u).state ≠ .officeBusy → s.grantTrunk u e mode sec cls = s.setTrunk u { s.trunk u with
      state := .taken, busySince := none, warnTimer := none, holder := some e }) ∧
    ((s.trunk u).state = .officeBusy → mode = .afterWarning → 0 < sec → s.grantTrunk u e mode sec cls =
      (({ s with hwi := { s.hwi with warnings := vput s.hwi.warnings u .stopped } } : State).setTrunk u
        { s.trunk u with state := .warning, holder := some e, warnTimer := some (sec * 100) }).raise
        (.officePreempted u cls)) ∧
    ((s.trunk u).state = .officeBusy → mode ≠ .afterWarning ∨ sec = 0 → s.grantTrunk u e mode sec cls =
      (s.setTrunk u { s.trunk u with state := .taken, busySince := none, warnTimer := none, holder := some e }).raise
        (.officePreempted u cls))

/-! ### Reports taken by an engine -/

/-- R57, R113, R59, R60: dial tone matched in LISTEN: the trunk's count of line failures is cleared, everything is unloaded, the
reports not taken being discarded at the release (R56; log 12) (R145: and staged writes of tone and cadence entries that no one
else uses are applied) and the engine goes on at its dial position; a W, or the string's end, loads the entries of the next
LISTEN step (R56, R79), with the tables as they are then; reorder matched there is NO_DIAL_TONE; R113, R12: as the trunk's
second line failure it faults the trunk, with TRUNK_FAULT of cause COUNT, and offers the trunk-fault alert (see Ended,
SecondFailureAlerts). What the generator holds while it sends nothing, and beside its timer during a pause, is the model's choice
(log 27), and so is that an engine
that closes discards its reports with the release (R56; log 12). -/
def Obligations.DialToneTaken : Prop :=
  ∀ (s : State) (e : EngineId) (tone : ToneId) (c : CallRecord), s.resetLow = false → (s.engine e).acts = true →
    Report.matched tone ∈ (s.engine e).reports → (s.engine e).phase = .dialTone → (s.engine e).step = .listen →
    (s.engine e).work.call = some c →
    ((s.engine e).roleOf tone = some .dialTone →
      ∃ t, exec (.dialToneMatchedTaken e tone) s = .next t ∧ SameButToneTables s t ∧ UsesEnded (s.lastLoaded e) s t ∧
        t.trunk c.trunk = { s.trunk c.trunk with failures := 0 } ∧
        (∀ u, u ≠ c.trunk → t.trunk u = s.trunk u) ∧ (∀ f, f ≠ e → t.engine f = s.engine f) ∧
        DialsFrom t c.route (s.engine e).dialPos
          { s.engine e with listening := [], reports := [], detector := (s.engine e).detector.release fun _ => true }
          (t.engine e)) ∧
    ((s.engine e).roleOf tone = some .reorder →
      ∃ t, exec (.dialToneMatchedTaken e tone) s = .next t ∧ Ended e .noDialTone .noDialTone s t ∧ SecondFailureAlerts e s t)

/-- R62, R63, R45: in AWAIT_ANSWER, LISTEN, busy is BUSY, reorder is CONGESTION, and the handshake takes the polarity reference
and leaves its own entry alone loaded, with its absence watch, in TONE_HEARD, the answer timeout running on; R145: staged writes
of the released busy and reorder entries, and of the cadence entries they refer to, are applied where no one else uses them.
R56: the report is taken, and those of the released entries that wait are discarded at the release (log 12). What the generator
of an engine that has gone through CLOSING holds (log 27), and that its reports are discarded with the release (R56; log 12), is
the model's. -/
def Obligations.AnswerToneTaken : Prop :=
  ∀ (s : State) (e : EngineId) (tone : ToneId) (c : CallRecord), s.resetLow = false → (s.engine e).acts = true →
    Report.matched tone ∈ (s.engine e).reports → (s.engine e).phase = .awaitAnswer → (s.engine e).step = .listen →
    (s.engine e).work.call = some c →
    ((s.engine e).roleOf tone = some .busy →
      ∃ t, exec (.answerMatchedTaken e tone) s = .next t ∧ Ended e .busy .noLoop s t) ∧
    ((s.engine e).roleOf tone = some .reorder →
      ∃ t, exec (.answerMatchedTaken e tone) s = .next t ∧ Ended e .congestion .noLoop s t) ∧
    ((s.engine e).roleOf tone = some .handshake →
      ∃ t, exec (.answerMatchedTaken e tone) s = .next t ∧ SameButToneTables s t ∧ UsesEnded (s.lastReleased e tone) s t ∧
        t.trunks = s.trunks ∧
        (∀ f, f ≠ e → t.engine f = s.engine f) ∧
        t.engine e = { s.engine e with
          step := .toneHeard, polRef := some (s.debounced c.trunk .v), listening := [(ToneRole.handshake, tone)]
          detector := ((s.engine e).detector.release fun l => l.tone != tone).watch tone Loading.watchAbsence
          reports := ((s.engine e).reports.erase (.matched tone)).filter fun r =>
            !(s.engine e).detector.loadings.any fun l => l.live && l.tone != tone && l.tone == r.tone })

/-- R68, R44, R21: the acknowledgement matched in LISTEN: the current entry is ACKED, its record leaves the queue with DELIVERED
(the test block of a test call names no record), and then the pre-emption check is made (R38, R39). With no mark on its call the
engine waits for the tone's end within a fresh ack timeout; a marked call stops there, with no cause (R68, R71). The check marks
nothing where the other engine is IDLE, a call is marked already, the hold is ON, the tables are not ready or sync is lost, nor
where no record waits; with both engines in calls it marks, for a first WAITING record that is eligible and more urgent than
both head classes, the call with the less urgent head class, the later among equals, which may be this one; a mark on the other
one is acted on when its engine takes it (the model's reading, log 8). What the generator of an engine that has gone through
CLOSING holds (log 27), and that its reports are discarded with the release (R56; log 12), is the model's. -/
def Obligations.AcknowledgementTaken : Prop :=
  ∀ (s : State) (e : EngineId) (tone : ToneId) (c : CallRecord) (b : BlockEntry), s.resetLow = false →
    (s.engine e).acts = true → Report.matched tone ∈ (s.engine e).reports → (s.engine e).phase = .awaitAck →
    (s.engine e).step = .listen → (s.engine e).work.call = some c → (s.engine e).roleOf tone = some .ack →
    c.blocks[c.current]? = some b → ∀ (y : Engine) (sB : State),
    y = { s.engine e with
      phaseTimer := none
      reports := (s.engine e).reports.erase (.matched tone)
      work := (s.engine e).work.mapCall fun c =>
        { c with blocks := c.blocks.modify c.current fun b => { b with state := .acked } } } →
    (b.handle = none ∧ sB = s.setEngine e y ∨
      ∃ h r f, b.handle = some h ∧ s.findRecord h = some r ∧ r.state = .inCall f ∧
        sB = (({ s with queue := s.queue.filter fun r => r.handle != h } : State).raise
          (.delivered h r.key c.route)).setEngine e y) →
    ∀ heard : Engine, heard = { y with
      step := .toneHeard, phaseTimer := some ((s.routeOr c.route).ackTimeout * 10)
      detector := (s.engine e).detector.watch tone Loading.watchAbsence } →
    ((s.engine (other e)).phase = .idle ∨ s.dsc.marked.isSome = true ∨ s.dsc.hold.isSome = true ∨ s.ready = false ∨
        s.inSync = false →
      (c.preempt = false → exec (.ackMatchedTaken e tone) s = .next (sB.setEngine e heard)) ∧
      (c.preempt = true → ∃ t, exec (.ackMatchedTaken e tone) s = .next t ∧ Stopped e .preempted sB t)) ∧
    (c.preempt = false → (∀ z ∈ sB.queue, z.state ≠ .waiting) →
      exec (.ackMatchedTaken e tone) s = .next (sB.setEngine e heard)) ∧
    ∀ (i j : EngineId) (m n : Nat) (pre post : List Record) (r : Record) (ce : ClassEntry) (rt : RouteId), c.preempt = false →
      (s.engine (other e)).phase ≠ .idle → s.dsc.marked = none → s.dsc.hold = none → s.ready = true → s.inSync = true →
      s.dsc.startOrder = [i, j] → i ≠ j → sB.headClass i = some m → sB.headClass j = some n →
      (sB.queue.map Record.handle).Nodup → sB.queue = pre ++ r :: post → (∀ z ∈ pre, z.state ≠ .waiting) →
      r.state = .waiting → s.classEntry r.cls = some ce → ce.routes[r.routePos]? = some rt → s.routeValid rt = true →
      s.callOn rt = none → r.cls.val < m → r.cls.val < n → ∀ (k : EngineId) (sM : State), k = (if n < m then i else j) →
      sM = ({ sB with dsc := { sB.dsc with marked := some k } } : State).setEngine k { sB.engine k with
        work := (sB.engine k).work.mapCall fun c => { c with preempt := true } } →
      (k = e → ∃ t, exec (.ackMatchedTaken e tone) s = .next t ∧ Stopped e .preempted sM t) ∧
      (k ≠ e → exec (.ackMatchedTaken e tone) s = .next (sM.setEngine e heard))

/-- R156: in a line test, dial tone matched clears the trunk's count of line failures and opens the 1 s level window with the
level watch set; a LEVEL in it raises the peak, of several that wait the oldest being taken (the model's choice, log 29); at its
end the test ends with LOW_TONE below the good level, and otherwise with PASS, or PASS_REVERSED if V was present at the seize.
R157: its result is written, the slot empties and LINE_TEST_DONE is raised. R115: PASS and PASS_REVERSED clear the trunk's count
and, with F absent, its faulted flag, if it was set, with TRUNK_CLEARED; LOW_TONE makes the trunk faulted, if it was not, with
TRUNK_FAULT of cause TEST, and leaves the count (TestCodeTaken, in Ended). R12: for a cleared trunk the RESTORE alert is
offered, class TROUBLE, source 0, zone trunk + 1, the site record's line fault event code; otherwise the queue is as it was.
What the generator holds while it sends nothing is the model's choice (log 27), and so is that an engine that closes discards
its reports with the release (R56; log 12). -/
def Obligations.LineTestMeasures : Prop :=
  ∀ (s : State) (e : EngineId) (r : LineTestRecord), s.resetLow = false → (s.engine e).acts = true →
    (s.engine e).work = .lineTest r → (s.engine e).phase = .dialTone →
    (∀ tone, (s.engine e).step = .listen → Report.matched tone ∈ (s.engine e).reports →
      (s.engine e).roleOf tone = some .dialTone →
      exec (.lineTestToneMatched e tone) s =
        .next ((s.setTrunk r.trunk { s.trunk r.trunk with failures := 0 }).setEngine e { s.engine e with
          step := .toneHeard, phaseTimer := some 100, work := .lineTest { r with peak := 0 }
          reports := (s.engine e).reports.erase (.matched tone)
          detector := (s.engine e).detector.watch tone Loading.watchLevel })) ∧
    (∀ rep n, oldestLevel (s.engine e).reports = some (rep, n) →
      exec (.levelTaken e) s = .next (s.setEngine e { s.engine e with
        work := .lineTest { r with peak := max r.peak n }, reports := (s.engine e).reports.erase rep })) ∧
    ((s.engine e).step = .toneHeard → (s.engine e).phaseTimer = some 0 → ∀ code,
      code = (if r.peak < s.siteOr.goodLevel * 256 then TestCode.lowTone
        else if r.polarity then .passReversed else .pass) →
      ∃ t, exec (.levelWindowExpiry e) s = .next t ∧ Ended e .aborted code s t ∧
        (code ≠ .lowTone → (s.trunk r.trunk).faulted = true → s.debounced r.trunk .f = false →
          LineAlertOffered r.trunk .restore e s t) ∧
        (code = .lowTone ∨ (s.trunk r.trunk).faulted = false ∨ s.debounced r.trunk .f = true → t.queue = s.queue))

/-- R63, R68: in TONE_HEARD the tone's end, or in AWAIT_ACK the ack timeout, unloads the entry and begins the 250 ms guard;
R145: a staged write of an entry that no one else uses is applied then. R56: a MATCHED that names an entry of no role of the
current step is discarded when it is taken (by any of the four commands: log 12). -/
def Obligations.ToneEndsAndForeignMatches : Prop :=
  (∀ (s : State) (e : EngineId) (tone : ToneId) (c : Instr), s.resetLow = false → (s.engine e).acts = true →
    Report.matched tone ∈ (s.engine e).reports → (s.engine e).roleOf tone = none →
    (c = .dialToneMatchedTaken e tone ∨ c = .answerMatchedTaken e tone ∨ c = .ackMatchedTaken e tone ∨
      c = .lineTestToneMatched e tone) →
    exec c s = .next (s.setEngine e { s.engine e with reports := (s.engine e).reports.erase (.matched tone) })) ∧
  ∀ (s : State) (e : EngineId), s.resetLow = false → (s.engine e).acts = true → (s.engine e).step = .toneHeard →
    (∀ tone, Report.absent tone ∈ (s.engine e).reports →
      (s.engine e).phase = .awaitAnswer ∨ (s.engine e).phase = .awaitAck →
      ∃ t, exec (.absentTaken e tone) s = .next t ∧ SameButToneTables s t ∧ UsesEnded (s.lastLoaded e) s t ∧
        t.trunks = s.trunks ∧ (∀ f, f ≠ e → t.engine f = s.engine f) ∧ t.engine e = (s.engine e).guarding .guard) ∧
    ((s.engine e).phase = .awaitAck → (s.engine e).phaseTimer = some 0 →
      ∃ t, exec (.ackToneHeardTimeout e) s = .next t ∧ SameButToneTables s t ∧ UsesEnded (s.lastLoaded e) s t ∧
        t.trunks = s.trunks ∧ (∀ f, f ≠ e → t.engine f = s.engine f) ∧ t.engine e = (s.engine e).guarding .guard)

/-! ### Timers and symbols of an engine -/

/-- R52, R53, R155: the release guard of CLEAR ends in SEIZE: the seize goes on from this moment with the loop timeout, a line
test notes V; with L present already SEIZE ends for DIALTONE at once, the valid entries of a LISTEN step loaded STARTING (R56,
R79), and with F present the call or test ends with CARD_FAULT; R113, R115, R12: the line failure is counted on the trunk, its
second one with TRUNK_FAULT of cause COUNT and the trunk-fault alert, and a line test's code makes the trunk faulted with cause
TEST. What the generator holds while it sends nothing is the model's choice (log 27), and so is that an engine that closes
discards its reports with the release (R56; log 12). -/
def Obligations.ClearEndsInSeize : Prop :=
  ∀ (s : State) (e : EngineId) (u : TrunkId), s.resetLow = false → (s.engine e).acts = true →
    (s.engine e).phaseTimer = some 0 → (s.engine e).phase = .clear → (s.engine e).work.trunk = some u →
    (s.debounced u .f = false → s.debounced u .l = false →
      exec (.releaseGuardExpiry e) s = .next (s.setEngine e { s.engine e with
        phase := .seize, step := .none, seize := true, seizeStart := some s.clock
        phaseTimer := some (ticksOfMs s.siteOr.loopTimeout)
        work := (s.engine e).work.mapTest fun r => { r with polarity := s.debounced u .v } })) ∧
    (s.debounced u .f = false → s.debounced u .l = true →
      ∃ y, exec (.releaseGuardExpiry e) s = .next (s.setEngine e y) ∧ y.phase = .dialTone ∧ y.seize = true ∧
        y.seizeStart = some s.clock ∧
        (∀ c, (s.engine e).work.call = some c → y.work = (s.engine e).work ∧
          ((s.routeOr c.route).dialToneMode = .blind → y.step = .blind ∧ y.phaseTimer = some 300 ∧
            y.listening = (s.engine e).listening ∧ y.detector = (s.engine e).detector) ∧
          ((s.routeOr c.route).dialToneMode = .wait → y.step = .listen ∧ y.phaseTimer = some 400 ∧
            NamesTones s [(ToneRole.dialTone, s.siteOr.dialTone), (ToneRole.reorder, s.siteOr.reorderTone)]
              (s.engine e) y)) ∧
        (∀ r, (s.engine e).work = .lineTest r → y.step = .listen ∧ y.phaseTimer = some 400 ∧
          y.work = .lineTest { r with polarity := s.debounced u .v, loopDelay := 0 } ∧
          NamesTones s [(ToneRole.dialTone, s.siteOr.dialTone)] (s.engine e) y)) ∧
    (s.debounced u .f = true →
      ∃ t, exec (.releaseGuardExpiry e) s = .next t ∧ Ended e .cardFault .cardFault s t ∧ SecondFailureAlerts e s t)

/-- R53, R57, R54, R155, R156: no loop within the loop timeout, no dial tone within 4 s, a loop lost for the loop loss time:
NO_LOOP, NO_DIAL_TONE, LINE_LOST (NO_LOOP in a line test). R113: a call's line failure is counted on its trunk; the second, and
none below it nor on a trunk already faulted, makes the trunk faulted, with TRUNK_FAULT of cause COUNT, and R12: the trunk-fault
alert is offered, NEW, class TROUBLE, source 0, zone trunk + 1, the site record's line fault event code (SecondFailureAlerts:
what the offer makes of the queue is in AlertAdmission and AlertMeetsRecord). R157, R115: a line test is told with its code,
which makes the trunk faulted, if it was not, with TRUNK_FAULT of cause TEST, and leaves its count; no alert is offered. What
the generator of an engine that has gone through CLOSING holds (log 27), and that its reports are discarded with the release
(R56; log 12), is the model's. -/
def Obligations.LineFailuresEndWork : Prop :=
  ∀ (s : State) (e : EngineId) (c : Instr) (cause : CallOutcome) (code : TestCode), s.resetLow = false →
    (s.engine e).acts = true → (s.engine e).work ≠ .nothing →
    (c = .loopTimeoutExpiry e ∧ cause = .noLoop ∧ code = .noLoop ∧ (s.engine e).phaseTimer = some 0 ∧
        (s.engine e).phase = .seize ∨
      c = .dialToneTimeout e ∧ cause = .noDialTone ∧ code = .noDialTone ∧ (s.engine e).phaseTimer = some 0 ∧
        (s.engine e).phase = .dialTone ∧ (s.engine e).step = .listen ∨
      c = .loopLossExpiry e ∧ cause = .lineLost ∧ code = .noLoop ∧ (s.engine e).lossTimer = some 0 ∧
        (s.engine e).phase.supervised = true) →
    ∃ t, exec c s = .next t ∧ Ended e cause code s t ∧ SecondFailureAlerts e s t ∧
      (∀ k, (s.engine e).work.call = some k → (s.trunk k.trunk).state = .taken → (s.trunk k.trunk).holder = some e →
        (t.trunk k.trunk).failures = min ((s.trunk k.trunk).failures + 1) 2 ∧
        (1 ≤ (s.trunk k.trunk).failures → (t.trunk k.trunk).faulted = true)) ∧
      ∀ r, (s.engine e).work = .lineTest r → t.queue = s.queue

/-- R62, R63, R69, R71: the answer timeout, in LISTEN or TONE_HEARD, is NO_ANSWER. The ack timeout in LISTEN resends after the
250 ms guard while tries are left, the entry unloaded and the reports not taken discarded at the release (R56; log 12), and is
NO_ACK at the last; a marked call stops there instead, with no cause. What the generator of an engine that has gone through
CLOSING holds (log 27), and that its reports are discarded with the release (R56; log 12), is the model's. -/
def Obligations.TimeoutsOfTheCentre : Prop :=
  ∀ (s : State) (e : EngineId) (c : CallRecord), s.resetLow = false → (s.engine e).acts = true →
    (s.engine e).phaseTimer = some 0 → (s.engine e).work.call = some c →
    ((s.engine e).phase = .awaitAnswer → (s.engine e).step = .listen ∨ (s.engine e).step = .toneHeard →
      ∃ t, exec (.answerTimeout e) s = .next t ∧ Ended e .noAnswer .noLoop s t) ∧
    ((s.engine e).phase = .awaitAck → (s.engine e).step = .listen →
      (c.preempt = false → c.tries < (s.routeOr c.route).blockTries →
        ∃ t, exec (.ackTimeout e) s = .next t ∧ SameButToneTables s t ∧ UsesEnded (s.lastLoaded e) s t ∧ t.trunks = s.trunks ∧
          (∀ f, f ≠ e → t.engine f = s.engine f) ∧ t.engine e = (s.engine e).guarding .resendGuard) ∧
      (c.preempt = false → (s.routeOr c.route).blockTries ≤ c.tries →
        ∃ t, exec (.ackTimeout e) s = .next t ∧ Ended e .noAck .noLoop s t) ∧
      (c.preempt = true → ∃ t, exec (.ackTimeout e) s = .next t ∧ Stopped e .preempted s t))

/-- R58 to R62: the blind wait ends with the dial string from its first symbol; a symbol of it, or a pause, that ends gives way
to the next. R67, R68: a symbol of a block that ends gives way to the next; after the check symbol the entry is AWAIT_ACK and
the engine listens for the acknowledgement within the route's ack timeout. R56, R79: in each LISTEN step that begins the valid
entries of the step are loaded STARTING, with copies and fresh classifiers. What the generator holds while it sends nothing, and
beside its timer during a pause, is the model's choice (log 27). -/
def Obligations.SymbolsGoOn : Prop :=
  (∀ (s : State) (e : EngineId) (c : CallRecord), s.resetLow = false → (s.engine e).acts = true →
    (s.engine e).work.call = some c →
    ((s.engine e).phaseTimer = some 0 → (s.engine e).phase = .dialTone → (s.engine e).step = .blind →
      ∃ y, exec (.blindWaitExpiry e) s = .next (s.setEngine e y) ∧ DialsFrom s c.route 0 (s.engine e) y) ∧
    ((s.engine e).generator.ended = true → (s.engine e).phase = .dialing →
      ∃ y, exec (.symbolEnd e) s = .next (s.setEngine e y) ∧
        DialsFrom s c.route ((s.engine e).dialPos + 1) (s.engine e) y)) ∧
  ∀ (s : State) (e : EngineId) (c : CallRecord), s.resetLow = false → (s.engine e).acts = true →
    (s.engine e).work.call = some c → (s.engine e).generator.ended = true → (s.engine e).phase = .sendBlock →
    (∀ v rest, (s.engine e).sending = v :: rest →
      exec (.symbolEnd e) s = .next (s.setEngine e { s.engine e with
        sending := rest, generator := Generator.start s.siteOr v })) ∧
    ((s.engine e).sending = [] →
      ∃ y, exec (.symbolEnd e) s = .next (s.setEngine e y) ∧
        y = { s.engine e with
          phase := .awaitAck, step := .listen, phaseTimer := some ((s.routeOr c.route).ackTimeout * 10)
          generator := Generator.silent
          work := (s.engine e).work.mapCall fun c =>
            { c with blocks := c.blocks.modify c.current fun b => { b with state := .awaitAck } }
          listening := y.listening, detector := y.detector } ∧
        NamesTones s [(ToneRole.ack, (s.routeOr c.route).ackTone)] (s.engine e) y)

/-- R63, R65 to R69: the guards end. After the handshake and after an ack timeout the current entry's block is sent, one try
more; after an acknowledged block the next QUEUED entry is sent as its first try, or the call ends, a test call with DELIVERED.
The block is the account, the class symbol, the qualifier as 1 NEW, 2 RESTORE or 3 TEST, the event code and the zone as 3
decimal symbols each and the source as 2, highest place first, and the check symbol (CheckSymbolClosesBlock); the class symbol
is the class entry's, or the class number if that entry is not valid. What the generator of a closed engine holds (log 27), and
that its reports are discarded with the release (R56; log 12), is the model's. -/
def Obligations.GuardEndsSend : Prop :=
  (∀ (account : List (Fin 16)) (sym : Fin 16) (k : Key), ∃ symbols : List (Fin 16),
    reportBlock account sym k = symbols ++ [checkSymbol symbols] ∧
    symbols.map Fin.val = account.map Fin.val ++ [sym.val,
      match k.qualifier with
      | .new => 1
      | .restore => 2
      | .test => 3,
      k.event / 100 % 10, k.event / 10 % 10, k.event % 10, k.zone / 100 % 10, k.zone / 10 % 10, k.zone % 10,
      k.source / 10 % 10, k.source % 10]) ∧
  (∀ (s : State) (k : ClassId),
    (∀ ce, s.classEntry k = some ce → s.classSymbol k = ce.classSymbol) ∧
    (s.classEntry k = none → (s.classSymbol k).val = k.val)) ∧
  ∀ (s : State) (e : EngineId) (c : CallRecord), s.resetLow = false → (s.engine e).acts = true →
    (s.engine e).phaseTimer = some 0 → (s.engine e).work.call = some c →
    (∀ cmd b h r, (cmd = .guardEnd e ∧ (s.engine e).phase = .awaitAnswer ∧ (s.engine e).step = .guard ∨
        cmd = .resendGuardEnd e ∧ (s.engine e).step = .resendGuard) →
      (s.engine e).work = .alertCall c → c.blocks[c.current]? = some b → b.handle = some h → s.findRecord h = some r →
      exec cmd s = .next (s.setEngine e ((s.engine e).sendsBlock s.siteOr
        (reportBlock s.siteOr.account (s.classSymbol r.cls) r.key)))) ∧
    (∀ cmd, (cmd = .guardEnd e ∧ (s.engine e).phase = .awaitAnswer ∧ (s.engine e).step = .guard ∨
        cmd = .resendGuardEnd e ∧ (s.engine e).step = .resendGuard) → (s.engine e).work = .testCall c →
      exec cmd s = .next (s.setEngine e ((s.engine e).sendsBlock s.siteOr
        (reportBlock s.siteOr.account (s.classSymbol 5) ⟨0, 0, s.siteOr.periodicEvent, .test⟩)))) ∧
    ((s.engine e).phase = .awaitAck → (s.engine e).step = .guard →
      (∀ b h r, (s.engine e).work = .alertCall c → c.blocks[c.current + 1]? = some b → b.state = .queued →
        b.handle = some h → s.findRecord h = some r →
        exec (.guardEnd e) s = .next (s.setEngine e
          ({ s.engine e with work := .alertCall { c with current := c.current + 1, tries := 0 } }.sendsBlock s.siteOr
            (reportBlock s.siteOr.account (s.classSymbol r.cls) r.key)))) ∧
      (c.blocks[c.current + 1]? = none →
        ∃ t, exec (.guardEnd e) s = .next t ∧ Closed e s t ∧
          ((s.engine e).work = .alertCall c → vget t.evr.records 1 = vget s.evr.records 1 ∧ t.cmu.slot = s.cmu.slot) ∧
          ((s.engine e).work = .testCall c → t.cmu.slot = .empty ∧
            vget t.evr.records 9 = (vget s.evr.records 9).occur (.testCallDone c.route .delivered))))

/-- R72, R71, R40: an engine that takes its abort, or a mark at a safe point, stops at once with no cause and goes through
CLOSING; a mark taken while a block is being sent or its acknowledgement awaited changes nothing. An ENGINE_ABORT with no abort
posted changes nothing (the model's choice, log 1). What the generator of an engine that has gone through CLOSING holds (log
27), and that its reports are discarded with the release (R56; log 12), is the model's. -/
def Obligations.AbortAndMarkTaken : Prop :=
  ∀ (s : State) (e : EngineId), s.resetLow = false →
    (∀ a, (s.engine e).abort = some a → (s.engine e).work ≠ .nothing →
      ∃ t, exec (.engineAbort e) s = .next t ∧ Stopped e .aborted s t) ∧
    ((s.engine e).abort = none → exec (.engineAbort e) s = .next s) ∧
    (∀ c, (s.engine e).acts = true → (s.engine e).work.call = some c → c.preempt = true →
      ((s.engine e).safePoint = true → ∃ t, exec (.preemptMarkTaken e) s = .next t ∧ Stopped e .preempted s t) ∧
      ((s.engine e).phase = .sendBlock ∨ (s.engine e).phase = .awaitAck ∧ (s.engine e).step = .listen →
        exec (.preemptMarkTaken e) s = .next s))

/-! ### The alert queue -/

/-- R4, R20: a second takes effect on each record whose own second has passed: 100 units after its admission, and after each
further whole second, its age is one more, to 65535, and 100 units after its entry into HELD, and after each further whole
second, its backoff is one less. That it takes effect in a step SECOND_TICK, one second a step, is the model's choice (log 5).
A HELD record whose backoff is at 0 becomes WAITING and is reported (see LateJoinMade). -/
def Obligations.SecondsAndBackoffs : Prop :=
  ∀ s : State, s.resetLow = false →
    exec .secondTick s = .next { s with queue := s.queue.map fun r => { r with
      age := if 100 ≤ r.agePart then min (r.age + 1) 65535 else r.age
      agePart := if 100 ≤ r.agePart then r.agePart - 100 else r.agePart
      state := match r.state with
        | .held n part => if 100 ≤ part then .held (n - 1) (part - 100) else .held n part
        | st => st } } ∧
    ∀ h r part, s.findRecord h = some r → r.state = .held 0 part →
      exec (.backoffExpiry h) s = .next (({ s with queue := s.queue.map fun r =>
        if r.handle == h then { r with state := .waiting } else r } : State).reportWaiting h)

/-- R5, R28, R36, R13: a record reported WAITING is a cause to select, and it joins the call in progress on its route when that
is an alert call before CLOSING, not marked, with room, and the hold is OFF: it is then IN_CALL, protected, and the last QUEUED
entry. Otherwise nothing more happens, nor with a record that has no current route, its class entry being invalid or its
position beyond the list. (Causes to select are counted: log 8.) -/
def Obligations.LateJoinMade : Prop :=
  ∀ (s : State) (h : Handle) (r : Record), s.findRecord h = some r → r.state = .waiting → ∀ s1 : State,
    s1 = { s with dsc := { s.dsc with selectionsDue := s.dsc.selectionsDue + 1 } } →
    ((∀ ce, s.classEntry r.cls = some ce → ce.routes.length ≤ r.routePos) → s.reportWaiting h = s1) ∧
    ∀ ce rt, s.classEntry r.cls = some ce → ce.routes[r.routePos]? = some rt →
      (s.callOn rt = none → s.reportWaiting h = s1) ∧
      ∀ e, s.callOn rt = some e →
        ((s.engine e).work.isAlertCall = false → s.reportWaiting h = s1) ∧
        ∀ c, (s.engine e).work = .alertCall c →
          (((s.engine e).phase = .closing ∨ c.preempt = true ∨
              (s.routeOr rt).blocksPerCall ≤ c.blocks.length ∨ s.dsc.hold.isSome = true) → s.reportWaiting h = s1) ∧
          ((s.engine e).phase ≠ .idle → (s.engine e).phase ≠ .closing → c.preempt = false →
              c.blocks.length < (s.routeOr rt).blocksPerCall → s.dsc.hold = none →
            s.reportWaiting h = ({ s1 with queue := s.queue.map fun r =>
                if r.handle == h then { r with state := .inCall e, isProtected := true } else r } : State).setEngine e
              { s.engine e with work := .alertCall { c with blocks := c.blocks ++ [⟨some h, .queued⟩] } })

/-- R6, R182: an ALERT cell has an arrival exactly when its class is 0..5, its qualifier NEW or RESTORE, its zone and event code
0..999 (its source has 6 bits), with the key of these fields; one without is refused. R12: an internal arrival is decided by the
same tests and answered with nothing (DecidesAlert); out of range it changes nothing. R1: a new record is WAITING, unprotected,
with every count, position and age 0. R3: it is placed after every record of its class or a lower number and before every one of
a higher. R6, R10, R11: an arrival that matches no record and cancels none: with fewer than 32 records it is admitted under the
lowest free handle and reported WAITING (see LateJoinMade); in a full queue it evicts the last record that is not IN_CALL if
that is of a less urgent class, with EVICTED, and is refused with QUEUE_FULL otherwise. That the second in progress of a new
record's age starts at 0 is the model's (log 5), and so is that the answers carry the handle alone, as R183 and R10 have it,
where R2 speaks of the key (log 33). -/
def Obligations.AlertAdmission : Prop :=
  (∀ (c : InCell) (source qualifier cls zone event : Nat), source = (c.word 1).toNat % 64 →
    qualifier = (c.word 1).toNat / 64 % 4 → cls = (c.word 1).toNat / 256 % 8 → zone = (c.word 2).toNat % 32768 →
    event = (c.word 3).toNat % 32768 →
    (c.alertArrival = none ↔ 5 < cls ∨ (qualifier ≠ 1 ∧ qualifier ≠ 2) ∨ 999 < zone ∨ 999 < event) ∧
    ∀ k n, c.alertArrival = some (k, n) → n.val = cls ∧
      k = ⟨source, zone, event, if qualifier = 1 then .new else .restore⟩) ∧
  (∀ (h : Handle) (k : Key) (cls : ClassId), newRecord h k cls =
    { handle := h, key := k, cls := cls, state := .waiting, isProtected := false, failures := 0, routePos := 0,
      routeFailures := 0, cycles := 0, age := 0, agePart := 0, repeats := 0 }) ∧
  (∀ (r : Record) (q : List Record), q.Pairwise (fun a b => a.cls ≤ b.cls) →
    ∃ a b, q = a ++ b ∧ placeRecord r q = a ++ r :: b ∧ (∀ x ∈ a, x.cls ≤ r.cls) ∧ ∀ x ∈ b, r.cls < x.cls) ∧
  (∀ (s : State) (c : InCell), s.resetLow = false → s.held 1 = some c → c.alertArrival = none →
    exec .alert s = .next (s.answer .refused [wordOf 0])) ∧
  ∀ (s : State) (k : Key) (cls : ClassId),
    (63 < k.source ∨ 999 < k.zone ∨ 999 < k.event → s.internalAlert k cls = s) ∧
    (k.source ≤ 63 → k.zone ≤ 999 → k.event ≤ 999 → (∀ r ∈ s.queue, r.key = k → r.state.isInCall = true) →
      s.cancelTarget k = none →
      (∀ h, s.queue.length < 32 → s.lowestFree = some h →
        (∀ g : Handle, g < h → ∃ r ∈ s.queue, r.handle = g) ∧ (∀ r ∈ s.queue, r.handle ≠ h) ∧
        s.DecidesAlert k cls (({ s with queue := placeRecord (newRecord h k cls) s.queue } : State).reportWaiting h)
          .accepted [wordOf h.val]) ∧
      (∀ pre r post, 32 ≤ s.queue.length → s.queue = pre ++ r :: post → r.state.isInCall = false →
        (∀ x ∈ post, x.state.isInCall = true) →
        (r.cls ≤ cls → s.DecidesAlert k cls s .queueFull []) ∧
        (cls < r.cls → ∀ s1 : State,
          s1 = ({ s with queue := s.queue.filter fun x => x.handle != r.handle } : State).raise
            (.evicted r.handle r.key) → ∀ h, s1.lowestFree = some h →
          s.DecidesAlert k cls (({ s1 with queue := placeRecord (newRecord h k cls) s1.queue } : State).reportWaiting h)
            .acceptedEvicting [wordOf h.val])) ∧
      (32 ≤ s.queue.length → (∀ r ∈ s.queue, r.state.isInCall = true) → s.DecidesAlert k cls s .queueFull []))

/-- R7, R8, R9: an arrival that meets a record of its key coalesces into it: in WAITING or HELD only the repeat count rises; in
STRANDED the record is also re-armed and reported. A RESTORE arrival cancels a NEW record of its source, zone and event code
that waits unprotected within its class's cancel window; it cancels none that is not WAITING, protected, IN_CALL, of an invalid
class entry, or as old as the window. R12: an internal arrival is decided so too, and not answered. That COALESCED carries the
handle alone, as R183 and R7 have it, where R2 speaks of the key, is the model's choice (log 33). The premise on the queue is an
invariant (StepKeepsQueueSound). -/
def Obligations.AlertMeetsRecord : Prop :=
  ∀ (s : State) (k : Key) (cls : ClassId), k.source ≤ 63 → k.zone ≤ 999 → k.event ≤ 999 → QueueSound s →
    (∀ r ∈ s.queue, r.key = k → r.state.coalesces = true →
      s.DecidesAlert k cls { s with queue := s.queue.map fun x =>
          if x.handle == r.handle then { x with repeats := min (x.repeats + 1) 15 } else x } .coalesced
        [wordOf r.handle.val]) ∧
    (∀ r ∈ s.queue, r.key = k → r.state = .stranded →
      s.DecidesAlert k cls (({ s with queue := s.queue.map fun x =>
          if x.handle == r.handle then
            { x with repeats := min (x.repeats + 1) 15, failures := 0, routeFailures := 0, cycles := 0, routePos := 0,
                     state := .waiting }
          else x } : State).reportWaiting r.handle) .coalesced [wordOf r.handle.val]) ∧
    (∀ r ∈ s.queue, ∀ ce, k.qualifier = .restore → (∀ x ∈ s.queue, x.key = k → x.state.isInCall = true) →
      r.key = { k with qualifier := .new } → r.state = .waiting → r.isProtected = false →
      s.classEntry r.cls = some ce → r.age < ce.cancelWindow →
      s.DecidesAlert k cls { s with queue := s.queue.filter fun x => x.handle != r.handle } .cancelled
        (wordOf r.handle.val :: r.key.words)) ∧
    (∀ r ∈ s.queue, r.key = { k with qualifier := .new } → r.state.isInCall = false →
      k.qualifier ≠ .restore ∨ r.state ≠ .waiting ∨ r.isProtected = true ∨ s.classEntry r.cls = none ∨
        (∃ ce, s.classEntry r.cls = some ce ∧ ce.cancelWindow ≤ r.age) →
      s.cancelTarget k = none) ∧
    ((∀ r ∈ s.queue, r.key = { k with qualifier := .new } → r.state.isInCall = true) → s.cancelTarget k = none)

/-- R17, R18, R19: what a counted failure makes of a record: failures and route failures rise; below the route's fallback
after the record is HELD for min(base x 2^(min(failures, 10) - 1), cap); at it the record moves to the next position of its
list, with FALLBACK, HELD for its base, or STRANDED, with its event, when a turn through the list reaches max cycles. -/
def Obligations.FarEndFailureCounted : Prop :=
  ∀ (r : Record) (ce : ClassEntry) (after : Nat) (rt a b : RouteId),
    (r.routeFailures + 1 < after →
      r.fail ce after rt = ({ r with
        failures := min (r.failures + 1) 15, routeFailures := r.routeFailures + 1
        state := .held (min (ce.backoffBase * 2 ^ (min (r.failures + 1) 10 - 1)) ce.backoffCap) 0 }, [])) ∧
    (after ≤ r.routeFailures + 1 → r.routePos + 1 < ce.routes.length → ce.routes[r.routePos]? = some a →
      ce.routes[r.routePos + 1]? = some b → r.cycles < ce.maxCycles →
      r.fail ce after rt = ({ r with
        failures := min (r.failures + 1) 15, routeFailures := 0, routePos := r.routePos + 1
        state := .held (min ce.backoffBase ce.backoffCap) 0 }, [.fallback r.handle a b])) ∧
    (after ≤ r.routeFailures + 1 → r.routePos + 1 = ce.routes.length → ce.routes[r.routePos]? = some a →
      ce.routes[0]? = some b →
      (r.cycles + 1 < ce.maxCycles →
        r.fail ce after rt = ({ r with
          failures := min (r.failures + 1) 15, routeFailures := 0, routePos := 0, cycles := r.cycles + 1
          state := .held (min ce.backoffBase ce.backoffCap) 0 }, [.fallback r.handle a b])) ∧
      (ce.maxCycles ≤ r.cycles + 1 →
        r.fail ce after rt = ({ r with
          failures := min (r.failures + 1) 15, routeFailures := 0, routePos := 0, cycles := r.cycles + 1, state := .stranded },
          [.fallback r.handle a b, .stranded r.handle r.key])))

/-- R15, R16, R45 to R47, R70 to R72: what becomes of each record that an alert call has still to settle when it ends. At a line
failure, an abort or a stop at a mark it returns uncounted: WAITING with its counts as they were, or, as a record reported
WAITING (see LateJoinMade), in the other engine's call, or merged into the record of its key that stands outside a call. At a
far-end failure it is what FarEndFailureCounted says, or merged, and the events of its failure are raised. Every record of
another key is as it was. A second line failure of a trunk offers its trunk-fault alert first (R113), which may add a record or
evict one: the clauses that rule that out say so. The endings meant are those of LineFails, CallStops and FarEndFails; the
commands that stop both engines are in SyncLostEffect and AbortCallsAndInit. The premises on the queue and on the handles of the
call are invariants (StepKeepsQueueSound). -/
def Obligations.EndedCallSettlesRecords : Prop :=
  ∀ (s t : State) (e : EngineId) (c : CallRecord) (cmd : Instr), s.resetLow = false → QueueSound s →
    (s.engine e).work = .alertCall c → c.unsettled.Nodup → exec cmd s = .next t →
    (LineFails s e c cmd ∨ CallStops s e c cmd →
      (∀ h ∈ c.unsettled, ∀ r, s.findRecord h = some r → r.state = .inCall e →
        ((∃ n p, t.findRecord h = some { r with state := .waiting, repeats := n, isProtected := p }) ∨
        (t.findRecord h = some { r with state := .inCall (other e), isProtected := true } ∧
          ∃ k, (t.engine (other e)).work = .alertCall k ∧ (⟨some h, .queued⟩ : BlockEntry) ∈ k.blocks) ∨
        MergedAway t h r.key)) ∧
      (CallStops s e c cmd ∨ (s.trunk c.trunk).failures = 0 ∨ (s.trunk c.trunk).faulted = true →
        OthersKept s t c ∧
        ∀ h ∈ c.unsettled, ∀ r, s.findRecord h = some r → r.state = .inCall e →
          Survives s t c h r ∧
          ((∀ v ∈ s.queue, v.key = r.key → v.handle = h) → (∀ k, (s.engine (other e)).work ≠ .alertCall k) →
            t.findRecord h = some { r with state := .waiting }))) ∧
    (FarEndFails s e c cmd →
      OthersKept s t c ∧
      ∀ h ∈ c.unsettled, ∀ r, s.findRecord h = some r → r.state = .inCall e → ∀ out,
        out = r.fail (s.classOr r.cls) (s.routeOr c.route).fallbackAfter c.route →
        ((∃ n p, t.findRecord h = some { out.1 with repeats := n, isProtected := p }) ∨ MergedAway t h r.key) ∧
        Survives s t c h r ∧
        ((∀ v ∈ s.queue, v.key = r.key → v.handle = h) → t.findRecord h = some out.1) ∧
        ∀ d ∈ out.2, (vget t.evr.records d.kind).pending = true)

/-! ### Dispatch -/

/-- R29 to R33, R13, R105, R51 to R53, R113: a selection with one engine IDLE starts a call for the first record that the walk
does not pass over: every record before it is not WAITING, of an invalid class entry, with no valid route, on a route with a
call, or refused a trunk under its class's mode, the first refused one with NO_TRUNK (R35). The record stands at the first valid
route of its list from its position on, and its route failures are cleared if that moves it. It takes with it the other WAITING
records that stand on the route, in queue order, to the route's blocks per call: all are IN_CALL and protected, and every other
record keeps its place. The call is the last to have started, the NO_TRUNK episode is over. On a free trunk the engine is in
SEIZE with the trunk TAKEN; with L present it is past it, in the blind wait or in LISTEN with the valid entries of the step
loaded (R79); with F present the call has failed with CARD_FAULT, its records are WAITING again and the line failure is counted,
a second one with TRUNK_FAULT of cause COUNT. A trunk in office use is granted with OFFICE_PREEMPTED: in WARNING for the warning
time with the engine in ACQUIRE, or, under IMMEDIATE or a warning time of 0, TAKEN with the engine in CLEAR. The clause on the
records after the chosen one keeps a second call out of the selection; that of F keeps out what an engine does that is IDLE
again inside it, and a record admitted inside it (the model's choices, logs 7, 30). What the generator holds while it sends
nothing is the model's choice (log 27). The premises on IDLE engines and on the queue are invariants (StepKeepsIdleEnginesEmpty,
StepKeepsQueueSound). -/
def Obligations.SelectionStartsCall : Prop :=
  ∀ (s : State) (e : EngineId) (pre post : List Record) (r : Record) (ce : ClassEntry) (p : Nat) (rt : RouteId)
    (u : TrunkId) (took : List Handle) (call : CallRecord),
    s.resetLow = false → IdleEnginesEmpty s → QueueSound s → s.dsc.selectionsDue ≠ 0 → s.dsc.hold = none →
    s.ready = true → s.inSync = true → s.firstIdle = some e →
    s.queue = pre ++ r :: post → (∀ x ∈ pre, s.passedOver x) → r.state = .waiting →
    s.classEntry r.cls = some ce → s.nextRoute r ce p rt → s.callOn rt = none →
    0 < (s.routeOr rt).blocksPerCall → s.chooseTrunk ce.preemptMode = some u →
    (∀ x ∈ post, x.state ≠ .waiting) ∨ (s.engine (other e)).phase ≠ .idle ∧
      ((s.trunk u).state = .officeBusy ∨ s.debounced u .f = false) →
    took = s.blockHandles r rt →
    call = { route := rt, trunk := u, blocks := took.map fun h => ⟨some h, .queued⟩, current := 0, tries := 0,
             preempt := false, fromOffice := (s.trunk u).state == .officeBusy } →
    ∃ t, exec .selection s = .next t ∧ t.cmu.slot = s.cmu.slot ∧ t.dsc.noTrunk = false ∧
      (∀ w, w ≠ u → t.trunk w = s.trunk w) ∧
      ((∀ x ∈ pre, ¬s.refusedTrunk x) → vget t.evr.records 14 = vget s.evr.records 14) ∧
      (∀ front x rest, pre = front ++ x :: rest → (∀ y ∈ front, ¬s.refusedTrunk y) → s.refusedTrunk x →
        vget t.evr.records 14 = if s.dsc.noTrunk then vget s.evr.records 14
          else (vget s.evr.records 14).occur (.noTrunk x.cls)) ∧
      ((s.trunk u).state = .officeBusy ∨ s.debounced u .f = false →
        RecordsTaken s t e r p took ∧ t.cmu = s.cmu ∧ t.tables = s.tables ∧ t.dsc.startOrder = s.dsc.startOrder ++ [e] ∧
        t.dsc.marked = s.dsc.marked ∧ t.engine (other e) = s.engine (other e) ∧
        ∀ k : EventKind, k ≠ 7 → k ≠ 14 → vget t.evr.records k = vget s.evr.records k) ∧
      ((s.trunk u).state ≠ .officeBusy → s.debounced u .f = false →
        t.trunk u = { s.trunk u with state := .taken, busySince := none, warnTimer := none, holder := some e } ∧
        vget t.evr.records 7 = vget s.evr.records 7 ∧
        ∀ seized : Engine, seized = { s.engine e with
            phase := .seize, step := .none, seize := true, seizeStart := some s.clock
            phaseTimer := some (ticksOfMs s.siteOr.loopTimeout)
            work := .alertCall call } →
          (s.debounced u .l = false → t.engine e = seized) ∧
          (s.debounced u .l = true → (s.routeOr rt).dialToneMode = .blind →
            t.engine e = { seized with phase := .dialTone, step := .blind, phaseTimer := some 300 }) ∧
          (s.debounced u .l = true → (s.routeOr rt).dialToneMode = .wait →
            t.engine e = { seized with phase := .dialTone, step := .listen, phaseTimer := some 400,
                                       generator := Generator.silent, listening := (t.engine e).listening,
                                       detector := (t.engine e).detector } ∧
            NamesTones s [(ToneRole.dialTone, s.siteOr.dialTone), (ToneRole.reorder, s.siteOr.reorderTone)] seized
              (t.engine e))) ∧
      ((s.trunk u).state = .officeBusy →
        vget t.evr.records 7 = (vget s.evr.records 7).occur (.officePreempted u r.cls) ∧
        (ce.preemptMode = .afterWarning → 0 < ce.warningTime →
          t.trunk u = { s.trunk u with state := .warning, holder := some e, warnTimer := some (ce.warningTime * 100) } ∧
          t.engine e = { s.engine e with phase := .acquire, step := .none, work := .alertCall call }) ∧
        (ce.preemptMode ≠ .afterWarning ∨ ce.warningTime = 0 →
          t.trunk u = { s.trunk u with state := .taken, busySince := none, warnTimer := none, holder := some e } ∧
          t.engine e = { s.engine e with phase := .clear, step := .none, seize := false, work := .alertCall call,
                                         phaseTimer := some (ticksOfMs s.siteOr.releaseGuard) })) ∧
      ((s.trunk u).state ≠ .officeBusy → s.debounced u .f = true →
        (s.trunk u).failures = 0 ∨
          (s.queue.length < 32 ∧ ∀ x ∈ s.queue, x.key ≠ ⟨0, u.val + 1, s.siteOr.lineFaultEvent, .new⟩) →
        (t.engine e).phase = .idle ∧ (t.engine e).work = .nothing ∧
        vget t.evr.records 1 = (vget s.evr.records 1).occur (.callFailed rt u .cardFault) ∧
        t.trunk u = { s.trunk u with
          state := .cooldown, busySince := none, warnTimer := none, failures := min ((s.trunk u).failures + 1) 2
          faulted := decide (1 ≤ (s.trunk u).failures)
          guard := .running (ticksOfMs s.siteOr.releaseGuard), holder := none } ∧
        vget t.evr.records 5 = (if (s.trunk u).failures = 0 then vget s.evr.records 5
          else (vget s.evr.records 5).occur (.trunkFault u .count)) ∧
        ((s.trunk u).failures = 0 → t.queue = s.queue.map fun x => if x.handle ∈ took then
          { (if x.handle = r.handle then x.standsAt p else x) with isProtected := true } else x))

/-- R28, R38: a selection that the hold, tables not ready or a lost sync prevents does nothing, the check after it included; no
selection is made that nothing has started (that each cause makes one selection due, and that a SELECTION with none due does
nothing, is the model's choice, log 8). R35, R34, R151, R155, R158, R74: a selection whose one eligible record is refused a
trunk raises NO_TRUNK once an episode and leaves the slot its command, and one whose route has a call is passed over (R30);
either stands at the first valid route of its list from its position on (R29); a selection with no WAITING record offers the
engine to the held command: a line test starts on a grantable trunk with neither L nor F, RUNNING, its result record invalid
(that the record keeps its other fields is the model's choice, log 16), its engine in SEIZE; a test call so on a trunk granted
under NONE. -/
def Obligations.SelectionWithoutCall : Prop :=
  (∀ s : State, s.resetLow = false →
    (s.dsc.selectionsDue = 0 → exec .selection s = .next s) ∧
    (s.dsc.selectionsDue ≠ 0 → s.dsc.hold.isSome = true ∨ s.ready = false ∨ s.inSync = false →
      exec .selection s = .next { s with dsc := { s.dsc with selectionsDue := s.dsc.selectionsDue - 1 } })) ∧
  ∀ (s : State) (e : EngineId), s.resetLow = false → s.dsc.selectionsDue ≠ 0 → s.dsc.hold = none → s.ready = true →
    s.inSync = true → s.firstIdle = some e → ∀ s1 : State,
    s1 = { s with dsc := { s.dsc with selectionsDue := s.dsc.selectionsDue - 1 } } →
    (∀ pre r post ce p rt, s.queue = pre ++ r :: post → (∀ x ∈ pre, x.state ≠ .waiting) →
      (∀ x ∈ post, x.state ≠ .waiting) → (s.queue.map Record.handle).Nodup → r.state = .waiting →
      s.classEntry r.cls = some ce → s.nextRoute r ce p rt → ∀ s2 : State,
      s2 = { s1 with queue := s.queue.map fun x => if x.handle = r.handle then x.standsAt p else x } →
      (s.callOn rt = none → s.chooseTrunk ce.preemptMode = none →
        exec .selection s = .next (if s.dsc.noTrunk then s2
          else ({ s2 with dsc := { s2.dsc with noTrunk := true } } : State).raise (.noTrunk r.cls))) ∧
      ((s.callOn rt).isSome = true → s.cmu.slot = .empty → exec .selection s = .next s2)) ∧
    (∀ u n, (∀ x ∈ s.queue, x.state ≠ .waiting) → s.cmu.slot = .held (.lineTest u) n → IdleEnginesEmpty s →
      s.lineTestGrantable u = true → s.debounced u .f = false → s.debounced u .l = false →
      exec .selection s = .next (({ s1 with cmu := { s.cmu with
          slot := .running (.lineTest u) e
          results := vput s.cmu.results u { vget s.cmu.results u with valid := false } } }.setTrunk u { s.trunk u with
            state := .taken, busySince := none, warnTimer := none, holder := some e }).setEngine e { s.engine e with
              phase := .seize, step := .none, seize := true, seizeStart := some s.clock
              phaseTimer := some (ticksOfMs s.siteOr.loopTimeout)
              work := .lineTest ⟨u, s.debounced u .v, 0, 0⟩ })) ∧
    (∀ rt u n, (∀ x ∈ s.queue, x.state ≠ .waiting) → s.cmu.slot = .held (.testCall rt) n → IdleEnginesEmpty s →
      s.routeValid rt = true → s.callOn rt = none → s.chooseTrunk .none = some u →
      s.debounced u .f = false → s.debounced u .l = false →
      exec .selection s = .next (({ s1 with
          cmu := { s.cmu with slot := .running (.testCall rt) e }
          dsc := { s1.dsc with startOrder := s.dsc.startOrder ++ [e], noTrunk := false } }.setTrunk u { s.trunk u with
            state := .taken, busySince := none, warnTimer := none, holder := some e }).setEngine e { s.engine e with
              phase := .seize, step := .none, seize := true, seizeStart := some s.clock
              phaseTimer := some (ticksOfMs s.siteOr.loopTimeout)
              work := .testCall { route := rt, trunk := u, blocks := [⟨none, .queued⟩], current := 0, tries := 0,
                                  preempt := false, fromOffice := false } })) ∧
    ((∀ x ∈ s.queue, x.state ≠ .waiting) → s.cmu.slot = .empty → exec .selection s = .next s1)

/-- R38, R39: with both engines in calls, the hold OFF, the tables ready and sync present, a first WAITING record that is
eligible and more urgent than both head classes marks the call with the less urgent head class, the later among equals. (Causes
to select are counted, and the mark is acted on when its engine takes it: log 8.) -/
def Obligations.PreemptionMarks : Prop :=
  ∀ (s : State) (a b : EngineId) (x y : Nat) (pre post : List Record) (r : Record) (ce : ClassEntry) (rt : RouteId),
    s.resetLow = false → s.dsc.selectionsDue ≠ 0 → s.dsc.hold = none → s.ready = true → s.inSync = true →
    s.firstIdle = none → s.dsc.marked = none → s.dsc.startOrder = [a, b] → a ≠ b → s.headClass a = some x →
    s.headClass b = some y → (s.queue.map Record.handle).Nodup → s.queue = pre ++ r :: post →
    (∀ z ∈ pre, z.state ≠ .waiting) → r.state = .waiting → s.classEntry r.cls = some ce →
    ce.routes[r.routePos]? = some rt → s.routeValid rt = true → s.callOn rt = none → r.cls.val < x → r.cls.val < y →
    ∀ m, m = (if y < x then a else b) →
      exec .selection s = .next (({ s with dsc := { s.dsc with
        selectionsDue := s.dsc.selectionsDue - 1, marked := some m } } : State).setEngine m { s.engine m with
          work := (s.engine m).work.mapCall fun c => { c with preempt := true } })

/-- R42, R152, R159, R160, R12: the timers of the scheduler and of the Command Unit run out: the hold ends with HOLD_ENDED and a
cause to select; a held command leaves the slot with COMMAND_EXPIRED; the periodic TEST alert is offered and the timer restarts;
the monitor is SILENT, offers its NEW alert and raises STATION_SILENT ON. A timer that has not run out, or is not running, and
the silence timer of a monitor that is SILENT already, does nothing (the model's choice, log 1). (Causes to select are counted:
log 8.) -/
def Obligations.SchedulerTimersEnd : Prop :=
  ∀ s : State, s.resetLow = false →
    (s.dsc.hold = some 0 → exec .holdTimerExpiry s = .next (({ s with dsc := { s.dsc with
      hold := none, selectionsDue := s.dsc.selectionsDue + 1 } } : State).raise (.holdEnded .expired))) ∧
    (s.dsc.hold ≠ some 0 → exec .holdTimerExpiry s = .next s) ∧
    (∀ c, s.cmu.slot = .held c 0 →
      exec .commandExpired s = .next (({ s with cmu := { s.cmu with slot := .empty } } : State).raise (.commandExpired c))) ∧
    ((∀ c, s.cmu.slot ≠ .held c 0) → exec .commandExpired s = .next s) ∧
    (s.cmu.periodic ≠ some 0 → exec .periodicTestExpiry s = .next s) ∧
    (s.cmu.silenceTimer ≠ some 0 ∨ s.cmu.silent = true → exec .silenceTimerExpiry s = .next s) ∧
    (∀ x, s.tables.site = some x → s.cmu.periodic = some 0 → ∀ s1 : State,
      s1 = s.internalAlert ⟨0, 0, x.periodicEvent, .test⟩ 5 →
      exec .periodicTestExpiry s = .next { s1 with cmu := { s.cmu with
        periodic := if x.periodicInterval = 0 then none else some (x.periodicInterval * 360000) } }) ∧
    (∀ x, s.tables.site = some x → s.cmu.silenceTimer = some 0 → s.cmu.silent = false →
      exec .silenceTimerExpiry s = .next ((({ s with cmu := { s.cmu with silent := true, silenceTimer := none } } : State).internalAlert
        ⟨0, 0, x.silenceEvent, .new⟩ 4).raise (.stationSilent true)))

/-! ### The station's cells and commands -/

/-- R174: the head inbound cell is taken when no cell is in hand, the answer queue has room and INIT's DONE is not awaited; one
whose body length its kind does not use is answered BAD_ARGUMENT at once; otherwise nothing is taken. A cell of an unknown kind
is answered UNKNOWN_KIND, a command code that names no command BAD_ARGUMENT (R154), and a STATUS_REQUEST, a QUEUE_READ and a
TABLE_READ in range become pending data cells (R169, R26, R146, R175). -/
def Obligations.CellsTakenAndRead : Prop :=
  ∀ (s : State) (c : InCell), s.resetLow = false →
    (∀ rest, s.ccp.inbound = c :: rest → s.ccp.inHand = none → s.ccp.answers.length < 4 → s.ccp.initWait = false →
      (c.lengthOk = true →
        exec .cellTaken s = .next { s with ccp := { s.ccp with inbound := rest, inHand := some c } }) ∧
      (c.lengthOk = false → exec .cellTaken s = .next { s with ccp := { s.ccp with
        inbound := rest, answers := s.ccp.answers ++ [⟨c.tag, .answer c.kind .badArgument [], false⟩] } })) ∧
    (s.ccp.inHand.isSome = true ∨ 4 ≤ s.ccp.answers.length ∨ s.ccp.initWait = true → exec .cellTaken s = .next s) ∧
    (s.ccp.inHand = some c →
      (knownKind c.kind = false → exec .unknownKind s = .next (s.answer .unknownKind [])) ∧
      (c.kind = 5 → c.code = 0 ∨ 15 ≤ c.code → exec .badCommandCode s = .next (s.answer .badArgument [])) ∧
      (c.kind = 7 → exec .statusRequest s = .next { s with ccp := { s.ccp with
        inHand := none, answers := s.ccp.answers ++ [⟨c.tag, .status, false⟩] } }) ∧
      (c.kind = 8 → c.field 1 = 32767 → exec .queueRead s = .next { s with ccp := { s.ccp with
        inHand := none, answers := s.ccp.answers ++ [⟨c.tag, .queueSummary, false⟩] } }) ∧
      (∀ h : Handle, c.kind = 8 → c.field 1 = h.val →
        ((∃ r ∈ s.queue, r.handle = h) → exec .queueRead s = .next { s with ccp := { s.ccp with
          inHand := none, answers := s.ccp.answers ++ [⟨c.tag, .queueRecord h, false⟩] } }) ∧
        ((∀ r ∈ s.queue, r.handle ≠ h) → exec .queueRead s = .next (s.answer .refused [wordOf 0]))) ∧
      (c.kind = 8 → 32 ≤ c.field 1 → c.field 1 ≠ 32767 →
        exec .queueRead s = .next (s.answer .refused [wordOf 0])) ∧
      (c.kind = 4 →
        (∀ ref, addressRef (c.word 1) = some ref → exec .tableRead s = .next { s with ccp := { s.ccp with
          inHand := none, answers := s.ccp.answers ++ [⟨c.tag, .tableData ref, false⟩] } }) ∧
        (addressRef (c.word 1) = none → exec .tableRead s = .next (s.answer .refused [wordOf 0]))))

/-- R135, R143, R144, R147, R183: a TABLE_WRITE is refused with its reason and changes nothing; or, its entry in use, becomes
the entry's one staged write, answered STAGED; or is applied at once, drops a staged write, gives the scheduler a cause and is
answered ACCEPTED, or CLAMPED with the mask of the clamped fields. R24: an applied class entry brings the records of its class
within its route list and its max cycles, in every state, and leaves the others. R116, R114: an applied trunk entry sets its
trunk's state by its role: a trunk without a managed role is UNMANAGED and cleared, a RESERVED one IDLE_RESERVED, a SHARED one
in its office state since this moment; a trunk that has become managed starts with count 0, and faulted, with TRUNK_FAULT of
cause CARD, exactly if F is present. R160: an applied site record restarts the silence timer while LISTENING, 0 being none;
R159: the periodic test timer starts as the tables become ready and at a changed interval, and goes as they become not ready.
R145: at the end of a use of an entry that no party uses any more, its staged write is applied, with TABLE_APPLIED and a cause;
with a user left it waits. (Causes to select are counted: log 8; a change delivered and not yet taken waits where the write makes
its trunk unmanaged: log 22.) -/
def Obligations.TableWriteDecided : Prop :=
  (∀ (s : State) (ref : TableRef),
    (s.tables.stagedWrite ref = none ∨ s.inUse ref = true → s.endUse ref = s) ∧
    (∀ w, s.tables.stagedWrite ref = some w → s.inUse ref = false →
      (s.endUse ref).tables = s.tables.apply w ∧ (s.endUse ref).tables.stagedWrite ref = none ∧
      vget (s.endUse ref).evr.records 12 = (vget s.evr.records 12).occur (.tableApplied ref) ∧
      s.dsc.selectionsDue < (s.endUse ref).dsc.selectionsDue)) ∧
  ∀ (s : State) (c : InCell), s.resetLow = false → s.held 3 = some c →
    (∀ reason, c.parseWrite s.tables = .error reason →
      exec .tableWrite s = .next (s.answer .refused [wordOf reason.code])) ∧
    ∀ p, c.parseWrite s.tables = .ok p →
      (s.inUse p.write.ref = true →
        exec .tableWrite s =
          .next (({ s with tables := s.tables.stage p.write } : State).answer .staged (maskWords p.clamped))) ∧
      (s.inUse p.write.ref = false → ∃ t, exec .tableWrite s = .next t ∧
        t.tables = s.tables.apply p.write ∧ t.tables.stagedWrite p.write.ref = none ∧
        t.tables.entryWords p.write.ref ≠ none ∧
        t.ccp = { s.ccp with inHand := none, answers := s.ccp.answers ++ [⟨c.tag,
          if p.clamped = [] then .answer 3 .accepted [] else .answer 3 .clamped (maskWords p.clamped), false⟩] } ∧
        s.dsc.selectionsDue < t.dsc.selectionsDue ∧ t.dsc.hold = s.dsc.hold ∧ t.cmu.slot = s.cmu.slot ∧
        t.pending = s.pending ∧ t.resetLow = s.resetLow ∧ t.clock = s.clock ∧ t.hwi = s.hwi ∧ t.engines = s.engines ∧
        (∀ x, p.write = .site x → t.cmu.silent = s.cmu.silent ∧ t.cmu.silenceTimer =
          (if s.cmu.silent then s.cmu.silenceTimer else if x.silenceTime = 0 then none else some (x.silenceTime * 100))) ∧
        (p.write.ref ≠ .site → t.cmu.silent = s.cmu.silent ∧ t.cmu.silenceTimer = s.cmu.silenceTimer) ∧
        (t.ready = false → t.cmu.periodic = none) ∧
        (∀ x, t.ready = true → t.tables.site = some x → t.cmu.periodic =
          (if s.ready = false ∨ s.tables.site.map SiteRecord.periodicInterval ≠ some x.periodicInterval then
            (if x.periodicInterval = 0 then none else some (x.periodicInterval * 360000))
          else s.cmu.periodic)) ∧
        (∀ u, p.write.ref ≠ .trunk u → t.trunk u = s.trunk u) ∧
        ((∀ k, p.write.ref ≠ .cls k) → t.queue = s.queue) ∧
        (∀ k ce, p.write = .cls k ce → t.queue = s.queue.map fun r => if r.cls = k then { r with
            routePos := if ce.routes.length ≤ r.routePos then 0 else r.routePos
            routeFailures := if ce.routes.length ≤ r.routePos then 0 else r.routeFailures
            cycles := if r.state ≠ .stranded ∧ ce.maxCycles ≤ r.cycles then ce.maxCycles - 1 else r.cycles } else r) ∧
        ∀ u en, p.write = .trunk u en →
          (en.role = .unused ∨ en.role = .office →
            t.trunk u = { Trunk.reset with barred := (s.trunk u).barred } ∧ vget t.evr.records 5 = vget s.evr.records 5) ∧
          (en.role = .reserved ∨ en.role = .shared → ∀ kept : Trunk,
            kept = { s.trunk u with
              holder := none, warnTimer := none, guard := .absent
              faulted := if s.managed u then (s.trunk u).faulted else s.debounced u .f
              failures := if s.managed u then (s.trunk u).failures else 0 } →
            t.trunk u = (if en.role = .reserved then { kept with state := .idleReserved, busySince := none }
              else if s.officeUse u then { kept with state := .officeBusy, busySince := some s.clock }
              else { kept with state := .idleOffice, busySince := none }) ∧
            vget t.evr.records 5 = (if s.managed u = false ∧ s.debounced u .f = true
              then (vget s.evr.records 5).occur (.trunkFault u .card) else vget s.evr.records 5)))

/-- R136: a written field with a range is brought to the nearest bound and then listed; a written 0 of a field with a default
takes the default and is not listed. R137 to R142, R182: each field of a site, class, route, trunk, tone and cadence entry as a
write stores it: the body word it comes from, its range or its codes and its default, and the list of its clamped fields in the
order of the table (SiteFields, ClassFields, RouteFields, ToneFields). R142: of a cadence entry each field is brought within its
range and the second of each pair raised to the first, an off max of 0 being kept. R135: the first reason that refuses a write,
in the order of its steps: a table, an entry number or an enumerated code that does not exist is BAD_ARGUMENT; then the
account's length, an empty route list, the dial string, a reference outside its table, and an audio slot that another trunk's
applied or staged entry names, in that order; no other write is refused. Which of the words of a class entry's route list are
read is the model's choice (log 10). -/
def Obligations.WrittenFieldsClamped : Prop :=
  (∀ k lo hi x : Nat, lo ≤ hi →
    (lo ≤ x → x ≤ hi → rangeField k lo hi x = ⟨k, x, false⟩) ∧ (x < lo → rangeField k lo hi x = ⟨k, lo, true⟩) ∧
    (hi < x → rangeField k lo hi x = ⟨k, hi, true⟩)) ∧
  (∀ k lo hi d x : Nat,
    defaultField k lo hi d 0 = ⟨k, d, false⟩ ∧ (x ≠ 0 → defaultField k lo hi d x = rangeField k lo hi x)) ∧
  (∀ (c : InCell) (id : CadenceId), ∃ p, c.parseCadence id = .ok p ∧
    p.write = .cadence id
      { onMin := max 1 (min 255 (c.field 2))
        onMax := max (max 1 (min 255 (c.field 2))) (max 1 (min 255 (c.field 3)))
        offMin := max 1 (min 255 (c.field 4))
        offMax := if c.field 5 = 0 then 0 else max (max 1 (min 255 (c.field 4))) (min 255 (c.field 5))
        cyclesRequired := max 1 (min 4 (c.field 6)) } ∧
    p.clamped = (if c.field 2 = 0 ∨ 255 < c.field 2 then [2] else []) ++
      (if c.field 3 = 0 ∨ 255 < c.field 3 ∨ c.field 3 < min 255 (c.field 2) then [3] else []) ++
      (if c.field 4 = 0 ∨ 255 < c.field 4 then [4] else []) ++
      (if 255 < c.field 5 ∨ c.field 5 ≠ 0 ∧ c.field 5 < min 255 (c.field 4) then [5] else []) ++
      (if c.field 6 = 0 ∨ 4 < c.field 6 then [6] else [])) ∧
  (∀ w : Word, addressRef w = none ↔
    6 ≤ w.toNat / 256 % 8 ∨ w.toNat / 256 % 8 = 0 ∧ w.toNat % 16 ≠ 0 ∨ w.toNat / 256 % 8 = 1 ∧ 6 ≤ w.toNat % 16 ∨
      (w.toNat / 256 % 8 = 2 ∨ w.toNat / 256 % 8 = 3 ∨ w.toNat / 256 % 8 = 5) ∧ 8 ≤ w.toNat % 16) ∧
  ∀ (x : Tables) (c : InCell),
    (addressRef (c.word 1) = none → c.parseWrite x = .error .badArgument) ∧
    (addressRef (c.word 1) = some .site →
      (c.field 2 < 4 ∨ 8 < c.field 2 → c.parseWrite x = .error .accountLength) ∧
      (4 ≤ c.field 2 → c.field 2 ≤ 8 →
        (16 ≤ c.field 6 ∨ 16 ≤ c.field 7 ∨ 16 ≤ c.field 8 → c.parseWrite x = .error .unknownReference) ∧
        (c.field 6 < 16 → c.field 7 < 16 → c.field 8 < 16 → ∃ en ks, c.parseWrite x = .ok ⟨.site en, ks⟩ ∧
          c.SiteFields en ks))) ∧
    (∀ id, addressRef (c.word 1) = some (.cls id) →
      (3 ≤ c.field 7 → c.parseWrite x = .error .badArgument) ∧
      (c.field 7 < 3 → c.field 2 = 0 → c.parseWrite x = .error .emptyRouteList) ∧
      (c.field 7 < 3 → 0 < c.field 2 →
        ((∃ i, i < min 4 (c.field 2) ∧ 8 ≤ c.field (3 + i)) → c.parseWrite x = .error .unknownReference) ∧
        ((∀ i, i < min 4 (c.field 2) → c.field (3 + i) < 8) → ∃ en ks,
          c.parseWrite x = .ok ⟨.cls id en, ks⟩ ∧ c.ClassFields en ks))) ∧
    (∀ id, addressRef (c.word 1) = some (.route id) → ∀ symbol : Nat → Nat,
      (∀ i, symbol i = (c.word (4 + i / 3)).toNat / 16 ^ (2 - i % 3) % 16) →
      (2 ≤ c.field 2 ∨ 2 ≤ c.field 17 → c.parseWrite x = .error .badArgument) ∧
      (c.field 2 < 2 → c.field 17 < 2 →
        (c.field 3 = 0 ∨ 24 < c.field 3 ∨ (∃ i, i < c.field 3 ∧ 14 ≤ symbol i) →
          c.parseWrite x = .error .invalidDialSymbol) ∧
        (0 < c.field 3 → c.field 3 ≤ 24 → (∀ i, i < c.field 3 → symbol i < 14) →
          (16 ≤ c.field 12 ∨ 16 ≤ c.field 13 → c.parseWrite x = .error .unknownReference) ∧
          (c.field 12 < 16 → c.field 13 < 16 → ∃ en ks,
            c.parseWrite x = .ok ⟨.route id en, ks⟩ ∧ c.RouteFields en ks)))) ∧
    (∀ id, addressRef (c.word 1) = some (.trunk id) →
      (4 ≤ c.field 2 → c.parseWrite x = .error .badArgument) ∧
      (c.field 2 < 4 → ∀ taken : Prop,
        (taken ↔ ∃ u en, u ≠ id ∧ ((vget x.trunks u).applied = some en ∨ (vget x.trunks u).staged = some en) ∧
          en.role ≠ .unused ∧ en.slot = min 28 (c.field 3)) →
        (c.field 2 ≠ 0 → taken → c.parseWrite x = .error .duplicateSlot) ∧
        (c.field 2 = 0 ∨ ¬taken → ∃ role,
          ([.unused, .shared, .reserved, .office] : List TrunkRole)[c.field 2]? = some role ∧
          c.parseWrite x = .ok ⟨.trunk id ⟨role, min 28 (c.field 3)⟩, if 28 < c.field 3 then [3] else []⟩))) ∧
    (∀ id, addressRef (c.word 1) = some (.tone id) →
      (8 ≤ c.field 13 → c.parseWrite x = .error .unknownReference) ∧
      (c.field 13 < 8 → ∃ en ks, c.parseWrite x = .ok ⟨.tone id en, ks⟩ ∧ c.ToneFields en ks)) ∧
    (∀ id, addressRef (c.word 1) = some (.cadence id) → c.parseWrite x = c.parseCadence id)

/-- R150, R153, R151: LINE_TEST and TEST_CALL with an argument in range take an EMPTY slot for 30 s and are a cause to select,
and are SLOT_BUSY in any other; out of range they are BAD_ARGUMENT. CANCEL empties a HELD slot and names the command, is
TOO_LATE for a RUNNING one and NOTHING_PENDING for an EMPTY one. (Causes to select are counted: log 8.) -/
def Obligations.SlotCommandsDecided : Prop :=
  ∀ (s : State) (c : InCell), s.resetLow = false →
    (∀ cmd k mk, (cmd = .lineTest ∧ k = 1 ∧ mk = SlotCommand.lineTest ∨
        cmd = .testCall ∧ k = 2 ∧ mk = SlotCommand.testCall) → s.heldCommand k = some c →
      (∀ n : Fin 8, c.field 2 = n.val →
        (s.cmu.slot = .empty → exec cmd s = .next (({ s with
          cmu := { s.cmu with slot := .held (mk n) 3000 }
          dsc := { s.dsc with selectionsDue := s.dsc.selectionsDue + 1 } } : State).answer .pending [])) ∧
        (s.cmu.slot ≠ .empty → exec cmd s = .next (s.answer .slotBusy []))) ∧
      (8 ≤ c.field 2 → exec cmd s = .next (s.answer .badArgument []))) ∧
    (s.held 6 = some c →
      (∀ k n, s.cmu.slot = .held k n →
        exec .cancel s = .next (({ s with cmu := { s.cmu with slot := .empty } } : State).answer .cancelled
          [wordOf k.code, wordOf k.argument])) ∧
      (∀ k e, s.cmu.slot = .running k e →
        exec .cancel s = .next (s.answer .tooLate [wordOf k.code, wordOf k.argument])) ∧
      (s.cmu.slot = .empty → exec .cancel s = .next (s.answer .nothingPending [])))

/-- R112, R102: BAR sets and UNBAR clears the flag of the trunk named, BAR_ALL and UNBAR_ALL of every trunk, whatever its state
and role, answered DONE; nothing else of a trunk record changes, and each trunk that has become grantable under a mode under
which it was not is one cause to select. A number outside 0..7 is BAD_ARGUMENT. (Causes to select are counted: log 8.) -/
def Obligations.BarringCommands : Prop :=
  ∀ (s : State) (c : InCell), s.resetLow = false →
    (∀ u : TrunkId, c.field 2 = u.val →
      (s.heldCommand 3 = some c →
        exec .bar s = .next ((s.setTrunk u { s.trunk u with barred := true }).answer .done [])) ∧
      (s.heldCommand 4 = some c → ∀ s1 : State, s1 = s.setTrunk u { s.trunk u with barred := false } →
        ((∃ m, s.grantable m u = false ∧ s1.grantable m u = true) →
          exec .unbar s = .next (s1.cause.answer .done [])) ∧
        ((∀ m, s1.grantable m u = true → s.grantable m u = true) → exec .unbar s = .next (s1.answer .done [])))) ∧
    (8 ≤ c.field 2 →
      (s.heldCommand 3 = some c → exec .bar s = .next (s.answer .badArgument [])) ∧
      (s.heldCommand 4 = some c → exec .unbar s = .next (s.answer .badArgument []))) ∧
    (s.heldCommand 5 = some c → exec .barAll s =
      .next (({ s with trunks := vmap (fun _ x => { x with barred := true }) s.trunks } : State).answer .done [])) ∧
    (s.heldCommand 6 = some c → ∀ s1 : State, s1 = { s with trunks := vmap (fun _ x => { x with barred := false }) s.trunks } →
      exec .unbarAll s = .next (({ s1 with dsc := { s.dsc with selectionsDue := s.dsc.selectionsDue +
        ((List.finRange 8).filter fun u => [PreemptMode.none, .afterWarning, .immediate].any fun m =>
          !s.grantable m u && s1.grantable m u).length } } : State).answer .done []))

/-- R41, R42, R165, R168: HOLD puts the hold ON for its minutes brought within 1..60; RESUME ends a hold that is ON with
HOLD_ENDED and a cause, and is DONE without one; SET_NOTIFY sets every kind's enable from the mask; CLEAR_EVENTS clears the
named kinds, pending and count, keeps their latest detail and enable, and takes them out of the restore set. (Causes to select
are counted: log 8.) -/
def Obligations.HoldAndEventCommands : Prop :=
  ∀ (s : State) (c : InCell), s.resetLow = false →
    (s.heldCommand 7 = some c → exec .hold s =
      .next (({ s with dsc := { s.dsc with hold := some (max 1 (min 60 (c.field 2)) * 6000) } } : State).answer .done [])) ∧
    (s.heldCommand 8 = some c →
      (s.dsc.hold = none → exec .resume s = .next (s.answer .done [])) ∧
      (s.dsc.hold.isSome = true → exec .resume s = .next ((({ s with dsc := { s.dsc with
        hold := none, selectionsDue := s.dsc.selectionsDue + 1 } } : State).raise (.holdEnded .resume)).answer .done []))) ∧
    (s.heldCommand 12 = some c → ∃ s1 : State, exec .setNotify s = .next (s1.answer .done []) ∧
      s1 = { s with evr := { s.evr with records := s1.evr.records } } ∧
      ∀ k, vget s1.evr.records k = { vget s.evr.records k with enabled := c.maskBit k }) ∧
    (s.heldCommand 13 = some c → ∃ s1 : State, exec .clearEvents s = .next (s1.answer .done []) ∧
      s1 = { s with evr := s1.evr } ∧
      (∀ k, c.maskBit k = true → vget s1.evr.records k = { vget s.evr.records k with pending := false, count := 0 }) ∧
      (∀ k, c.maskBit k = false → vget s1.evr.records k = vget s.evr.records k) ∧
      (s.evr.emission = none → s1.evr.emission = none) ∧
      ∀ m, s.evr.emission = some m →
        s1.evr.emission = some { m with restore := m.restore.filter fun k => !c.maskBit k })

/-- R72, R161, R179: ABORT_CALLS stops the engines that hold an alert or a test call, and no line test; INIT stops every engine,
clears the tables and every record that a station set up, ends the hold, makes the HELD records WAITING, and answers DONE before
its effects, after which no cell is taken until that DONE has been sent. R157, R158: a line test or test call that an abort
taken in the step ends is told: LINE_TEST_DONE with its result of code ABORTED, or TEST_CALL_DONE, ABORTED where its block was
not acknowledged (else DELIVERED, the model's reading, log 9), and the slot is EMPTY. R161, stage 2: after INIT every event
record is as after reset, but for what is told after that stage: the tests that it ends (8, 9), staged writes that apply (12)
and the end of the hold (13). An engine that takes its abort in the step is closed; another carries it (which of them do is an
operand of the command: the model's choice, log 6). R25, R15, R16: the queue is kept: every record outside a call stays with its
handle, key, class, counts and age (a merge may raise its repeat count and protect it), in its state, but for INIT's HELD
records, which are WAITING; a record that an aborted call had still to settle is WAITING with its counts, or in the other
engine's call, or merged; with no record in a call nothing else happens to the queue. The premises on the queue and on the
trunks are invariants (StepKeepsQueueSound, StepKeepsTrunksHeld). R132: INIT leaves the sync state, the debounced values and their
counts; what HWI applies follows with the next frame (R122). That a change delivered and not yet taken waits through INIT is the
model's reading (log 22). -/
def Obligations.AbortCallsAndInit : Prop :=
  ∀ (s : State) (c : InCell) (taken : EngineSet), s.resetLow = false → QueueSound s →
    (s.heldCommand 9 = some c → ∃ t, exec (.abortCalls taken) s = .next t ∧ AbortedSettled s t taken ∧
      (∀ r ∈ s.queue, r.state.isInCall = false →
        ∃ n p, t.findRecord r.handle = some { r with repeats := n, isProtected := p }) ∧
      ((∀ r ∈ s.queue, r.state.isInCall = false) → t.queue = s.queue) ∧
      t.ccp = { s.ccp with inHand := none, answers := s.ccp.answers ++ [⟨c.tag, .answer 5 .done [], false⟩] } ∧
      TestsAborted s t taken (fun w => w.call.isSome) (fun k => vget s.evr.records k) ∧
      t.hwi = s.hwi ∧ t.clock = s.clock ∧ t.pending = s.pending ∧
      ∀ e, ((s.engine e).work.call.isSome = true → (s.engine e).phase ≠ .closing →
          (takes taken e = true → (t.engine e).phase = .idle ∧ (t.engine e).work = .nothing) ∧
          (takes taken e = false → (t.engine e).abort = some .abortCalls ∧ (t.engine e).phase = (s.engine e).phase)) ∧
        ((s.engine e).work.call = none → t.engine e = s.engine e)) ∧
    (s.heldCommand 14 = some c → ∃ t, exec (.init taken) s = .next t ∧ AbortedSettled s t taken ∧
      (∀ r ∈ s.queue, r.state.isInCall = false → ∃ n p, t.findRecord r.handle =
        some { r with state := if r.state.isHeld then .waiting else r.state, repeats := n, isProtected := p }) ∧
      ((∀ r ∈ s.queue, r.state.isInCall = false) →
        t.queue = s.queue.map fun r => if r.state.isHeld then { r with state := .waiting } else r) ∧
      t.ccp = { s.ccp with inHand := none, initWait := true,
                           answers := s.ccp.answers ++ [⟨c.tag, .answer 5 .done [], true⟩] } ∧
      t.tables = Tables.empty ∧ (∀ u, t.trunk u = Trunk.reset) ∧ t.dsc.hold = none ∧ t.dsc.noTrunk = false ∧
      t.cmu.periodic = none ∧ t.cmu.silent = false ∧ t.cmu.silenceTimer = none ∧
      (∀ k n, s.cmu.slot = .held k n → t.cmu.slot = .empty) ∧ t.evr.emission = none ∧
      TestsAborted s t taken (fun _ => true) (fun _ => EventRecord.reset) ∧
      (TrunksSound s → ∀ k : EventKind, k ∉ ([8, 9, 12, 13] : List EventKind) →
        vget t.evr.records k = EventRecord.reset) ∧
      (∀ k : EventKind, (vget t.evr.records k).enabled = true) ∧
      (vget t.evr.records 13 = if s.dsc.hold.isSome then EventRecord.reset.occur (.holdEnded .init)
        else EventRecord.reset) ∧
      (∀ r ∈ t.queue, r.state.isHeld = false) ∧ t.hwi = s.hwi ∧ t.clock = s.clock ∧ t.pending = s.pending ∧
      ∀ e, (s.engine e).work ≠ .nothing → (s.engine e).phase ≠ .closing →
        (takes taken e = true → (t.engine e).phase = .idle ∧ (t.engine e).work = .nothing) ∧
        (takes taken e = false → (t.engine e).abort = some .init ∧ (t.engine e).phase = (s.engine e).phase))

/-- R23, R22: RELEASE_STRANDED makes every STRANDED record WAITING with its counts and its position at 0, reports each in queue
order and is answered DONE; PURGE removes the record named, is BUSY for one IN_CALL and BAD_ARGUMENT for none. -/
def Obligations.ReleaseAndPurge : Prop :=
  ∀ (s : State) (c : InCell), s.resetLow = false →
    (s.heldCommand 10 = some c →
      exec .releaseStranded s = .next ((((s.queue.filter fun r => r.state == .stranded).map Record.handle).foldl
        State.reportWaiting { s with queue := s.queue.map fun r =>
          if r.state == .stranded then
            { r with failures := 0, routeFailures := 0, cycles := 0, routePos := 0, state := .waiting }
          else r }).answer .done [])) ∧
    (s.heldCommand 11 = some c →
      (∀ (h : Handle) r, c.field 2 = h.val → s.findRecord h = some r →
        (r.state.isInCall = false →
          exec .purge s = .next (({ s with queue := s.queue.filter fun x => x.handle != h } : State).answer .done [])) ∧
        (r.state.isInCall = true → exec .purge s = .next (s.answer .busy []))) ∧
      (∀ h : Handle, c.field 2 = h.val → s.findRecord h = none → exec .purge s = .next (s.answer .badArgument [])) ∧
      (32 ≤ c.field 2 → exec .purge s = .next (s.answer .badArgument [])))

/-- R166, R170, R174 to R176, R179: with the emitter IDLE and sync present the head answer entry is emitted, header first and
check word last, a STATUS cell taking the sticky flags; with no answer waiting, an EVENT cell starts with the snapshot of the
kinds pending and enabled, in ascending kind, whose records are cleared and form the restore set; a cell sent whole leaves,
INIT's DONE emptying both queues and clearing the flags. R172, R176, R177: a highway frame that no due step precedes sends the
next word of the cell in emission in PXO slot 31, or the idle word, passes PXI slot 31 on to TSO, and gives that word to the
assembler (see AssemblerTakesWord). R183: the bodies, bit by bit: an ANSWER's echoed kind and result code (AnswerBodies);
TABLE_DATA's addressing word with its loaded and staged bits and its length, and R146: a write with the body of a loaded entry
gives that entry again with no field clamped (TableBodies); the words of a record and of the summary (QueueBodies); the 40 words
of STATUS (R169, StatusBodies); an EVENT entry's head and the detail of each kind (EventBodies); the codes of outcomes, tests,
phases and trunk states (CodeTables). The bits and fields that the layout leaves open, the places beyond a stated length, and an
invalid result's fields are the model's choices (logs 10, 11, 16). The premises on the tables are invariants
(StepKeepsTablesSound). -/
def Obligations.CellsEmitted : Prop :=
  (∀ (kind tag : Nat) (body : List Word) (header : Word),
    header = BitVec.ofNat 16 (0xA000 + kind * 256 + tag * 64 + body.length) →
    cellWords kind tag body = header :: (body ++ [BitVec.ofNat 16 ((65535 - header.toNat) + (body.map BitVec.toNat).sum)])) ∧
  AnswerBodies ∧ QueueBodies ∧ CodeTables ∧ EventBodies ∧ (∀ s : State, TableBodies s ∧ StatusBodies s) ∧
  ∀ s : State, s.resetLow = false →
    (∀ a rest, s.ccp.emitter = .idle → s.ccp.answers = a :: rest → s.inSync = true →
      (∀ echo result detail, a.content = .answer echo result detail →
        exec .answerEmissionStart s = .next { s with ccp := { s.ccp with
          emitter := .emitting (.answer none) (cellWords 9 a.tag (answerBody echo result detail)) } }) ∧
      (∀ ref, a.content = .tableData ref →
        exec .answerEmissionStart s = .next { s with ccp := { s.ccp with
          emitter := .emitting (.answer none) (cellWords 10 a.tag (s.tables.tableBody ref)) } }) ∧
      (∀ h r, a.content = .queueRecord h → s.findRecord h = some r →
        exec .answerEmissionStart s = .next { s with ccp := { s.ccp with
          emitter := .emitting (.answer none) (cellWords 11 a.tag (wordOf 0 :: r.words)) } }) ∧
      (∀ h, a.content = .queueRecord h → s.findRecord h = none →
        exec .answerEmissionStart s = .next { s with ccp := { s.ccp with
          emitter := .emitting (.answer none) (cellWords 9 a.tag (answerBody 8 .refused [wordOf 0])) } }) ∧
      (a.content = .queueSummary →
        exec .answerEmissionStart s = .next { s with ccp := { s.ccp with
          emitter := .emitting (.answer none) (cellWords 11 a.tag s.summaryBody) } }) ∧
      (a.content = .status →
        exec .answerEmissionStart s = .next { s with ccp := { s.ccp with
          emitter := .emitting (.answer (some s.ccp.flags)) (cellWords 12 a.tag s.statusBody)
          flags := StickyFlags.clear } })) ∧
    (s.snapshot = ((List.finRange 16).filter fun k => (vget s.evr.records k).pending && (vget s.evr.records k).enabled).map
      fun k => ⟨k, (vget s.evr.records k).count, (vget s.evr.records k).latest⟩) ∧
    (s.ccp.emitter = .idle → s.ccp.answers = [] → s.inSync = true → s.snapshot ≠ [] →
      exec .eventCellStart s = .next { s with
        ccp := { s.ccp with emitter := .emitting .event (cellWords 13 0 (s.snapshot.flatMap SnapEntry.words)) }
        evr := { records := vmap (fun _ r => if r.pending && r.enabled then { r with pending := false, count := 0 } else r)
                   s.evr.records
                 emission := some { entries := s.snapshot, restore := s.snapshot.map SnapEntry.kind } } }) ∧
    (∀ a rest took, s.ccp.answers = a :: rest → s.ccp.emitter = .emitting (.answer took) [] →
      (a.initDone = false →
        exec .emissionEnd s = .next { s with ccp := { s.ccp with answers := rest, emitter := .idle } }) ∧
      (a.initDone = true → exec .emissionEnd s = .next { s with ccp := { s.ccp with
        answers := [], inbound := [], flags := StickyFlags.clear, initWait := false, emitter := .idle } })) ∧
    (s.ccp.emitter = .emitting .event [] →
      exec .emissionEnd s = .next { s with ccp := { s.ccp with emitter := .idle }, evr := { s.evr with emission := none } }) ∧
    ∀ tsi pxi : List Word, s.inSync = true → s.hwi.grid < 80 →
      (∀ (src : EmitSource) (w : Word) (rest : Emitter), s.ccp.emitter = .idle ∧ w = s.idleWord ∧ rest = .idle ∨
          (∃ ws, s.ccp.emitter = .emitting src (w :: ws) ∧ rest = .emitting src ws) →
        ∃ (m : State) (tso pxo : List Word), exec (.highwayFrame tsi pxi) s = .next (m.assembleWord (slotWord pxi 31)) ∧
          m.hwi.tso = some tso ∧ m.hwi.pxo = some pxo ∧ slotWord pxo 31 = w ∧ slotWord tso 31 = slotWord pxi 31 ∧
          m.ccp = { s.ccp with emitter := rest } ∧ m.pending = s.pending ∧ m.resetLow = s.resetLow ∧ m.clock = s.clock ∧
          m.tables = s.tables ∧ m.queue = s.queue ∧ m.dsc = s.dsc ∧ m.trunks = s.trunks ∧ m.cmu = s.cmu ∧ m.evr = s.evr)
end

