-- ==== Sys2Proof/Laws/State.lean ====
section
/-! SUPPORT. The small lemmas of the state's accessors and of the record updates that every meaning is built from: one
lemma for each field and each update, and what reading a numbered record gives after one has been replaced. -/

namespace Sys2Proof.Machine

/-! ### Numbered records -/

@[simp] theorem vget_vput_same {α : Type} {n : Nat} (v : Vector α n) (i : Fin n) (x : α) : vget (vput v i x) i = x := by
  simp [vget, vput]

theorem vget_vput {α : Type} {n : Nat} (v : Vector α n) (i j : Fin n) (x : α) :
    vget (vput v i x) j = if j = i then x else vget v j := by
  by_cases h : j = i
  · subst h; simp
  · have : i.val ≠ j.val := fun hv => h (Fin.ext hv.symm)
    simp [vget, vput, h, this]

@[simp] theorem vget_vput_other {α : Type} {n : Nat} (v : Vector α n) {i j : Fin n} (x : α) (h : j ≠ i) :
    vget (vput v i x) j = vget v j := by rw [vget_vput, if_neg h]

@[simp] theorem vget_vmap {α β : Type} {n : Nat} (f : Fin n → α → β) (v : Vector α n) (i : Fin n) :
    vget (vmap f v) i = f i (vget v i) := by simp [vget, vmap]

@[simp] theorem vget_replicate {α : Type} {n : Nat} (x : α) (i : Fin n) : vget (Vector.replicate n x) i = x := by
  simp [vget]

theorem vector_ext_vget {α : Type} {n : Nat} {v w : Vector α n} (h : ∀ i : Fin n, vget v i = vget w i) : v = w :=
  Vector.ext fun i hi => h ⟨i, hi⟩

@[simp] theorem vput_vget_same {α : Type} {n : Nat} (v : Vector α n) (i : Fin n) : vput v i (vget v i) = v :=
  vector_ext_vget fun j => by by_cases h : j = i <;> simp [h]

@[simp] theorem vput_vput {α : Type} {n : Nat} (v : Vector α n) (i : Fin n) (x y : α) :
    vput (vput v i x) i y = vput v i y :=
  vector_ext_vget fun j => by by_cases h : j = i <;> simp [h]

/-! ### Engines and trunks -/

@[simp] theorem engine_setEngine_same (s : State) (e : EngineId) (x : Engine) : (s.setEngine e x).engine e = x := by
  cases e <;> rfl

theorem engine_setEngine (s : State) (e f : EngineId) (x : Engine) :
    (s.setEngine e x).engine f = if f = e then x else s.engine f := by cases e <;> cases f <;> rfl

@[simp] theorem engine_setEngine_other (s : State) {e f : EngineId} (x : Engine) (h : f ≠ e) :
    (s.setEngine e x).engine f = s.engine f := by simp [engine_setEngine, h]

@[simp] theorem engine_modEngine_same (s : State) (e : EngineId) (g : Engine → Engine) :
    (s.modEngine e g).engine e = g (s.engine e) := engine_setEngine_same s e _

theorem engine_modEngine (s : State) (e f : EngineId) (g : Engine → Engine) :
    (s.modEngine e g).engine f = if f = e then g (s.engine e) else s.engine f := engine_setEngine s e f _

@[simp] theorem engine_modEngine_other (s : State) {e f : EngineId} (g : Engine → Engine) (h : f ≠ e) :
    (s.modEngine e g).engine f = s.engine f := engine_setEngine_other s _ h

@[simp] theorem trunk_setTrunk_same (s : State) (t : TrunkId) (x : Trunk) : (s.setTrunk t x).trunk t = x := by
  simp [State.setTrunk, State.trunk]

theorem trunk_setTrunk (s : State) (t u : TrunkId) (x : Trunk) :
    (s.setTrunk t x).trunk u = if u = t then x else s.trunk u := by simp [State.setTrunk, State.trunk, vget_vput]

@[simp] theorem trunk_setTrunk_other (s : State) {t u : TrunkId} (x : Trunk) (h : u ≠ t) :
    (s.setTrunk t x).trunk u = s.trunk u := by simp [trunk_setTrunk, h]

/-- Two states with the same engines, engine by engine. -/
theorem engines_ext {s t : State} (h : ∀ e, s.engine e = t.engine e) : s.engines = t.engines := by
  have h0 := h .e0
  have h1 := h .e1
  cases hs : s.engines
  cases ht : t.engines
  simp_all [State.engine]

/-- Two states with the same trunk records, trunk by trunk. -/
theorem trunks_ext {s t : State} (h : ∀ u, s.trunk u = t.trunk u) : s.trunks = t.trunks := vector_ext_vget h

theorem engine_of_engines {s t : State} (h : s.engines = t.engines) (e : EngineId) : s.engine e = t.engine e := by
  cases e <;> simp [State.engine, h]

theorem trunk_of_trunks {s t : State} (h : s.trunks = t.trunks) (u : TrunkId) : s.trunk u = t.trunk u := by
  simp [State.trunk, h]

/-! ### Every update, field by field -/
@[simp] theorem setEngine_pending (s : State) (e : EngineId) (x : Engine) : (s.setEngine e x).pending = s.pending := by cases e <;> rfl
@[simp] theorem setEngine_resetLow (s : State) (e : EngineId) (x : Engine) : (s.setEngine e x).resetLow = s.resetLow := by cases e <;> rfl
@[simp] theorem setEngine_clock (s : State) (e : EngineId) (x : Engine) : (s.setEngine e x).clock = s.clock := by cases e <;> rfl
@[simp] theorem setEngine_hwi (s : State) (e : EngineId) (x : Engine) : (s.setEngine e x).hwi = s.hwi := by cases e <;> rfl
@[simp] theorem setEngine_ccp (s : State) (e : EngineId) (x : Engine) : (s.setEngine e x).ccp = s.ccp := by cases e <;> rfl
@[simp] theorem setEngine_tables (s : State) (e : EngineId) (x : Engine) : (s.setEngine e x).tables = s.tables := by cases e <;> rfl
@[simp] theorem setEngine_queue (s : State) (e : EngineId) (x : Engine) : (s.setEngine e x).queue = s.queue := by cases e <;> rfl
@[simp] theorem setEngine_dsc (s : State) (e : EngineId) (x : Engine) : (s.setEngine e x).dsc = s.dsc := by cases e <;> rfl
@[simp] theorem setEngine_trunks (s : State) (e : EngineId) (x : Engine) : (s.setEngine e x).trunks = s.trunks := by cases e <;> rfl
@[simp] theorem setEngine_cmu (s : State) (e : EngineId) (x : Engine) : (s.setEngine e x).cmu = s.cmu := by cases e <;> rfl
@[simp] theorem setEngine_evr (s : State) (e : EngineId) (x : Engine) : (s.setEngine e x).evr = s.evr := by cases e <;> rfl

@[simp] theorem modEngine_pending (s : State) (e : EngineId) (g : Engine → Engine) : (s.modEngine e g).pending = s.pending := by cases e <;> rfl
@[simp] theorem modEngine_resetLow (s : State) (e : EngineId) (g : Engine → Engine) : (s.modEngine e g).resetLow = s.resetLow := by cases e <;> rfl
@[simp] theorem modEngine_clock (s : State) (e : EngineId) (g : Engine → Engine) : (s.modEngine e g).clock = s.clock := by cases e <;> rfl
@[simp] theorem modEngine_hwi (s : State) (e : EngineId) (g : Engine → Engine) : (s.modEngine e g).hwi = s.hwi := by cases e <;> rfl
@[simp] theorem modEngine_ccp (s : State) (e : EngineId) (g : Engine → Engine) : (s.modEngine e g).ccp = s.ccp := by cases e <;> rfl
@[simp] theorem modEngine_tables (s : State) (e : EngineId) (g : Engine → Engine) : (s.modEngine e g).tables = s.tables := by cases e <;> rfl
@[simp] theorem modEngine_queue (s : State) (e : EngineId) (g : Engine → Engine) : (s.modEngine e g).queue = s.queue := by cases e <;> rfl
@[simp] theorem modEngine_dsc (s : State) (e : EngineId) (g : Engine → Engine) : (s.modEngine e g).dsc = s.dsc := by cases e <;> rfl
@[simp] theorem modEngine_trunks (s : State) (e : EngineId) (g : Engine → Engine) : (s.modEngine e g).trunks = s.trunks := by cases e <;> rfl
@[simp] theorem modEngine_cmu (s : State) (e : EngineId) (g : Engine → Engine) : (s.modEngine e g).cmu = s.cmu := by cases e <;> rfl
@[simp] theorem modEngine_evr (s : State) (e : EngineId) (g : Engine → Engine) : (s.modEngine e g).evr = s.evr := by cases e <;> rfl

@[simp] theorem setTrunk_pending (s : State) (t : TrunkId) (x : Trunk) : (s.setTrunk t x).pending = s.pending := rfl
@[simp] theorem setTrunk_resetLow (s : State) (t : TrunkId) (x : Trunk) : (s.setTrunk t x).resetLow = s.resetLow := rfl
@[simp] theorem setTrunk_clock (s : State) (t : TrunkId) (x : Trunk) : (s.setTrunk t x).clock = s.clock := rfl
@[simp] theorem setTrunk_hwi (s : State) (t : TrunkId) (x : Trunk) : (s.setTrunk t x).hwi = s.hwi := rfl
@[simp] theorem setTrunk_ccp (s : State) (t : TrunkId) (x : Trunk) : (s.setTrunk t x).ccp = s.ccp := rfl
@[simp] theorem setTrunk_tables (s : State) (t : TrunkId) (x : Trunk) : (s.setTrunk t x).tables = s.tables := rfl
@[simp] theorem setTrunk_queue (s : State) (t : TrunkId) (x : Trunk) : (s.setTrunk t x).queue = s.queue := rfl
@[simp] theorem setTrunk_dsc (s : State) (t : TrunkId) (x : Trunk) : (s.setTrunk t x).dsc = s.dsc := rfl
@[simp] theorem setTrunk_engines (s : State) (t : TrunkId) (x : Trunk) : (s.setTrunk t x).engines = s.engines := rfl
@[simp] theorem setTrunk_cmu (s : State) (t : TrunkId) (x : Trunk) : (s.setTrunk t x).cmu = s.cmu := rfl
@[simp] theorem setTrunk_evr (s : State) (t : TrunkId) (x : Trunk) : (s.setTrunk t x).evr = s.evr := rfl

@[simp] theorem resetWarning_pending (s : State) (t : TrunkId) : (s.resetWarning t).pending = s.pending := rfl
@[simp] theorem resetWarning_resetLow (s : State) (t : TrunkId) : (s.resetWarning t).resetLow = s.resetLow := rfl
@[simp] theorem resetWarning_clock (s : State) (t : TrunkId) : (s.resetWarning t).clock = s.clock := rfl
@[simp] theorem resetWarning_ccp (s : State) (t : TrunkId) : (s.resetWarning t).ccp = s.ccp := rfl
@[simp] theorem resetWarning_tables (s : State) (t : TrunkId) : (s.resetWarning t).tables = s.tables := rfl
@[simp] theorem resetWarning_queue (s : State) (t : TrunkId) : (s.resetWarning t).queue = s.queue := rfl
@[simp] theorem resetWarning_dsc (s : State) (t : TrunkId) : (s.resetWarning t).dsc = s.dsc := rfl
@[simp] theorem resetWarning_trunks (s : State) (t : TrunkId) : (s.resetWarning t).trunks = s.trunks := rfl
@[simp] theorem resetWarning_engines (s : State) (t : TrunkId) : (s.resetWarning t).engines = s.engines := rfl
@[simp] theorem resetWarning_cmu (s : State) (t : TrunkId) : (s.resetWarning t).cmu = s.cmu := rfl
@[simp] theorem resetWarning_evr (s : State) (t : TrunkId) : (s.resetWarning t).evr = s.evr := rfl

/-- The interface with its warning sources left out: all of it that a grant leaves alone (R105, R106). -/
def Hwi.unwarned (x : Hwi) : Hwi := { x with warnings := Vector.replicate 8 .stopped }
@[simp] theorem resetWarning_unwarned (s : State) (t : TrunkId) : (s.resetWarning t).hwi.unwarned = s.hwi.unwarned := rfl
@[simp] theorem warnings_resetWarning (s : State) (t : TrunkId) :
    (s.resetWarning t).hwi.warnings = vput s.hwi.warnings t .stopped := rfl

@[simp] theorem raise_pending (s : State) (d : Detail) : (s.raise d).pending = s.pending := rfl
@[simp] theorem raise_resetLow (s : State) (d : Detail) : (s.raise d).resetLow = s.resetLow := rfl
@[simp] theorem raise_clock (s : State) (d : Detail) : (s.raise d).clock = s.clock := rfl
@[simp] theorem raise_hwi (s : State) (d : Detail) : (s.raise d).hwi = s.hwi := rfl
@[simp] theorem raise_ccp (s : State) (d : Detail) : (s.raise d).ccp = s.ccp := rfl
@[simp] theorem raise_tables (s : State) (d : Detail) : (s.raise d).tables = s.tables := rfl
@[simp] theorem raise_queue (s : State) (d : Detail) : (s.raise d).queue = s.queue := rfl
@[simp] theorem raise_dsc (s : State) (d : Detail) : (s.raise d).dsc = s.dsc := rfl
@[simp] theorem raise_trunks (s : State) (d : Detail) : (s.raise d).trunks = s.trunks := rfl
@[simp] theorem raise_engines (s : State) (d : Detail) : (s.raise d).engines = s.engines := rfl
@[simp] theorem raise_cmu (s : State) (d : Detail) : (s.raise d).cmu = s.cmu := rfl

@[simp] theorem cause_pending (s : State)  : (s.cause).pending = s.pending := rfl
@[simp] theorem cause_resetLow (s : State)  : (s.cause).resetLow = s.resetLow := rfl
@[simp] theorem cause_clock (s : State)  : (s.cause).clock = s.clock := rfl
@[simp] theorem cause_hwi (s : State)  : (s.cause).hwi = s.hwi := rfl
@[simp] theorem cause_ccp (s : State)  : (s.cause).ccp = s.ccp := rfl
@[simp] theorem cause_tables (s : State)  : (s.cause).tables = s.tables := rfl
@[simp] theorem cause_queue (s : State)  : (s.cause).queue = s.queue := rfl
@[simp] theorem cause_trunks (s : State)  : (s.cause).trunks = s.trunks := rfl
@[simp] theorem cause_engines (s : State)  : (s.cause).engines = s.engines := rfl
@[simp] theorem cause_cmu (s : State)  : (s.cause).cmu = s.cmu := rfl
@[simp] theorem cause_evr (s : State)  : (s.cause).evr = s.evr := rfl

@[simp] theorem updateRecord_pending (s : State) (h : Handle) (g : Record → Record) : (s.updateRecord h g).pending = s.pending := rfl
@[simp] theorem updateRecord_resetLow (s : State) (h : Handle) (g : Record → Record) : (s.updateRecord h g).resetLow = s.resetLow := rfl
@[simp] theorem updateRecord_clock (s : State) (h : Handle) (g : Record → Record) : (s.updateRecord h g).clock = s.clock := rfl
@[simp] theorem updateRecord_hwi (s : State) (h : Handle) (g : Record → Record) : (s.updateRecord h g).hwi = s.hwi := rfl
@[simp] theorem updateRecord_ccp (s : State) (h : Handle) (g : Record → Record) : (s.updateRecord h g).ccp = s.ccp := rfl
@[simp] theorem updateRecord_tables (s : State) (h : Handle) (g : Record → Record) : (s.updateRecord h g).tables = s.tables := rfl
@[simp] theorem updateRecord_dsc (s : State) (h : Handle) (g : Record → Record) : (s.updateRecord h g).dsc = s.dsc := rfl
@[simp] theorem updateRecord_trunks (s : State) (h : Handle) (g : Record → Record) : (s.updateRecord h g).trunks = s.trunks := rfl
@[simp] theorem updateRecord_engines (s : State) (h : Handle) (g : Record → Record) : (s.updateRecord h g).engines = s.engines := rfl
@[simp] theorem updateRecord_cmu (s : State) (h : Handle) (g : Record → Record) : (s.updateRecord h g).cmu = s.cmu := rfl
@[simp] theorem updateRecord_evr (s : State) (h : Handle) (g : Record → Record) : (s.updateRecord h g).evr = s.evr := rfl

@[simp] theorem removeRecord_pending (s : State) (h : Handle) : (s.removeRecord h).pending = s.pending := rfl
@[simp] theorem removeRecord_resetLow (s : State) (h : Handle) : (s.removeRecord h).resetLow = s.resetLow := rfl
@[simp] theorem removeRecord_clock (s : State) (h : Handle) : (s.removeRecord h).clock = s.clock := rfl
@[simp] theorem removeRecord_hwi (s : State) (h : Handle) : (s.removeRecord h).hwi = s.hwi := rfl
@[simp] theorem removeRecord_ccp (s : State) (h : Handle) : (s.removeRecord h).ccp = s.ccp := rfl
@[simp] theorem removeRecord_tables (s : State) (h : Handle) : (s.removeRecord h).tables = s.tables := rfl
@[simp] theorem removeRecord_dsc (s : State) (h : Handle) : (s.removeRecord h).dsc = s.dsc := rfl
@[simp] theorem removeRecord_trunks (s : State) (h : Handle) : (s.removeRecord h).trunks = s.trunks := rfl
@[simp] theorem removeRecord_engines (s : State) (h : Handle) : (s.removeRecord h).engines = s.engines := rfl
@[simp] theorem removeRecord_cmu (s : State) (h : Handle) : (s.removeRecord h).cmu = s.cmu := rfl
@[simp] theorem removeRecord_evr (s : State) (h : Handle) : (s.removeRecord h).evr = s.evr := rfl

@[simp] theorem adjustClass_pending (s : State) (c : ClassId) (ce : ClassEntry) : (s.adjustClass c ce).pending = s.pending := rfl
@[simp] theorem adjustClass_resetLow (s : State) (c : ClassId) (ce : ClassEntry) : (s.adjustClass c ce).resetLow = s.resetLow := rfl
@[simp] theorem adjustClass_clock (s : State) (c : ClassId) (ce : ClassEntry) : (s.adjustClass c ce).clock = s.clock := rfl
@[simp] theorem adjustClass_hwi (s : State) (c : ClassId) (ce : ClassEntry) : (s.adjustClass c ce).hwi = s.hwi := rfl
@[simp] theorem adjustClass_ccp (s : State) (c : ClassId) (ce : ClassEntry) : (s.adjustClass c ce).ccp = s.ccp := rfl
@[simp] theorem adjustClass_tables (s : State) (c : ClassId) (ce : ClassEntry) : (s.adjustClass c ce).tables = s.tables := rfl
@[simp] theorem adjustClass_dsc (s : State) (c : ClassId) (ce : ClassEntry) : (s.adjustClass c ce).dsc = s.dsc := rfl
@[simp] theorem adjustClass_trunks (s : State) (c : ClassId) (ce : ClassEntry) : (s.adjustClass c ce).trunks = s.trunks := rfl
@[simp] theorem adjustClass_engines (s : State) (c : ClassId) (ce : ClassEntry) : (s.adjustClass c ce).engines = s.engines := rfl
@[simp] theorem adjustClass_cmu (s : State) (c : ClassId) (ce : ClassEntry) : (s.adjustClass c ce).cmu = s.cmu := rfl
@[simp] theorem adjustClass_evr (s : State) (c : ClassId) (ce : ClassEntry) : (s.adjustClass c ce).evr = s.evr := rfl

@[simp] theorem appendBlock_pending (s : State) (e : EngineId) (h : Handle) : (s.appendBlock e h).pending = s.pending := by cases e <;> rfl
@[simp] theorem appendBlock_resetLow (s : State) (e : EngineId) (h : Handle) : (s.appendBlock e h).resetLow = s.resetLow := by cases e <;> rfl
@[simp] theorem appendBlock_clock (s : State) (e : EngineId) (h : Handle) : (s.appendBlock e h).clock = s.clock := by cases e <;> rfl
@[simp] theorem appendBlock_hwi (s : State) (e : EngineId) (h : Handle) : (s.appendBlock e h).hwi = s.hwi := by cases e <;> rfl
@[simp] theorem appendBlock_ccp (s : State) (e : EngineId) (h : Handle) : (s.appendBlock e h).ccp = s.ccp := by cases e <;> rfl
@[simp] theorem appendBlock_tables (s : State) (e : EngineId) (h : Handle) : (s.appendBlock e h).tables = s.tables := by cases e <;> rfl
@[simp] theorem appendBlock_queue (s : State) (e : EngineId) (h : Handle) : (s.appendBlock e h).queue = s.queue := by cases e <;> rfl
@[simp] theorem appendBlock_dsc (s : State) (e : EngineId) (h : Handle) : (s.appendBlock e h).dsc = s.dsc := by cases e <;> rfl
@[simp] theorem appendBlock_trunks (s : State) (e : EngineId) (h : Handle) : (s.appendBlock e h).trunks = s.trunks := by cases e <;> rfl
@[simp] theorem appendBlock_cmu (s : State) (e : EngineId) (h : Handle) : (s.appendBlock e h).cmu = s.cmu := by cases e <;> rfl
@[simp] theorem appendBlock_evr (s : State) (e : EngineId) (h : Handle) : (s.appendBlock e h).evr = s.evr := by cases e <;> rfl

@[simp] theorem setAssembler_pending (s : State) (a : Assembler) : (s.setAssembler a).pending = s.pending := rfl
@[simp] theorem setAssembler_resetLow (s : State) (a : Assembler) : (s.setAssembler a).resetLow = s.resetLow := rfl
@[simp] theorem setAssembler_clock (s : State) (a : Assembler) : (s.setAssembler a).clock = s.clock := rfl
@[simp] theorem setAssembler_hwi (s : State) (a : Assembler) : (s.setAssembler a).hwi = s.hwi := rfl
@[simp] theorem setAssembler_tables (s : State) (a : Assembler) : (s.setAssembler a).tables = s.tables := rfl
@[simp] theorem setAssembler_queue (s : State) (a : Assembler) : (s.setAssembler a).queue = s.queue := rfl
@[simp] theorem setAssembler_dsc (s : State) (a : Assembler) : (s.setAssembler a).dsc = s.dsc := rfl
@[simp] theorem setAssembler_trunks (s : State) (a : Assembler) : (s.setAssembler a).trunks = s.trunks := rfl
@[simp] theorem setAssembler_engines (s : State) (a : Assembler) : (s.setAssembler a).engines = s.engines := rfl
@[simp] theorem setAssembler_cmu (s : State) (a : Assembler) : (s.setAssembler a).cmu = s.cmu := rfl
@[simp] theorem setAssembler_evr (s : State) (a : Assembler) : (s.setAssembler a).evr = s.evr := rfl

@[simp] theorem setNotify_pending (s : State) (p : EventKind → Bool) : (s.setNotify p).pending = s.pending := rfl
@[simp] theorem setNotify_resetLow (s : State) (p : EventKind → Bool) : (s.setNotify p).resetLow = s.resetLow := rfl
@[simp] theorem setNotify_clock (s : State) (p : EventKind → Bool) : (s.setNotify p).clock = s.clock := rfl
@[simp] theorem setNotify_hwi (s : State) (p : EventKind → Bool) : (s.setNotify p).hwi = s.hwi := rfl
@[simp] theorem setNotify_ccp (s : State) (p : EventKind → Bool) : (s.setNotify p).ccp = s.ccp := rfl
@[simp] theorem setNotify_tables (s : State) (p : EventKind → Bool) : (s.setNotify p).tables = s.tables := rfl
@[simp] theorem setNotify_queue (s : State) (p : EventKind → Bool) : (s.setNotify p).queue = s.queue := rfl
@[simp] theorem setNotify_dsc (s : State) (p : EventKind → Bool) : (s.setNotify p).dsc = s.dsc := rfl
@[simp] theorem setNotify_trunks (s : State) (p : EventKind → Bool) : (s.setNotify p).trunks = s.trunks := rfl
@[simp] theorem setNotify_engines (s : State) (p : EventKind → Bool) : (s.setNotify p).engines = s.engines := rfl
@[simp] theorem setNotify_cmu (s : State) (p : EventKind → Bool) : (s.setNotify p).cmu = s.cmu := rfl

@[simp] theorem clearEvents_pending (s : State) (p : EventKind → Bool) : (s.clearEvents p).pending = s.pending := rfl
@[simp] theorem clearEvents_resetLow (s : State) (p : EventKind → Bool) : (s.clearEvents p).resetLow = s.resetLow := rfl
@[simp] theorem clearEvents_clock (s : State) (p : EventKind → Bool) : (s.clearEvents p).clock = s.clock := rfl
@[simp] theorem clearEvents_hwi (s : State) (p : EventKind → Bool) : (s.clearEvents p).hwi = s.hwi := rfl
@[simp] theorem clearEvents_ccp (s : State) (p : EventKind → Bool) : (s.clearEvents p).ccp = s.ccp := rfl
@[simp] theorem clearEvents_tables (s : State) (p : EventKind → Bool) : (s.clearEvents p).tables = s.tables := rfl
@[simp] theorem clearEvents_queue (s : State) (p : EventKind → Bool) : (s.clearEvents p).queue = s.queue := rfl
@[simp] theorem clearEvents_dsc (s : State) (p : EventKind → Bool) : (s.clearEvents p).dsc = s.dsc := rfl
@[simp] theorem clearEvents_trunks (s : State) (p : EventKind → Bool) : (s.clearEvents p).trunks = s.trunks := rfl
@[simp] theorem clearEvents_engines (s : State) (p : EventKind → Bool) : (s.clearEvents p).engines = s.engines := rfl
@[simp] theorem clearEvents_cmu (s : State) (p : EventKind → Bool) : (s.clearEvents p).cmu = s.cmu := rfl

@[simp] theorem takeSnapshot_pending (s : State)  : (s.takeSnapshot).pending = s.pending := rfl
@[simp] theorem takeSnapshot_resetLow (s : State)  : (s.takeSnapshot).resetLow = s.resetLow := rfl
@[simp] theorem takeSnapshot_clock (s : State)  : (s.takeSnapshot).clock = s.clock := rfl
@[simp] theorem takeSnapshot_hwi (s : State)  : (s.takeSnapshot).hwi = s.hwi := rfl
@[simp] theorem takeSnapshot_ccp (s : State)  : (s.takeSnapshot).ccp = s.ccp := rfl
@[simp] theorem takeSnapshot_tables (s : State)  : (s.takeSnapshot).tables = s.tables := rfl
@[simp] theorem takeSnapshot_queue (s : State)  : (s.takeSnapshot).queue = s.queue := rfl
@[simp] theorem takeSnapshot_dsc (s : State)  : (s.takeSnapshot).dsc = s.dsc := rfl
@[simp] theorem takeSnapshot_trunks (s : State)  : (s.takeSnapshot).trunks = s.trunks := rfl
@[simp] theorem takeSnapshot_engines (s : State)  : (s.takeSnapshot).engines = s.engines := rfl
@[simp] theorem takeSnapshot_cmu (s : State)  : (s.takeSnapshot).cmu = s.cmu := rfl

@[simp] theorem setHold_pending (s : State) (n : Nat) : (s.setHold n).pending = s.pending := rfl
@[simp] theorem setHold_resetLow (s : State) (n : Nat) : (s.setHold n).resetLow = s.resetLow := rfl
@[simp] theorem setHold_clock (s : State) (n : Nat) : (s.setHold n).clock = s.clock := rfl
@[simp] theorem setHold_hwi (s : State) (n : Nat) : (s.setHold n).hwi = s.hwi := rfl
@[simp] theorem setHold_ccp (s : State) (n : Nat) : (s.setHold n).ccp = s.ccp := rfl
@[simp] theorem setHold_tables (s : State) (n : Nat) : (s.setHold n).tables = s.tables := rfl
@[simp] theorem setHold_queue (s : State) (n : Nat) : (s.setHold n).queue = s.queue := rfl
@[simp] theorem setHold_trunks (s : State) (n : Nat) : (s.setHold n).trunks = s.trunks := rfl
@[simp] theorem setHold_engines (s : State) (n : Nat) : (s.setHold n).engines = s.engines := rfl
@[simp] theorem setHold_cmu (s : State) (n : Nat) : (s.setHold n).cmu = s.cmu := rfl
@[simp] theorem setHold_evr (s : State) (n : Nat) : (s.setHold n).evr = s.evr := rfl

@[simp] theorem debounceFrame_pending (s : State) (a b : List Word) : (s.debounceFrame a b).pending = s.pending := rfl
@[simp] theorem debounceFrame_resetLow (s : State) (a b : List Word) : (s.debounceFrame a b).resetLow = s.resetLow := rfl
@[simp] theorem debounceFrame_clock (s : State) (a b : List Word) : (s.debounceFrame a b).clock = s.clock := rfl
@[simp] theorem debounceFrame_ccp (s : State) (a b : List Word) : (s.debounceFrame a b).ccp = s.ccp := rfl
@[simp] theorem debounceFrame_tables (s : State) (a b : List Word) : (s.debounceFrame a b).tables = s.tables := rfl
@[simp] theorem debounceFrame_queue (s : State) (a b : List Word) : (s.debounceFrame a b).queue = s.queue := rfl
@[simp] theorem debounceFrame_dsc (s : State) (a b : List Word) : (s.debounceFrame a b).dsc = s.dsc := rfl
@[simp] theorem debounceFrame_trunks (s : State) (a b : List Word) : (s.debounceFrame a b).trunks = s.trunks := rfl
@[simp] theorem debounceFrame_engines (s : State) (a b : List Word) : (s.debounceFrame a b).engines = s.engines := rfl
@[simp] theorem debounceFrame_cmu (s : State) (a b : List Word) : (s.debounceFrame a b).cmu = s.cmu := rfl
@[simp] theorem debounceFrame_evr (s : State) (a b : List Word) : (s.debounceFrame a b).evr = s.evr := rfl

@[simp] theorem applyPaths_pending (s : State)  : (s.applyPaths).pending = s.pending := rfl
@[simp] theorem applyPaths_resetLow (s : State)  : (s.applyPaths).resetLow = s.resetLow := rfl
@[simp] theorem applyPaths_clock (s : State)  : (s.applyPaths).clock = s.clock := rfl
@[simp] theorem applyPaths_ccp (s : State)  : (s.applyPaths).ccp = s.ccp := rfl
@[simp] theorem applyPaths_tables (s : State)  : (s.applyPaths).tables = s.tables := rfl
@[simp] theorem applyPaths_queue (s : State)  : (s.applyPaths).queue = s.queue := rfl
@[simp] theorem applyPaths_dsc (s : State)  : (s.applyPaths).dsc = s.dsc := rfl
@[simp] theorem applyPaths_trunks (s : State)  : (s.applyPaths).trunks = s.trunks := rfl
@[simp] theorem applyPaths_engines (s : State)  : (s.applyPaths).engines = s.engines := rfl
@[simp] theorem applyPaths_cmu (s : State)  : (s.applyPaths).cmu = s.cmu := rfl
@[simp] theorem applyPaths_evr (s : State)  : (s.applyPaths).evr = s.evr := rfl

@[simp] theorem replyWith_pending (s : State) (c : AnswerContent) (b : Bool) : (s.replyWith c b).pending = s.pending := by
  unfold State.replyWith; split <;> rfl
@[simp] theorem replyWith_resetLow (s : State) (c : AnswerContent) (b : Bool) : (s.replyWith c b).resetLow = s.resetLow := by
  unfold State.replyWith; split <;> rfl
@[simp] theorem replyWith_clock (s : State) (c : AnswerContent) (b : Bool) : (s.replyWith c b).clock = s.clock := by
  unfold State.replyWith; split <;> rfl
@[simp] theorem replyWith_hwi (s : State) (c : AnswerContent) (b : Bool) : (s.replyWith c b).hwi = s.hwi := by
  unfold State.replyWith; split <;> rfl
@[simp] theorem replyWith_tables (s : State) (c : AnswerContent) (b : Bool) : (s.replyWith c b).tables = s.tables := by
  unfold State.replyWith; split <;> rfl
@[simp] theorem replyWith_queue (s : State) (c : AnswerContent) (b : Bool) : (s.replyWith c b).queue = s.queue := by
  unfold State.replyWith; split <;> rfl
@[simp] theorem replyWith_dsc (s : State) (c : AnswerContent) (b : Bool) : (s.replyWith c b).dsc = s.dsc := by
  unfold State.replyWith; split <;> rfl
@[simp] theorem replyWith_trunks (s : State) (c : AnswerContent) (b : Bool) : (s.replyWith c b).trunks = s.trunks := by
  unfold State.replyWith; split <;> rfl
@[simp] theorem replyWith_engines (s : State) (c : AnswerContent) (b : Bool) : (s.replyWith c b).engines = s.engines := by
  unfold State.replyWith; split <;> rfl
@[simp] theorem replyWith_cmu (s : State) (c : AnswerContent) (b : Bool) : (s.replyWith c b).cmu = s.cmu := by
  unfold State.replyWith; split <;> rfl
@[simp] theorem replyWith_evr (s : State) (c : AnswerContent) (b : Bool) : (s.replyWith c b).evr = s.evr := by
  unfold State.replyWith; split <;> rfl

@[simp] theorem answer_pending (s : State) (r : Result) (d : List Word) : (s.answer r d).pending = s.pending := by
  unfold State.answer; split <;> simp
@[simp] theorem answer_resetLow (s : State) (r : Result) (d : List Word) : (s.answer r d).resetLow = s.resetLow := by
  unfold State.answer; split <;> simp
@[simp] theorem answer_clock (s : State) (r : Result) (d : List Word) : (s.answer r d).clock = s.clock := by
  unfold State.answer; split <;> simp
@[simp] theorem answer_hwi (s : State) (r : Result) (d : List Word) : (s.answer r d).hwi = s.hwi := by
  unfold State.answer; split <;> simp
@[simp] theorem answer_tables (s : State) (r : Result) (d : List Word) : (s.answer r d).tables = s.tables := by
  unfold State.answer; split <;> simp
@[simp] theorem answer_queue (s : State) (r : Result) (d : List Word) : (s.answer r d).queue = s.queue := by
  unfold State.answer; split <;> simp
@[simp] theorem answer_dsc (s : State) (r : Result) (d : List Word) : (s.answer r d).dsc = s.dsc := by
  unfold State.answer; split <;> simp
@[simp] theorem answer_trunks (s : State) (r : Result) (d : List Word) : (s.answer r d).trunks = s.trunks := by
  unfold State.answer; split <;> simp
@[simp] theorem answer_engines (s : State) (r : Result) (d : List Word) : (s.answer r d).engines = s.engines := by
  unfold State.answer; split <;> simp
@[simp] theorem answer_cmu (s : State) (r : Result) (d : List Word) : (s.answer r d).cmu = s.cmu := by
  unfold State.answer; split <;> simp
@[simp] theorem answer_evr (s : State) (r : Result) (d : List Word) : (s.answer r d).evr = s.evr := by
  unfold State.answer; split <;> simp

@[simp] theorem refuse_pending (s : State) (r : RefuseReason) : (s.refuse r).pending = s.pending := by
  simp [State.refuse]
@[simp] theorem refuse_resetLow (s : State) (r : RefuseReason) : (s.refuse r).resetLow = s.resetLow := by
  simp [State.refuse]
@[simp] theorem refuse_clock (s : State) (r : RefuseReason) : (s.refuse r).clock = s.clock := by
  simp [State.refuse]
@[simp] theorem refuse_hwi (s : State) (r : RefuseReason) : (s.refuse r).hwi = s.hwi := by
  simp [State.refuse]
@[simp] theorem refuse_tables (s : State) (r : RefuseReason) : (s.refuse r).tables = s.tables := by
  simp [State.refuse]
@[simp] theorem refuse_queue (s : State) (r : RefuseReason) : (s.refuse r).queue = s.queue := by
  simp [State.refuse]
@[simp] theorem refuse_dsc (s : State) (r : RefuseReason) : (s.refuse r).dsc = s.dsc := by
  simp [State.refuse]
@[simp] theorem refuse_trunks (s : State) (r : RefuseReason) : (s.refuse r).trunks = s.trunks := by
  simp [State.refuse]
@[simp] theorem refuse_engines (s : State) (r : RefuseReason) : (s.refuse r).engines = s.engines := by
  simp [State.refuse]
@[simp] theorem refuse_cmu (s : State) (r : RefuseReason) : (s.refuse r).cmu = s.cmu := by
  simp [State.refuse]
@[simp] theorem refuse_evr (s : State) (r : RefuseReason) : (s.refuse r).evr = s.evr := by
  simp [State.refuse]

/-! ### Views that an update leaves -/
@[simp] theorem setEngine_trunk (s : State) (e : EngineId) (x : Engine) (u : TrunkId) : (s.setEngine e x).trunk u = s.trunk u :=
  trunk_of_trunks (by simp) u

@[simp] theorem modEngine_trunk (s : State) (e : EngineId) (g : Engine → Engine) (u : TrunkId) : (s.modEngine e g).trunk u = s.trunk u :=
  trunk_of_trunks (by simp) u

@[simp] theorem appendBlock_trunk (s : State) (e : EngineId) (h : Handle) (u : TrunkId) : (s.appendBlock e h).trunk u = s.trunk u :=
  trunk_of_trunks (by simp) u

@[simp] theorem setTrunk_engine (s : State) (t : TrunkId) (x : Trunk) (f : EngineId) : (s.setTrunk t x).engine f = s.engine f :=
  engine_of_engines (by simp) f

@[simp] theorem raise_engine (s : State) (d : Detail) (f : EngineId) : (s.raise d).engine f = s.engine f :=
  engine_of_engines (by simp) f
@[simp] theorem raise_trunk (s : State) (d : Detail) (u : TrunkId) : (s.raise d).trunk u = s.trunk u :=
  trunk_of_trunks (by simp) u

@[simp] theorem cause_engine (s : State)  (f : EngineId) : (s.cause).engine f = s.engine f :=
  engine_of_engines (by simp) f
@[simp] theorem cause_trunk (s : State)  (u : TrunkId) : (s.cause).trunk u = s.trunk u :=
  trunk_of_trunks (by simp) u

@[simp] theorem updateRecord_engine (s : State) (h : Handle) (g : Record → Record) (f : EngineId) : (s.updateRecord h g).engine f = s.engine f :=
  engine_of_engines (by simp) f
@[simp] theorem updateRecord_trunk (s : State) (h : Handle) (g : Record → Record) (u : TrunkId) : (s.updateRecord h g).trunk u = s.trunk u :=
  trunk_of_trunks (by simp) u

@[simp] theorem removeRecord_engine (s : State) (h : Handle) (f : EngineId) : (s.removeRecord h).engine f = s.engine f :=
  engine_of_engines (by simp) f
@[simp] theorem removeRecord_trunk (s : State) (h : Handle) (u : TrunkId) : (s.removeRecord h).trunk u = s.trunk u :=
  trunk_of_trunks (by simp) u

@[simp] theorem adjustClass_engine (s : State) (c : ClassId) (ce : ClassEntry) (f : EngineId) : (s.adjustClass c ce).engine f = s.engine f :=
  engine_of_engines (by simp) f
@[simp] theorem adjustClass_trunk (s : State) (c : ClassId) (ce : ClassEntry) (u : TrunkId) : (s.adjustClass c ce).trunk u = s.trunk u :=
  trunk_of_trunks (by simp) u

@[simp] theorem replyWith_engine (s : State) (c : AnswerContent) (b : Bool) (f : EngineId) : (s.replyWith c b).engine f = s.engine f :=
  engine_of_engines (by simp) f
@[simp] theorem replyWith_trunk (s : State) (c : AnswerContent) (b : Bool) (u : TrunkId) : (s.replyWith c b).trunk u = s.trunk u :=
  trunk_of_trunks (by simp) u

@[simp] theorem answer_engine (s : State) (r : Result) (d : List Word) (f : EngineId) : (s.answer r d).engine f = s.engine f :=
  engine_of_engines (by simp) f
@[simp] theorem answer_trunk (s : State) (r : Result) (d : List Word) (u : TrunkId) : (s.answer r d).trunk u = s.trunk u :=
  trunk_of_trunks (by simp) u

@[simp] theorem refuse_engine (s : State) (r : RefuseReason) (f : EngineId) : (s.refuse r).engine f = s.engine f :=
  engine_of_engines (by simp) f
@[simp] theorem refuse_trunk (s : State) (r : RefuseReason) (u : TrunkId) : (s.refuse r).trunk u = s.trunk u :=
  trunk_of_trunks (by simp) u

theorem siteOr_congr {s t : State} (h : s.tables = t.tables) (hc : s.clock = t.clock) : s.siteOr = t.siteOr := by
  simp [State.siteOr, h, hc]

theorem routeOr_congr {s t : State} (h : s.tables = t.tables) (hc : s.clock = t.clock) (r : RouteId) :
    s.routeOr r = t.routeOr r := by simp [State.routeOr, State.routeEntry, h, hc]

theorem classOr_congr {s t : State} (h : s.tables = t.tables) (hc : s.clock = t.clock) (c : ClassId) :
    s.classOr c = t.classOr c := by simp [State.classOr, State.classEntry, h, hc]

/-! ### The cause to select, and one occurrence of an event -/

theorem cause_dsc (s : State) : s.cause.dsc = { s.dsc with selectionsDue := s.dsc.selectionsDue + 1 } := rfl

@[simp] theorem raise_record_same (s : State) (d : Detail) :
    vget (s.raise d).evr.records d.kind = (vget s.evr.records d.kind).occur d := by simp [State.raise]

@[simp] theorem raise_record_other (s : State) (d : Detail) {k : EventKind} (h : k ≠ d.kind) :
    vget (s.raise d).evr.records k = vget s.evr.records k := by simp [State.raise, h]

@[simp] theorem raise_emission (s : State) (d : Detail) : (s.raise d).evr.emission = s.evr.emission := rfl

/-! ### Replies -/

/-- R174: what a reply makes of the port: the answer queue grows by one entry and no cell is in hand. -/
theorem replyWith_ccp {s : State} {c : InCell} (h : s.ccp.inHand = some c) (content : AnswerContent) (done : Bool) :
    (s.replyWith content done).ccp =
      { s.ccp with answers := s.ccp.answers ++ [⟨c.tag, content, done⟩], inHand := none } := by
  simp [State.replyWith, h]

theorem answer_ccp {s : State} {c : InCell} (h : s.ccp.inHand = some c) (r : Result) (d : List Word) :
    (s.answer r d).ccp =
      { s.ccp with answers := s.ccp.answers ++ [⟨c.tag, .answer c.kind r d, false⟩], inHand := none } := by
  simp [State.answer, h, replyWith_ccp h]

/-! ### A record's seconds: what a unit and a second leave of it -/

@[simp] theorem Record.tick_handle (r : Record) : r.tick.handle = r.handle := rfl
@[simp] theorem Record.tick_key (r : Record) : r.tick.key = r.key := rfl
@[simp] theorem Record.tick_cls (r : Record) : r.tick.cls = r.cls := rfl
@[simp] theorem Record.tick_isProtected (r : Record) : r.tick.isProtected = r.isProtected := rfl
@[simp] theorem Record.tick_failures (r : Record) : r.tick.failures = r.failures := rfl
@[simp] theorem Record.tick_routePos (r : Record) : r.tick.routePos = r.routePos := rfl
@[simp] theorem Record.tick_routeFailures (r : Record) : r.tick.routeFailures = r.routeFailures := rfl
@[simp] theorem Record.tick_cycles (r : Record) : r.tick.cycles = r.cycles := rfl
@[simp] theorem Record.tick_age (r : Record) : r.tick.age = r.age := rfl
@[simp] theorem Record.tick_repeats (r : Record) : r.tick.repeats = r.repeats := rfl
@[simp] theorem Record.tick_state (r : Record) : r.tick.state = r.state.tick := rfl
@[simp] theorem Record.tick_agePart (r : Record) : r.tick.agePart = r.agePart + 1 := rfl

@[simp] theorem Record.second_handle (r : Record) : r.second.handle = r.handle := by unfold Record.second; split <;> rfl
@[simp] theorem Record.second_key (r : Record) : r.second.key = r.key := by unfold Record.second; split <;> rfl
@[simp] theorem Record.second_cls (r : Record) : r.second.cls = r.cls := by unfold Record.second; split <;> rfl
@[simp] theorem Record.second_isProtected (r : Record) : r.second.isProtected = r.isProtected := by unfold Record.second; split <;> rfl
@[simp] theorem Record.second_failures (r : Record) : r.second.failures = r.failures := by unfold Record.second; split <;> rfl
@[simp] theorem Record.second_routePos (r : Record) : r.second.routePos = r.routePos := by unfold Record.second; split <;> rfl
@[simp] theorem Record.second_routeFailures (r : Record) : r.second.routeFailures = r.routeFailures := by unfold Record.second; split <;> rfl
@[simp] theorem Record.second_cycles (r : Record) : r.second.cycles = r.cycles := by unfold Record.second; split <;> rfl
@[simp] theorem Record.second_repeats (r : Record) : r.second.repeats = r.repeats := by unfold Record.second; split <;> rfl
@[simp] theorem Record.second_state (r : Record) : r.second.state = r.state.second := rfl

@[simp] theorem RecordState.tick_isInCall (x : RecordState) : x.tick.isInCall = x.isInCall := by
  cases x <;> rfl
@[simp] theorem RecordState.second_isInCall (x : RecordState) : x.second.isInCall = x.isInCall := by
  cases x with
  | held n part => unfold RecordState.second; dsimp only; split <;> rfl
  | _ => rfl

/-- What one second makes of a record's age: one more where its own second has passed, to 65535. -/
theorem Record.second_age (r : Record) :
    r.second.age = if secondTicks ≤ r.agePart then min (r.age + 1) 65535 else r.age := by
  unfold Record.second
  split <;> rfl

/-! ### The form every meaning has -/

@[simp] theorem running_live (f : State → State) {s : State} (h : s.resetLow = false) : running f s = .next (f s) := by
  simp [running, h]

@[simp] theorem running_held (f : State → State) {s : State} (h : s.resetLow = true) : running f s = .next s := by
  simp [running, h]

end Sys2Proof.Machine
end

