-- ==== Sys2Proof/Laws/Frames.lean ====
section
/-! SUPPORT. What each shared operation leaves as it is: for every operation of the queue, the trunks, the tables, the calls
and the selection, one lemma for each field of the state that it keeps. -/

namespace Sys2Proof.Machine

/-- A fold keeps whatever each of its steps keeps. -/
theorem foldl_keeps {σ α β : Type} (p : σ → β) (f : σ → α → σ) (h : ∀ s x, p (f s x) = p s) (l : List α) (s : σ) :
    p (l.foldl f s) = p s := by
  induction l generalizing s with
  | nil => rfl
  | cons x xs ih => rw [List.foldl_cons, ih, h]

/-- R13: what a granted take makes of the state. -/
theorem takeRecord_eq {s s' : State} {h : Handle} {e : EngineId} (hs : s.takeRecord h e = some s') :
    (∃ r, s.findRecord h = some r ∧ r.state = .waiting) ∧
      s' = s.updateRecord h fun r => { r with state := .inCall e, isProtected := true } := by
  unfold State.takeRecord at hs
  split at hs
  · next r hr => split at hs <;> simp_all
  · cases hs
/-! ### The alert queue -/
@[simp] theorem lateJoin_pending (s : State) (h : Handle) :
    (s.lateJoin h).pending = s.pending := by
  unfold State.lateJoin
  repeat' split
  all_goals try rfl
  next hs => simp [(takeRecord_eq hs).2]
@[simp] theorem lateJoin_resetLow (s : State) (h : Handle) :
    (s.lateJoin h).resetLow = s.resetLow := by
  unfold State.lateJoin
  repeat' split
  all_goals try rfl
  next hs => simp [(takeRecord_eq hs).2]
@[simp] theorem lateJoin_clock (s : State) (h : Handle) :
    (s.lateJoin h).clock = s.clock := by
  unfold State.lateJoin
  repeat' split
  all_goals try rfl
  next hs => simp [(takeRecord_eq hs).2]
@[simp] theorem lateJoin_hwi (s : State) (h : Handle) :
    (s.lateJoin h).hwi = s.hwi := by
  unfold State.lateJoin
  repeat' split
  all_goals try rfl
  next hs => simp [(takeRecord_eq hs).2]
@[simp] theorem lateJoin_ccp (s : State) (h : Handle) :
    (s.lateJoin h).ccp = s.ccp := by
  unfold State.lateJoin
  repeat' split
  all_goals try rfl
  next hs => simp [(takeRecord_eq hs).2]
@[simp] theorem lateJoin_tables (s : State) (h : Handle) :
    (s.lateJoin h).tables = s.tables := by
  unfold State.lateJoin
  repeat' split
  all_goals try rfl
  next hs => simp [(takeRecord_eq hs).2]
@[simp] theorem lateJoin_dsc (s : State) (h : Handle) :
    (s.lateJoin h).dsc = s.dsc := by
  unfold State.lateJoin
  repeat' split
  all_goals try rfl
  next hs => simp [(takeRecord_eq hs).2]
@[simp] theorem lateJoin_trunks (s : State) (h : Handle) :
    (s.lateJoin h).trunks = s.trunks := by
  unfold State.lateJoin
  repeat' split
  all_goals try rfl
  next hs => simp [(takeRecord_eq hs).2]
@[simp] theorem lateJoin_cmu (s : State) (h : Handle) :
    (s.lateJoin h).cmu = s.cmu := by
  unfold State.lateJoin
  repeat' split
  all_goals try rfl
  next hs => simp [(takeRecord_eq hs).2]
@[simp] theorem lateJoin_evr (s : State) (h : Handle) :
    (s.lateJoin h).evr = s.evr := by
  unfold State.lateJoin
  repeat' split
  all_goals try rfl
  next hs => simp [(takeRecord_eq hs).2]

@[simp] theorem reportWaiting_pending (s : State) (h : Handle) :
    (s.reportWaiting h).pending = s.pending := by simp [State.reportWaiting]
@[simp] theorem reportWaiting_resetLow (s : State) (h : Handle) :
    (s.reportWaiting h).resetLow = s.resetLow := by simp [State.reportWaiting]
@[simp] theorem reportWaiting_clock (s : State) (h : Handle) :
    (s.reportWaiting h).clock = s.clock := by simp [State.reportWaiting]
@[simp] theorem reportWaiting_hwi (s : State) (h : Handle) :
    (s.reportWaiting h).hwi = s.hwi := by simp [State.reportWaiting]
@[simp] theorem reportWaiting_ccp (s : State) (h : Handle) :
    (s.reportWaiting h).ccp = s.ccp := by simp [State.reportWaiting]
@[simp] theorem reportWaiting_tables (s : State) (h : Handle) :
    (s.reportWaiting h).tables = s.tables := by simp [State.reportWaiting]
@[simp] theorem reportWaiting_trunks (s : State) (h : Handle) :
    (s.reportWaiting h).trunks = s.trunks := by simp [State.reportWaiting]
@[simp] theorem reportWaiting_cmu (s : State) (h : Handle) :
    (s.reportWaiting h).cmu = s.cmu := by simp [State.reportWaiting]
@[simp] theorem reportWaiting_evr (s : State) (h : Handle) :
    (s.reportWaiting h).evr = s.evr := by simp [State.reportWaiting]

/-- R10: what an admission makes of the state. -/
theorem admit_eq {s s' : State} {k : Key} {c : ClassId} {h : Handle} (hs : s.admitAlert k c = some (s', h)) :
    s.lowestFree = some h ∧
      s' = ({ s with queue := placeRecord (newRecord h k c) s.queue } : State).reportWaiting h := by
  unfold State.admitAlert at hs
  split at hs
  · next g hg =>
    obtain ⟨rfl, rfl⟩ := by simpa using hs
    exact ⟨hg, rfl⟩
  · cases hs
@[simp] theorem offer_pending (s : State) (k : Key) (c : ClassId) :
    ((s.offer k c).1).pending = s.pending := by
  unfold State.offer
  repeat' split
  all_goals (first | (next hs => simp [(admit_eq hs).2]) | simp)
@[simp] theorem offer_resetLow (s : State) (k : Key) (c : ClassId) :
    ((s.offer k c).1).resetLow = s.resetLow := by
  unfold State.offer
  repeat' split
  all_goals (first | (next hs => simp [(admit_eq hs).2]) | simp)
@[simp] theorem offer_clock (s : State) (k : Key) (c : ClassId) :
    ((s.offer k c).1).clock = s.clock := by
  unfold State.offer
  repeat' split
  all_goals (first | (next hs => simp [(admit_eq hs).2]) | simp)
@[simp] theorem offer_hwi (s : State) (k : Key) (c : ClassId) :
    ((s.offer k c).1).hwi = s.hwi := by
  unfold State.offer
  repeat' split
  all_goals (first | (next hs => simp [(admit_eq hs).2]) | simp)
@[simp] theorem offer_ccp (s : State) (k : Key) (c : ClassId) :
    ((s.offer k c).1).ccp = s.ccp := by
  unfold State.offer
  repeat' split
  all_goals (first | (next hs => simp [(admit_eq hs).2]) | simp)
@[simp] theorem offer_tables (s : State) (k : Key) (c : ClassId) :
    ((s.offer k c).1).tables = s.tables := by
  unfold State.offer
  repeat' split
  all_goals (first | (next hs => simp [(admit_eq hs).2]) | simp)
@[simp] theorem offer_trunks (s : State) (k : Key) (c : ClassId) :
    ((s.offer k c).1).trunks = s.trunks := by
  unfold State.offer
  repeat' split
  all_goals (first | (next hs => simp [(admit_eq hs).2]) | simp)
@[simp] theorem offer_cmu (s : State) (k : Key) (c : ClassId) :
    ((s.offer k c).1).cmu = s.cmu := by
  unfold State.offer
  repeat' split
  all_goals (first | (next hs => simp [(admit_eq hs).2]) | simp)

@[simp] theorem internalAlert_pending (s : State) (k : Key) (c : ClassId) :
    (s.internalAlert k c).pending = s.pending := by simp [State.internalAlert]
@[simp] theorem internalAlert_resetLow (s : State) (k : Key) (c : ClassId) :
    (s.internalAlert k c).resetLow = s.resetLow := by simp [State.internalAlert]
@[simp] theorem internalAlert_clock (s : State) (k : Key) (c : ClassId) :
    (s.internalAlert k c).clock = s.clock := by simp [State.internalAlert]
@[simp] theorem internalAlert_hwi (s : State) (k : Key) (c : ClassId) :
    (s.internalAlert k c).hwi = s.hwi := by simp [State.internalAlert]
@[simp] theorem internalAlert_ccp (s : State) (k : Key) (c : ClassId) :
    (s.internalAlert k c).ccp = s.ccp := by simp [State.internalAlert]
@[simp] theorem internalAlert_tables (s : State) (k : Key) (c : ClassId) :
    (s.internalAlert k c).tables = s.tables := by simp [State.internalAlert]
@[simp] theorem internalAlert_trunks (s : State) (k : Key) (c : ClassId) :
    (s.internalAlert k c).trunks = s.trunks := by simp [State.internalAlert]
@[simp] theorem internalAlert_cmu (s : State) (k : Key) (c : ClassId) :
    (s.internalAlert k c).cmu = s.cmu := by simp [State.internalAlert]

@[simp] theorem settleReturn_pending (s : State) (h : Handle) :
    (s.settleReturn h).pending = s.pending := by
  unfold State.settleReturn
  repeat' split
  all_goals simp
@[simp] theorem settleReturn_resetLow (s : State) (h : Handle) :
    (s.settleReturn h).resetLow = s.resetLow := by
  unfold State.settleReturn
  repeat' split
  all_goals simp
@[simp] theorem settleReturn_clock (s : State) (h : Handle) :
    (s.settleReturn h).clock = s.clock := by
  unfold State.settleReturn
  repeat' split
  all_goals simp
@[simp] theorem settleReturn_hwi (s : State) (h : Handle) :
    (s.settleReturn h).hwi = s.hwi := by
  unfold State.settleReturn
  repeat' split
  all_goals simp
@[simp] theorem settleReturn_ccp (s : State) (h : Handle) :
    (s.settleReturn h).ccp = s.ccp := by
  unfold State.settleReturn
  repeat' split
  all_goals simp
@[simp] theorem settleReturn_tables (s : State) (h : Handle) :
    (s.settleReturn h).tables = s.tables := by
  unfold State.settleReturn
  repeat' split
  all_goals simp
@[simp] theorem settleReturn_trunks (s : State) (h : Handle) :
    (s.settleReturn h).trunks = s.trunks := by
  unfold State.settleReturn
  repeat' split
  all_goals simp
@[simp] theorem settleReturn_cmu (s : State) (h : Handle) :
    (s.settleReturn h).cmu = s.cmu := by
  unfold State.settleReturn
  repeat' split
  all_goals simp
@[simp] theorem settleReturn_evr (s : State) (h : Handle) :
    (s.settleReturn h).evr = s.evr := by
  unfold State.settleReturn
  repeat' split
  all_goals simp

@[simp] theorem uncountedReturn_pending (s : State) (h : Handle) :
    (s.uncountedReturn h).pending = s.pending := by
  unfold State.uncountedReturn
  repeat' split
  all_goals simp
@[simp] theorem uncountedReturn_resetLow (s : State) (h : Handle) :
    (s.uncountedReturn h).resetLow = s.resetLow := by
  unfold State.uncountedReturn
  repeat' split
  all_goals simp
@[simp] theorem uncountedReturn_clock (s : State) (h : Handle) :
    (s.uncountedReturn h).clock = s.clock := by
  unfold State.uncountedReturn
  repeat' split
  all_goals simp
@[simp] theorem uncountedReturn_hwi (s : State) (h : Handle) :
    (s.uncountedReturn h).hwi = s.hwi := by
  unfold State.uncountedReturn
  repeat' split
  all_goals simp
@[simp] theorem uncountedReturn_ccp (s : State) (h : Handle) :
    (s.uncountedReturn h).ccp = s.ccp := by
  unfold State.uncountedReturn
  repeat' split
  all_goals simp
@[simp] theorem uncountedReturn_tables (s : State) (h : Handle) :
    (s.uncountedReturn h).tables = s.tables := by
  unfold State.uncountedReturn
  repeat' split
  all_goals simp
@[simp] theorem uncountedReturn_trunks (s : State) (h : Handle) :
    (s.uncountedReturn h).trunks = s.trunks := by
  unfold State.uncountedReturn
  repeat' split
  all_goals simp
@[simp] theorem uncountedReturn_cmu (s : State) (h : Handle) :
    (s.uncountedReturn h).cmu = s.cmu := by
  unfold State.uncountedReturn
  repeat' split
  all_goals simp
@[simp] theorem uncountedReturn_evr (s : State) (h : Handle) :
    (s.uncountedReturn h).evr = s.evr := by
  unfold State.uncountedReturn
  repeat' split
  all_goals simp

@[simp] theorem raiseAll_pending (s : State) (ds : List Detail) :
    (ds.foldl State.raise s).pending = s.pending := foldl_keeps State.pending State.raise (by simp) ds s
@[simp] theorem raiseAll_resetLow (s : State) (ds : List Detail) :
    (ds.foldl State.raise s).resetLow = s.resetLow := foldl_keeps State.resetLow State.raise (by simp) ds s
@[simp] theorem raiseAll_clock (s : State) (ds : List Detail) :
    (ds.foldl State.raise s).clock = s.clock := foldl_keeps State.clock State.raise (by simp) ds s
@[simp] theorem raiseAll_hwi (s : State) (ds : List Detail) :
    (ds.foldl State.raise s).hwi = s.hwi := foldl_keeps State.hwi State.raise (by simp) ds s
@[simp] theorem raiseAll_ccp (s : State) (ds : List Detail) :
    (ds.foldl State.raise s).ccp = s.ccp := foldl_keeps State.ccp State.raise (by simp) ds s
@[simp] theorem raiseAll_tables (s : State) (ds : List Detail) :
    (ds.foldl State.raise s).tables = s.tables := foldl_keeps State.tables State.raise (by simp) ds s
@[simp] theorem raiseAll_queue (s : State) (ds : List Detail) :
    (ds.foldl State.raise s).queue = s.queue := foldl_keeps State.queue State.raise (by simp) ds s
@[simp] theorem raiseAll_dsc (s : State) (ds : List Detail) :
    (ds.foldl State.raise s).dsc = s.dsc := foldl_keeps State.dsc State.raise (by simp) ds s
@[simp] theorem raiseAll_trunks (s : State) (ds : List Detail) :
    (ds.foldl State.raise s).trunks = s.trunks := foldl_keeps State.trunks State.raise (by simp) ds s
@[simp] theorem raiseAll_engines (s : State) (ds : List Detail) :
    (ds.foldl State.raise s).engines = s.engines := foldl_keeps State.engines State.raise (by simp) ds s
@[simp] theorem raiseAll_cmu (s : State) (ds : List Detail) :
    (ds.foldl State.raise s).cmu = s.cmu := foldl_keeps State.cmu State.raise (by simp) ds s

@[simp] theorem farEndFailure_pending (s : State) (h : Handle) (route : RouteId) :
    (s.farEndFailure h route).pending = s.pending := by
  unfold State.farEndFailure
  repeat' split
  all_goals simp
@[simp] theorem farEndFailure_resetLow (s : State) (h : Handle) (route : RouteId) :
    (s.farEndFailure h route).resetLow = s.resetLow := by
  unfold State.farEndFailure
  repeat' split
  all_goals simp
@[simp] theorem farEndFailure_clock (s : State) (h : Handle) (route : RouteId) :
    (s.farEndFailure h route).clock = s.clock := by
  unfold State.farEndFailure
  repeat' split
  all_goals simp
@[simp] theorem farEndFailure_hwi (s : State) (h : Handle) (route : RouteId) :
    (s.farEndFailure h route).hwi = s.hwi := by
  unfold State.farEndFailure
  repeat' split
  all_goals simp
@[simp] theorem farEndFailure_ccp (s : State) (h : Handle) (route : RouteId) :
    (s.farEndFailure h route).ccp = s.ccp := by
  unfold State.farEndFailure
  repeat' split
  all_goals simp
@[simp] theorem farEndFailure_tables (s : State) (h : Handle) (route : RouteId) :
    (s.farEndFailure h route).tables = s.tables := by
  unfold State.farEndFailure
  repeat' split
  all_goals simp
@[simp] theorem farEndFailure_trunks (s : State) (h : Handle) (route : RouteId) :
    (s.farEndFailure h route).trunks = s.trunks := by
  unfold State.farEndFailure
  repeat' split
  all_goals simp
@[simp] theorem farEndFailure_cmu (s : State) (h : Handle) (route : RouteId) :
    (s.farEndFailure h route).cmu = s.cmu := by
  unfold State.farEndFailure
  repeat' split
  all_goals simp

@[simp] theorem deliverRecord_pending (s : State) (h : Handle) (route : RouteId) :
    (s.deliverRecord h route).pending = s.pending := by
  unfold State.deliverRecord
  repeat' split
  all_goals simp
@[simp] theorem deliverRecord_resetLow (s : State) (h : Handle) (route : RouteId) :
    (s.deliverRecord h route).resetLow = s.resetLow := by
  unfold State.deliverRecord
  repeat' split
  all_goals simp
@[simp] theorem deliverRecord_clock (s : State) (h : Handle) (route : RouteId) :
    (s.deliverRecord h route).clock = s.clock := by
  unfold State.deliverRecord
  repeat' split
  all_goals simp
@[simp] theorem deliverRecord_hwi (s : State) (h : Handle) (route : RouteId) :
    (s.deliverRecord h route).hwi = s.hwi := by
  unfold State.deliverRecord
  repeat' split
  all_goals simp
@[simp] theorem deliverRecord_ccp (s : State) (h : Handle) (route : RouteId) :
    (s.deliverRecord h route).ccp = s.ccp := by
  unfold State.deliverRecord
  repeat' split
  all_goals simp
@[simp] theorem deliverRecord_tables (s : State) (h : Handle) (route : RouteId) :
    (s.deliverRecord h route).tables = s.tables := by
  unfold State.deliverRecord
  repeat' split
  all_goals simp
@[simp] theorem deliverRecord_dsc (s : State) (h : Handle) (route : RouteId) :
    (s.deliverRecord h route).dsc = s.dsc := by
  unfold State.deliverRecord
  repeat' split
  all_goals simp
@[simp] theorem deliverRecord_trunks (s : State) (h : Handle) (route : RouteId) :
    (s.deliverRecord h route).trunks = s.trunks := by
  unfold State.deliverRecord
  repeat' split
  all_goals simp
@[simp] theorem deliverRecord_engines (s : State) (h : Handle) (route : RouteId) :
    (s.deliverRecord h route).engines = s.engines := by
  unfold State.deliverRecord
  repeat' split
  all_goals simp
@[simp] theorem deliverRecord_cmu (s : State) (h : Handle) (route : RouteId) :
    (s.deliverRecord h route).cmu = s.cmu := by
  unfold State.deliverRecord
  repeat' split
  all_goals simp

@[simp] theorem reportAll_pending (s : State) (hs : List Handle) :
    (hs.foldl State.reportWaiting s).pending = s.pending := foldl_keeps State.pending State.reportWaiting (by simp) hs s
@[simp] theorem reportAll_resetLow (s : State) (hs : List Handle) :
    (hs.foldl State.reportWaiting s).resetLow = s.resetLow := foldl_keeps State.resetLow State.reportWaiting (by simp) hs s
@[simp] theorem reportAll_clock (s : State) (hs : List Handle) :
    (hs.foldl State.reportWaiting s).clock = s.clock := foldl_keeps State.clock State.reportWaiting (by simp) hs s
@[simp] theorem reportAll_hwi (s : State) (hs : List Handle) :
    (hs.foldl State.reportWaiting s).hwi = s.hwi := foldl_keeps State.hwi State.reportWaiting (by simp) hs s
@[simp] theorem reportAll_ccp (s : State) (hs : List Handle) :
    (hs.foldl State.reportWaiting s).ccp = s.ccp := foldl_keeps State.ccp State.reportWaiting (by simp) hs s
@[simp] theorem reportAll_tables (s : State) (hs : List Handle) :
    (hs.foldl State.reportWaiting s).tables = s.tables := foldl_keeps State.tables State.reportWaiting (by simp) hs s
@[simp] theorem reportAll_trunks (s : State) (hs : List Handle) :
    (hs.foldl State.reportWaiting s).trunks = s.trunks := foldl_keeps State.trunks State.reportWaiting (by simp) hs s
@[simp] theorem reportAll_cmu (s : State) (hs : List Handle) :
    (hs.foldl State.reportWaiting s).cmu = s.cmu := foldl_keeps State.cmu State.reportWaiting (by simp) hs s
@[simp] theorem reportAll_evr (s : State) (hs : List Handle) :
    (hs.foldl State.reportWaiting s).evr = s.evr := foldl_keeps State.evr State.reportWaiting (by simp) hs s

@[simp] theorem releaseStranded_pending (s : State)  :
    (s.releaseStranded).pending = s.pending := by simp [State.releaseStranded]
@[simp] theorem releaseStranded_resetLow (s : State)  :
    (s.releaseStranded).resetLow = s.resetLow := by simp [State.releaseStranded]
@[simp] theorem releaseStranded_clock (s : State)  :
    (s.releaseStranded).clock = s.clock := by simp [State.releaseStranded]
@[simp] theorem releaseStranded_hwi (s : State)  :
    (s.releaseStranded).hwi = s.hwi := by simp [State.releaseStranded]
@[simp] theorem releaseStranded_ccp (s : State)  :
    (s.releaseStranded).ccp = s.ccp := by simp [State.releaseStranded]
@[simp] theorem releaseStranded_tables (s : State)  :
    (s.releaseStranded).tables = s.tables := by simp [State.releaseStranded]
@[simp] theorem releaseStranded_trunks (s : State)  :
    (s.releaseStranded).trunks = s.trunks := by simp [State.releaseStranded]
@[simp] theorem releaseStranded_cmu (s : State)  :
    (s.releaseStranded).cmu = s.cmu := by simp [State.releaseStranded]
@[simp] theorem releaseStranded_evr (s : State)  :
    (s.releaseStranded).evr = s.evr := by simp [State.releaseStranded]

@[simp] theorem releaseHeld_pending (s : State)  :
    (s.releaseHeld).pending = s.pending := by simp [State.releaseHeld]
@[simp] theorem releaseHeld_resetLow (s : State)  :
    (s.releaseHeld).resetLow = s.resetLow := by simp [State.releaseHeld]
@[simp] theorem releaseHeld_clock (s : State)  :
    (s.releaseHeld).clock = s.clock := by simp [State.releaseHeld]
@[simp] theorem releaseHeld_hwi (s : State)  :
    (s.releaseHeld).hwi = s.hwi := by simp [State.releaseHeld]
@[simp] theorem releaseHeld_ccp (s : State)  :
    (s.releaseHeld).ccp = s.ccp := by simp [State.releaseHeld]
@[simp] theorem releaseHeld_tables (s : State)  :
    (s.releaseHeld).tables = s.tables := by simp [State.releaseHeld]
@[simp] theorem releaseHeld_trunks (s : State)  :
    (s.releaseHeld).trunks = s.trunks := by simp [State.releaseHeld]
@[simp] theorem releaseHeld_cmu (s : State)  :
    (s.releaseHeld).cmu = s.cmu := by simp [State.releaseHeld]
@[simp] theorem releaseHeld_evr (s : State)  :
    (s.releaseHeld).evr = s.evr := by simp [State.releaseHeld]

/-! ### Trunks -/
@[simp] theorem reportGrantable_pending (s : State) (a : State) (t : TrunkId) :
    (a.reportGrantable s t).pending = s.pending := by
  unfold State.reportGrantable
  split <;> simp
@[simp] theorem reportGrantable_resetLow (s : State) (a : State) (t : TrunkId) :
    (a.reportGrantable s t).resetLow = s.resetLow := by
  unfold State.reportGrantable
  split <;> simp
@[simp] theorem reportGrantable_clock (s : State) (a : State) (t : TrunkId) :
    (a.reportGrantable s t).clock = s.clock := by
  unfold State.reportGrantable
  split <;> simp
@[simp] theorem reportGrantable_hwi (s : State) (a : State) (t : TrunkId) :
    (a.reportGrantable s t).hwi = s.hwi := by
  unfold State.reportGrantable
  split <;> simp
@[simp] theorem reportGrantable_ccp (s : State) (a : State) (t : TrunkId) :
    (a.reportGrantable s t).ccp = s.ccp := by
  unfold State.reportGrantable
  split <;> simp
@[simp] theorem reportGrantable_tables (s : State) (a : State) (t : TrunkId) :
    (a.reportGrantable s t).tables = s.tables := by
  unfold State.reportGrantable
  split <;> simp
@[simp] theorem reportGrantable_queue (s : State) (a : State) (t : TrunkId) :
    (a.reportGrantable s t).queue = s.queue := by
  unfold State.reportGrantable
  split <;> simp
@[simp] theorem reportGrantable_trunks (s : State) (a : State) (t : TrunkId) :
    (a.reportGrantable s t).trunks = s.trunks := by
  unfold State.reportGrantable
  split <;> simp
@[simp] theorem reportGrantable_engines (s : State) (a : State) (t : TrunkId) :
    (a.reportGrantable s t).engines = s.engines := by
  unfold State.reportGrantable
  split <;> simp
@[simp] theorem reportGrantable_cmu (s : State) (a : State) (t : TrunkId) :
    (a.reportGrantable s t).cmu = s.cmu := by
  unfold State.reportGrantable
  split <;> simp
@[simp] theorem reportGrantable_evr (s : State) (a : State) (t : TrunkId) :
    (a.reportGrantable s t).evr = s.evr := by
  unfold State.reportGrantable
  split <;> simp

@[simp] theorem reevaluate_pending (s : State) (t : TrunkId) :
    (s.reevaluate t).pending = s.pending := by
  unfold State.reevaluate
  repeat' split
  all_goals simp
@[simp] theorem reevaluate_resetLow (s : State) (t : TrunkId) :
    (s.reevaluate t).resetLow = s.resetLow := by
  unfold State.reevaluate
  repeat' split
  all_goals simp
@[simp] theorem reevaluate_clock (s : State) (t : TrunkId) :
    (s.reevaluate t).clock = s.clock := by
  unfold State.reevaluate
  repeat' split
  all_goals simp
@[simp] theorem reevaluate_hwi (s : State) (t : TrunkId) :
    (s.reevaluate t).hwi = s.hwi := by
  unfold State.reevaluate
  repeat' split
  all_goals simp
@[simp] theorem reevaluate_ccp (s : State) (t : TrunkId) :
    (s.reevaluate t).ccp = s.ccp := by
  unfold State.reevaluate
  repeat' split
  all_goals simp
@[simp] theorem reevaluate_tables (s : State) (t : TrunkId) :
    (s.reevaluate t).tables = s.tables := by
  unfold State.reevaluate
  repeat' split
  all_goals simp
@[simp] theorem reevaluate_queue (s : State) (t : TrunkId) :
    (s.reevaluate t).queue = s.queue := by
  unfold State.reevaluate
  repeat' split
  all_goals simp
@[simp] theorem reevaluate_dsc (s : State) (t : TrunkId) :
    (s.reevaluate t).dsc = s.dsc := by
  unfold State.reevaluate
  repeat' split
  all_goals simp
@[simp] theorem reevaluate_engines (s : State) (t : TrunkId) :
    (s.reevaluate t).engines = s.engines := by
  unfold State.reevaluate
  repeat' split
  all_goals simp
@[simp] theorem reevaluate_cmu (s : State) (t : TrunkId) :
    (s.reevaluate t).cmu = s.cmu := by
  unfold State.reevaluate
  repeat' split
  all_goals simp
@[simp] theorem reevaluate_evr (s : State) (t : TrunkId) :
    (s.reevaluate t).evr = s.evr := by
  unfold State.reevaluate
  repeat' split
  all_goals simp

@[simp] theorem clearLineFailures_pending (s : State) (t : TrunkId) :
    (s.clearLineFailures t).pending = s.pending := by simp [State.clearLineFailures]
@[simp] theorem clearLineFailures_resetLow (s : State) (t : TrunkId) :
    (s.clearLineFailures t).resetLow = s.resetLow := by simp [State.clearLineFailures]
@[simp] theorem clearLineFailures_clock (s : State) (t : TrunkId) :
    (s.clearLineFailures t).clock = s.clock := by simp [State.clearLineFailures]
@[simp] theorem clearLineFailures_hwi (s : State) (t : TrunkId) :
    (s.clearLineFailures t).hwi = s.hwi := by simp [State.clearLineFailures]
@[simp] theorem clearLineFailures_ccp (s : State) (t : TrunkId) :
    (s.clearLineFailures t).ccp = s.ccp := by simp [State.clearLineFailures]
@[simp] theorem clearLineFailures_tables (s : State) (t : TrunkId) :
    (s.clearLineFailures t).tables = s.tables := by simp [State.clearLineFailures]
@[simp] theorem clearLineFailures_queue (s : State) (t : TrunkId) :
    (s.clearLineFailures t).queue = s.queue := by simp [State.clearLineFailures]
@[simp] theorem clearLineFailures_dsc (s : State) (t : TrunkId) :
    (s.clearLineFailures t).dsc = s.dsc := by simp [State.clearLineFailures]
@[simp] theorem clearLineFailures_engines (s : State) (t : TrunkId) :
    (s.clearLineFailures t).engines = s.engines := by simp [State.clearLineFailures]
@[simp] theorem clearLineFailures_cmu (s : State) (t : TrunkId) :
    (s.clearLineFailures t).cmu = s.cmu := by simp [State.clearLineFailures]
@[simp] theorem clearLineFailures_evr (s : State) (t : TrunkId) :
    (s.clearLineFailures t).evr = s.evr := by simp [State.clearLineFailures]

@[simp] theorem countLineFailure_pending (s : State) (t : TrunkId) :
    (s.countLineFailure t).pending = s.pending := by
  unfold State.countLineFailure
  dsimp only
  split <;> simp
@[simp] theorem countLineFailure_resetLow (s : State) (t : TrunkId) :
    (s.countLineFailure t).resetLow = s.resetLow := by
  unfold State.countLineFailure
  dsimp only
  split <;> simp
@[simp] theorem countLineFailure_clock (s : State) (t : TrunkId) :
    (s.countLineFailure t).clock = s.clock := by
  unfold State.countLineFailure
  dsimp only
  split <;> simp
@[simp] theorem countLineFailure_hwi (s : State) (t : TrunkId) :
    (s.countLineFailure t).hwi = s.hwi := by
  unfold State.countLineFailure
  dsimp only
  split <;> simp
@[simp] theorem countLineFailure_ccp (s : State) (t : TrunkId) :
    (s.countLineFailure t).ccp = s.ccp := by
  unfold State.countLineFailure
  dsimp only
  split <;> simp
@[simp] theorem countLineFailure_tables (s : State) (t : TrunkId) :
    (s.countLineFailure t).tables = s.tables := by
  unfold State.countLineFailure
  dsimp only
  split <;> simp
@[simp] theorem countLineFailure_cmu (s : State) (t : TrunkId) :
    (s.countLineFailure t).cmu = s.cmu := by
  unfold State.countLineFailure
  dsimp only
  split <;> simp

@[simp] theorem cardFaultRise_pending (s : State) (t : TrunkId) :
    (s.cardFaultRise t).pending = s.pending := by
  unfold State.cardFaultRise
  split <;> simp
@[simp] theorem cardFaultRise_resetLow (s : State) (t : TrunkId) :
    (s.cardFaultRise t).resetLow = s.resetLow := by
  unfold State.cardFaultRise
  split <;> simp
@[simp] theorem cardFaultRise_clock (s : State) (t : TrunkId) :
    (s.cardFaultRise t).clock = s.clock := by
  unfold State.cardFaultRise
  split <;> simp
@[simp] theorem cardFaultRise_hwi (s : State) (t : TrunkId) :
    (s.cardFaultRise t).hwi = s.hwi := by
  unfold State.cardFaultRise
  split <;> simp
@[simp] theorem cardFaultRise_ccp (s : State) (t : TrunkId) :
    (s.cardFaultRise t).ccp = s.ccp := by
  unfold State.cardFaultRise
  split <;> simp
@[simp] theorem cardFaultRise_tables (s : State) (t : TrunkId) :
    (s.cardFaultRise t).tables = s.tables := by
  unfold State.cardFaultRise
  split <;> simp
@[simp] theorem cardFaultRise_queue (s : State) (t : TrunkId) :
    (s.cardFaultRise t).queue = s.queue := by
  unfold State.cardFaultRise
  split <;> simp
@[simp] theorem cardFaultRise_dsc (s : State) (t : TrunkId) :
    (s.cardFaultRise t).dsc = s.dsc := by
  unfold State.cardFaultRise
  split <;> simp
@[simp] theorem cardFaultRise_engines (s : State) (t : TrunkId) :
    (s.cardFaultRise t).engines = s.engines := by
  unfold State.cardFaultRise
  split <;> simp
@[simp] theorem cardFaultRise_cmu (s : State) (t : TrunkId) :
    (s.cardFaultRise t).cmu = s.cmu := by
  unfold State.cardFaultRise
  split <;> simp

@[simp] theorem testCodeReported_pending (s : State) (t : TrunkId) (code : TestCode) :
    (s.testCodeReported t code).pending = s.pending := by
  unfold State.testCodeReported
  dsimp only
  repeat' split
  all_goals simp
@[simp] theorem testCodeReported_resetLow (s : State) (t : TrunkId) (code : TestCode) :
    (s.testCodeReported t code).resetLow = s.resetLow := by
  unfold State.testCodeReported
  dsimp only
  repeat' split
  all_goals simp
@[simp] theorem testCodeReported_clock (s : State) (t : TrunkId) (code : TestCode) :
    (s.testCodeReported t code).clock = s.clock := by
  unfold State.testCodeReported
  dsimp only
  repeat' split
  all_goals simp
@[simp] theorem testCodeReported_hwi (s : State) (t : TrunkId) (code : TestCode) :
    (s.testCodeReported t code).hwi = s.hwi := by
  unfold State.testCodeReported
  dsimp only
  repeat' split
  all_goals simp
@[simp] theorem testCodeReported_ccp (s : State) (t : TrunkId) (code : TestCode) :
    (s.testCodeReported t code).ccp = s.ccp := by
  unfold State.testCodeReported
  dsimp only
  repeat' split
  all_goals simp
@[simp] theorem testCodeReported_tables (s : State) (t : TrunkId) (code : TestCode) :
    (s.testCodeReported t code).tables = s.tables := by
  unfold State.testCodeReported
  dsimp only
  repeat' split
  all_goals simp
@[simp] theorem testCodeReported_cmu (s : State) (t : TrunkId) (code : TestCode) :
    (s.testCodeReported t code).cmu = s.cmu := by
  unfold State.testCodeReported
  dsimp only
  repeat' split
  all_goals simp

@[simp] theorem grantTrunk_pending (s : State) (t : TrunkId) (e : EngineId) (m : PreemptMode) (n : Nat) (c : ClassId) :
    (s.grantTrunk t e m n c).pending = s.pending := by
  unfold State.grantTrunk
  dsimp only
  split <;> split <;> simp
@[simp] theorem grantTrunk_resetLow (s : State) (t : TrunkId) (e : EngineId) (m : PreemptMode) (n : Nat) (c : ClassId) :
    (s.grantTrunk t e m n c).resetLow = s.resetLow := by
  unfold State.grantTrunk
  dsimp only
  split <;> split <;> simp
@[simp] theorem grantTrunk_clock (s : State) (t : TrunkId) (e : EngineId) (m : PreemptMode) (n : Nat) (c : ClassId) :
    (s.grantTrunk t e m n c).clock = s.clock := by
  unfold State.grantTrunk
  dsimp only
  split <;> split <;> simp
@[simp] theorem grantTrunk_unwarned (s : State) (t : TrunkId) (e : EngineId) (m : PreemptMode) (n : Nat) (c : ClassId) :
    (s.grantTrunk t e m n c).hwi.unwarned = s.hwi.unwarned := by
  unfold State.grantTrunk
  dsimp only
  split <;> split <;> simp
@[simp] theorem grantTrunk_ccp (s : State) (t : TrunkId) (e : EngineId) (m : PreemptMode) (n : Nat) (c : ClassId) :
    (s.grantTrunk t e m n c).ccp = s.ccp := by
  unfold State.grantTrunk
  dsimp only
  split <;> split <;> simp
@[simp] theorem grantTrunk_tables (s : State) (t : TrunkId) (e : EngineId) (m : PreemptMode) (n : Nat) (c : ClassId) :
    (s.grantTrunk t e m n c).tables = s.tables := by
  unfold State.grantTrunk
  dsimp only
  split <;> split <;> simp
@[simp] theorem grantTrunk_queue (s : State) (t : TrunkId) (e : EngineId) (m : PreemptMode) (n : Nat) (c : ClassId) :
    (s.grantTrunk t e m n c).queue = s.queue := by
  unfold State.grantTrunk
  dsimp only
  split <;> split <;> simp
@[simp] theorem grantTrunk_dsc (s : State) (t : TrunkId) (e : EngineId) (m : PreemptMode) (n : Nat) (c : ClassId) :
    (s.grantTrunk t e m n c).dsc = s.dsc := by
  unfold State.grantTrunk
  dsimp only
  split <;> split <;> simp
@[simp] theorem grantTrunk_engines (s : State) (t : TrunkId) (e : EngineId) (m : PreemptMode) (n : Nat) (c : ClassId) :
    (s.grantTrunk t e m n c).engines = s.engines := by
  unfold State.grantTrunk
  dsimp only
  split <;> split <;> simp
@[simp] theorem grantTrunk_cmu (s : State) (t : TrunkId) (e : EngineId) (m : PreemptMode) (n : Nat) (c : ClassId) :
    (s.grantTrunk t e m n c).cmu = s.cmu := by
  unfold State.grantTrunk
  dsimp only
  split <;> split <;> simp

@[simp] theorem trunkEntryApplied_pending (s : State) (b : State) (t : TrunkId) (role : TrunkRole) :
    (s.trunkEntryApplied b t role).pending = s.pending := by
  unfold State.trunkEntryApplied
  dsimp only
  split <;> simp
@[simp] theorem trunkEntryApplied_resetLow (s : State) (b : State) (t : TrunkId) (role : TrunkRole) :
    (s.trunkEntryApplied b t role).resetLow = s.resetLow := by
  unfold State.trunkEntryApplied
  dsimp only
  split <;> simp
@[simp] theorem trunkEntryApplied_clock (s : State) (b : State) (t : TrunkId) (role : TrunkRole) :
    (s.trunkEntryApplied b t role).clock = s.clock := by
  unfold State.trunkEntryApplied
  dsimp only
  split <;> simp
@[simp] theorem trunkEntryApplied_hwi (s : State) (b : State) (t : TrunkId) (role : TrunkRole) :
    (s.trunkEntryApplied b t role).hwi = s.hwi := by
  unfold State.trunkEntryApplied
  dsimp only
  split <;> simp
@[simp] theorem trunkEntryApplied_ccp (s : State) (b : State) (t : TrunkId) (role : TrunkRole) :
    (s.trunkEntryApplied b t role).ccp = s.ccp := by
  unfold State.trunkEntryApplied
  dsimp only
  split <;> simp
@[simp] theorem trunkEntryApplied_tables (s : State) (b : State) (t : TrunkId) (role : TrunkRole) :
    (s.trunkEntryApplied b t role).tables = s.tables := by
  unfold State.trunkEntryApplied
  dsimp only
  split <;> simp
@[simp] theorem trunkEntryApplied_queue (s : State) (b : State) (t : TrunkId) (role : TrunkRole) :
    (s.trunkEntryApplied b t role).queue = s.queue := by
  unfold State.trunkEntryApplied
  dsimp only
  split <;> simp
@[simp] theorem trunkEntryApplied_engines (s : State) (b : State) (t : TrunkId) (role : TrunkRole) :
    (s.trunkEntryApplied b t role).engines = s.engines := by
  unfold State.trunkEntryApplied
  dsimp only
  split <;> simp
@[simp] theorem trunkEntryApplied_cmu (s : State) (b : State) (t : TrunkId) (role : TrunkRole) :
    (s.trunkEntryApplied b t role).cmu = s.cmu := by
  unfold State.trunkEntryApplied
  dsimp only
  split <;> simp

/-! ### Tables -/
@[simp] theorem siteToMonitor_pending (s : State) (x : SiteRecord) :
    (s.siteToMonitor x).pending = s.pending := by
  unfold State.siteToMonitor
  split <;> rfl
@[simp] theorem siteToMonitor_resetLow (s : State) (x : SiteRecord) :
    (s.siteToMonitor x).resetLow = s.resetLow := by
  unfold State.siteToMonitor
  split <;> rfl
@[simp] theorem siteToMonitor_clock (s : State) (x : SiteRecord) :
    (s.siteToMonitor x).clock = s.clock := by
  unfold State.siteToMonitor
  split <;> rfl
@[simp] theorem siteToMonitor_hwi (s : State) (x : SiteRecord) :
    (s.siteToMonitor x).hwi = s.hwi := by
  unfold State.siteToMonitor
  split <;> rfl
@[simp] theorem siteToMonitor_ccp (s : State) (x : SiteRecord) :
    (s.siteToMonitor x).ccp = s.ccp := by
  unfold State.siteToMonitor
  split <;> rfl
@[simp] theorem siteToMonitor_tables (s : State) (x : SiteRecord) :
    (s.siteToMonitor x).tables = s.tables := by
  unfold State.siteToMonitor
  split <;> rfl
@[simp] theorem siteToMonitor_queue (s : State) (x : SiteRecord) :
    (s.siteToMonitor x).queue = s.queue := by
  unfold State.siteToMonitor
  split <;> rfl
@[simp] theorem siteToMonitor_dsc (s : State) (x : SiteRecord) :
    (s.siteToMonitor x).dsc = s.dsc := by
  unfold State.siteToMonitor
  split <;> rfl
@[simp] theorem siteToMonitor_trunks (s : State) (x : SiteRecord) :
    (s.siteToMonitor x).trunks = s.trunks := by
  unfold State.siteToMonitor
  split <;> rfl
@[simp] theorem siteToMonitor_engines (s : State) (x : SiteRecord) :
    (s.siteToMonitor x).engines = s.engines := by
  unfold State.siteToMonitor
  split <;> rfl
@[simp] theorem siteToMonitor_evr (s : State) (x : SiteRecord) :
    (s.siteToMonitor x).evr = s.evr := by
  unfold State.siteToMonitor
  split <;> rfl

@[simp] theorem readinessCause_pending (s : State) (b : State) :
    (s.readinessCause b).pending = s.pending := by
  unfold State.readinessCause
  split <;> simp
@[simp] theorem readinessCause_resetLow (s : State) (b : State) :
    (s.readinessCause b).resetLow = s.resetLow := by
  unfold State.readinessCause
  split <;> simp
@[simp] theorem readinessCause_clock (s : State) (b : State) :
    (s.readinessCause b).clock = s.clock := by
  unfold State.readinessCause
  split <;> simp
@[simp] theorem readinessCause_hwi (s : State) (b : State) :
    (s.readinessCause b).hwi = s.hwi := by
  unfold State.readinessCause
  split <;> simp
@[simp] theorem readinessCause_ccp (s : State) (b : State) :
    (s.readinessCause b).ccp = s.ccp := by
  unfold State.readinessCause
  split <;> simp
@[simp] theorem readinessCause_tables (s : State) (b : State) :
    (s.readinessCause b).tables = s.tables := by
  unfold State.readinessCause
  split <;> simp
@[simp] theorem readinessCause_queue (s : State) (b : State) :
    (s.readinessCause b).queue = s.queue := by
  unfold State.readinessCause
  split <;> simp
@[simp] theorem readinessCause_trunks (s : State) (b : State) :
    (s.readinessCause b).trunks = s.trunks := by
  unfold State.readinessCause
  split <;> simp
@[simp] theorem readinessCause_engines (s : State) (b : State) :
    (s.readinessCause b).engines = s.engines := by
  unfold State.readinessCause
  split <;> simp
@[simp] theorem readinessCause_cmu (s : State) (b : State) :
    (s.readinessCause b).cmu = s.cmu := by
  unfold State.readinessCause
  split <;> simp
@[simp] theorem readinessCause_evr (s : State) (b : State) :
    (s.readinessCause b).evr = s.evr := by
  unfold State.readinessCause
  split <;> simp

@[simp] theorem tellOwner_pending (s : State) (b : State) (w : Write) :
    (s.tellOwner b w).pending = s.pending := by
  cases w <;> simp [State.tellOwner]
@[simp] theorem tellOwner_resetLow (s : State) (b : State) (w : Write) :
    (s.tellOwner b w).resetLow = s.resetLow := by
  cases w <;> simp [State.tellOwner]
@[simp] theorem tellOwner_clock (s : State) (b : State) (w : Write) :
    (s.tellOwner b w).clock = s.clock := by
  cases w <;> simp [State.tellOwner]
@[simp] theorem tellOwner_hwi (s : State) (b : State) (w : Write) :
    (s.tellOwner b w).hwi = s.hwi := by
  cases w <;> simp [State.tellOwner]
@[simp] theorem tellOwner_ccp (s : State) (b : State) (w : Write) :
    (s.tellOwner b w).ccp = s.ccp := by
  cases w <;> simp [State.tellOwner]
@[simp] theorem tellOwner_tables (s : State) (b : State) (w : Write) :
    (s.tellOwner b w).tables = s.tables := by
  cases w <;> simp [State.tellOwner]
@[simp] theorem tellOwner_engines (s : State) (b : State) (w : Write) :
    (s.tellOwner b w).engines = s.engines := by
  cases w <;> simp [State.tellOwner]

@[simp] theorem tellReaders_pending (s : State) (b : State) (w : Write) :
    (s.tellReaders b w).pending = s.pending := by simp [State.tellReaders]
@[simp] theorem tellReaders_resetLow (s : State) (b : State) (w : Write) :
    (s.tellReaders b w).resetLow = s.resetLow := by simp [State.tellReaders]
@[simp] theorem tellReaders_clock (s : State) (b : State) (w : Write) :
    (s.tellReaders b w).clock = s.clock := by simp [State.tellReaders]
@[simp] theorem tellReaders_hwi (s : State) (b : State) (w : Write) :
    (s.tellReaders b w).hwi = s.hwi := by simp [State.tellReaders]
@[simp] theorem tellReaders_ccp (s : State) (b : State) (w : Write) :
    (s.tellReaders b w).ccp = s.ccp := by simp [State.tellReaders]
@[simp] theorem tellReaders_tables (s : State) (b : State) (w : Write) :
    (s.tellReaders b w).tables = s.tables := by simp [State.tellReaders]
@[simp] theorem tellReaders_engines (s : State) (b : State) (w : Write) :
    (s.tellReaders b w).engines = s.engines := by simp [State.tellReaders]

@[simp] theorem applyWrite_pending (s : State) (w : Write) :
    (s.applyWrite w).pending = s.pending := by simp [State.applyWrite]
@[simp] theorem applyWrite_resetLow (s : State) (w : Write) :
    (s.applyWrite w).resetLow = s.resetLow := by simp [State.applyWrite]
@[simp] theorem applyWrite_clock (s : State) (w : Write) :
    (s.applyWrite w).clock = s.clock := by simp [State.applyWrite]
@[simp] theorem applyWrite_hwi (s : State) (w : Write) :
    (s.applyWrite w).hwi = s.hwi := by simp [State.applyWrite]
@[simp] theorem applyWrite_ccp (s : State) (w : Write) :
    (s.applyWrite w).ccp = s.ccp := by simp [State.applyWrite]
@[simp] theorem applyWrite_engines (s : State) (w : Write) :
    (s.applyWrite w).engines = s.engines := by simp [State.applyWrite]

@[simp] theorem applyStaged_pending (s : State) (w : Write) :
    (s.applyStaged w).pending = s.pending := by simp [State.applyStaged]
@[simp] theorem applyStaged_resetLow (s : State) (w : Write) :
    (s.applyStaged w).resetLow = s.resetLow := by simp [State.applyStaged]
@[simp] theorem applyStaged_clock (s : State) (w : Write) :
    (s.applyStaged w).clock = s.clock := by simp [State.applyStaged]
@[simp] theorem applyStaged_hwi (s : State) (w : Write) :
    (s.applyStaged w).hwi = s.hwi := by simp [State.applyStaged]
@[simp] theorem applyStaged_ccp (s : State) (w : Write) :
    (s.applyStaged w).ccp = s.ccp := by simp [State.applyStaged]
@[simp] theorem applyStaged_engines (s : State) (w : Write) :
    (s.applyStaged w).engines = s.engines := by simp [State.applyStaged]

@[simp] theorem endUse_pending (s : State) (ref : TableRef) :
    (s.endUse ref).pending = s.pending := by
  unfold State.endUse
  repeat' split
  all_goals simp
@[simp] theorem endUse_resetLow (s : State) (ref : TableRef) :
    (s.endUse ref).resetLow = s.resetLow := by
  unfold State.endUse
  repeat' split
  all_goals simp
@[simp] theorem endUse_clock (s : State) (ref : TableRef) :
    (s.endUse ref).clock = s.clock := by
  unfold State.endUse
  repeat' split
  all_goals simp
@[simp] theorem endUse_hwi (s : State) (ref : TableRef) :
    (s.endUse ref).hwi = s.hwi := by
  unfold State.endUse
  repeat' split
  all_goals simp
@[simp] theorem endUse_ccp (s : State) (ref : TableRef) :
    (s.endUse ref).ccp = s.ccp := by
  unfold State.endUse
  repeat' split
  all_goals simp
@[simp] theorem endUse_engines (s : State) (ref : TableRef) :
    (s.endUse ref).engines = s.engines := by
  unfold State.endUse
  repeat' split
  all_goals simp

@[simp] theorem endUses_pending (s : State) (refs : List TableRef) :
    (s.endUses refs).pending = s.pending := foldl_keeps State.pending State.endUse (by simp) refs s
@[simp] theorem endUses_resetLow (s : State) (refs : List TableRef) :
    (s.endUses refs).resetLow = s.resetLow := foldl_keeps State.resetLow State.endUse (by simp) refs s
@[simp] theorem endUses_clock (s : State) (refs : List TableRef) :
    (s.endUses refs).clock = s.clock := foldl_keeps State.clock State.endUse (by simp) refs s
@[simp] theorem endUses_hwi (s : State) (refs : List TableRef) :
    (s.endUses refs).hwi = s.hwi := foldl_keeps State.hwi State.endUse (by simp) refs s
@[simp] theorem endUses_ccp (s : State) (refs : List TableRef) :
    (s.endUses refs).ccp = s.ccp := foldl_keeps State.ccp State.endUse (by simp) refs s
@[simp] theorem endUses_engines (s : State) (refs : List TableRef) :
    (s.endUses refs).engines = s.engines := foldl_keeps State.engines State.endUse (by simp) refs s

@[simp] theorem releaseTrunk_pending (s : State) (t : TrunkId) (e : EngineId) :
    (s.releaseTrunk t e).pending = s.pending := by
  unfold State.releaseTrunk
  repeat' split
  all_goals simp
@[simp] theorem releaseTrunk_resetLow (s : State) (t : TrunkId) (e : EngineId) :
    (s.releaseTrunk t e).resetLow = s.resetLow := by
  unfold State.releaseTrunk
  repeat' split
  all_goals simp
@[simp] theorem releaseTrunk_clock (s : State) (t : TrunkId) (e : EngineId) :
    (s.releaseTrunk t e).clock = s.clock := by
  unfold State.releaseTrunk
  repeat' split
  all_goals simp
@[simp] theorem releaseTrunk_hwi (s : State) (t : TrunkId) (e : EngineId) :
    (s.releaseTrunk t e).hwi = s.hwi := by
  unfold State.releaseTrunk
  repeat' split
  all_goals simp
@[simp] theorem releaseTrunk_ccp (s : State) (t : TrunkId) (e : EngineId) :
    (s.releaseTrunk t e).ccp = s.ccp := by
  unfold State.releaseTrunk
  repeat' split
  all_goals simp
@[simp] theorem releaseTrunk_engines (s : State) (t : TrunkId) (e : EngineId) :
    (s.releaseTrunk t e).engines = s.engines := by
  unfold State.releaseTrunk
  repeat' split
  all_goals simp

@[simp] theorem leaveCooldown_pending (s : State) (t : TrunkId) :
    (s.leaveCooldown t).pending = s.pending := by simp [State.leaveCooldown]
@[simp] theorem leaveCooldown_resetLow (s : State) (t : TrunkId) :
    (s.leaveCooldown t).resetLow = s.resetLow := by simp [State.leaveCooldown]
@[simp] theorem leaveCooldown_clock (s : State) (t : TrunkId) :
    (s.leaveCooldown t).clock = s.clock := by simp [State.leaveCooldown]
@[simp] theorem leaveCooldown_hwi (s : State) (t : TrunkId) :
    (s.leaveCooldown t).hwi = s.hwi := by simp [State.leaveCooldown]
@[simp] theorem leaveCooldown_ccp (s : State) (t : TrunkId) :
    (s.leaveCooldown t).ccp = s.ccp := by simp [State.leaveCooldown]
@[simp] theorem leaveCooldown_engines (s : State) (t : TrunkId) :
    (s.leaveCooldown t).engines = s.engines := by simp [State.leaveCooldown]

/-! ### Calls and tests -/
@[simp] theorem nameTones_pending (s : State) (e : EngineId) (l : List (ToneRole × ToneId)) :
    (s.nameTones e l).pending = s.pending := by simp [State.nameTones]
@[simp] theorem nameTones_resetLow (s : State) (e : EngineId) (l : List (ToneRole × ToneId)) :
    (s.nameTones e l).resetLow = s.resetLow := by simp [State.nameTones]
@[simp] theorem nameTones_clock (s : State) (e : EngineId) (l : List (ToneRole × ToneId)) :
    (s.nameTones e l).clock = s.clock := by simp [State.nameTones]
@[simp] theorem nameTones_hwi (s : State) (e : EngineId) (l : List (ToneRole × ToneId)) :
    (s.nameTones e l).hwi = s.hwi := by simp [State.nameTones]
@[simp] theorem nameTones_ccp (s : State) (e : EngineId) (l : List (ToneRole × ToneId)) :
    (s.nameTones e l).ccp = s.ccp := by simp [State.nameTones]
@[simp] theorem nameTones_tables (s : State) (e : EngineId) (l : List (ToneRole × ToneId)) :
    (s.nameTones e l).tables = s.tables := by simp [State.nameTones]
@[simp] theorem nameTones_queue (s : State) (e : EngineId) (l : List (ToneRole × ToneId)) :
    (s.nameTones e l).queue = s.queue := by simp [State.nameTones]
@[simp] theorem nameTones_dsc (s : State) (e : EngineId) (l : List (ToneRole × ToneId)) :
    (s.nameTones e l).dsc = s.dsc := by simp [State.nameTones]
@[simp] theorem nameTones_trunks (s : State) (e : EngineId) (l : List (ToneRole × ToneId)) :
    (s.nameTones e l).trunks = s.trunks := by simp [State.nameTones]
@[simp] theorem nameTones_cmu (s : State) (e : EngineId) (l : List (ToneRole × ToneId)) :
    (s.nameTones e l).cmu = s.cmu := by simp [State.nameTones]
@[simp] theorem nameTones_evr (s : State) (e : EngineId) (l : List (ToneRole × ToneId)) :
    (s.nameTones e l).evr = s.evr := by simp [State.nameTones]

@[simp] theorem unload_pending (s : State) (e : EngineId) (p : Loading → Bool) :
    (s.unload e p).pending = s.pending := by simp [State.unload]
@[simp] theorem unload_resetLow (s : State) (e : EngineId) (p : Loading → Bool) :
    (s.unload e p).resetLow = s.resetLow := by simp [State.unload]
@[simp] theorem unload_clock (s : State) (e : EngineId) (p : Loading → Bool) :
    (s.unload e p).clock = s.clock := by simp [State.unload]
@[simp] theorem unload_hwi (s : State) (e : EngineId) (p : Loading → Bool) :
    (s.unload e p).hwi = s.hwi := by simp [State.unload]
@[simp] theorem unload_ccp (s : State) (e : EngineId) (p : Loading → Bool) :
    (s.unload e p).ccp = s.ccp := by simp [State.unload]

@[simp] theorem stopListening_pending (s : State) (e : EngineId) :
    (s.stopListening e).pending = s.pending := by simp [State.stopListening]
@[simp] theorem stopListening_resetLow (s : State) (e : EngineId) :
    (s.stopListening e).resetLow = s.resetLow := by simp [State.stopListening]
@[simp] theorem stopListening_clock (s : State) (e : EngineId) :
    (s.stopListening e).clock = s.clock := by simp [State.stopListening]
@[simp] theorem stopListening_hwi (s : State) (e : EngineId) :
    (s.stopListening e).hwi = s.hwi := by simp [State.stopListening]
@[simp] theorem stopListening_ccp (s : State) (e : EngineId) :
    (s.stopListening e).ccp = s.ccp := by simp [State.stopListening]

@[simp] theorem enterDialTone_pending (s : State) (e : EngineId) :
    (s.enterDialTone e).pending = s.pending := by simp [State.enterDialTone]
@[simp] theorem enterDialTone_resetLow (s : State) (e : EngineId) :
    (s.enterDialTone e).resetLow = s.resetLow := by simp [State.enterDialTone]
@[simp] theorem enterDialTone_clock (s : State) (e : EngineId) :
    (s.enterDialTone e).clock = s.clock := by simp [State.enterDialTone]
@[simp] theorem enterDialTone_hwi (s : State) (e : EngineId) :
    (s.enterDialTone e).hwi = s.hwi := by simp [State.enterDialTone]
@[simp] theorem enterDialTone_ccp (s : State) (e : EngineId) :
    (s.enterDialTone e).ccp = s.ccp := by simp [State.enterDialTone]
@[simp] theorem enterDialTone_tables (s : State) (e : EngineId) :
    (s.enterDialTone e).tables = s.tables := by simp [State.enterDialTone]
@[simp] theorem enterDialTone_queue (s : State) (e : EngineId) :
    (s.enterDialTone e).queue = s.queue := by simp [State.enterDialTone]
@[simp] theorem enterDialTone_dsc (s : State) (e : EngineId) :
    (s.enterDialTone e).dsc = s.dsc := by simp [State.enterDialTone]
@[simp] theorem enterDialTone_trunks (s : State) (e : EngineId) :
    (s.enterDialTone e).trunks = s.trunks := by simp [State.enterDialTone]
@[simp] theorem enterDialTone_cmu (s : State) (e : EngineId) :
    (s.enterDialTone e).cmu = s.cmu := by simp [State.enterDialTone]
@[simp] theorem enterDialTone_evr (s : State) (e : EngineId) :
    (s.enterDialTone e).evr = s.evr := by simp [State.enterDialTone]

@[simp] theorem enterAwaitAnswer_pending (s : State) (e : EngineId) (r : RouteId) :
    (s.enterAwaitAnswer e r).pending = s.pending := by simp [State.enterAwaitAnswer]
@[simp] theorem enterAwaitAnswer_resetLow (s : State) (e : EngineId) (r : RouteId) :
    (s.enterAwaitAnswer e r).resetLow = s.resetLow := by simp [State.enterAwaitAnswer]
@[simp] theorem enterAwaitAnswer_clock (s : State) (e : EngineId) (r : RouteId) :
    (s.enterAwaitAnswer e r).clock = s.clock := by simp [State.enterAwaitAnswer]
@[simp] theorem enterAwaitAnswer_hwi (s : State) (e : EngineId) (r : RouteId) :
    (s.enterAwaitAnswer e r).hwi = s.hwi := by simp [State.enterAwaitAnswer]
@[simp] theorem enterAwaitAnswer_ccp (s : State) (e : EngineId) (r : RouteId) :
    (s.enterAwaitAnswer e r).ccp = s.ccp := by simp [State.enterAwaitAnswer]
@[simp] theorem enterAwaitAnswer_tables (s : State) (e : EngineId) (r : RouteId) :
    (s.enterAwaitAnswer e r).tables = s.tables := by simp [State.enterAwaitAnswer]
@[simp] theorem enterAwaitAnswer_queue (s : State) (e : EngineId) (r : RouteId) :
    (s.enterAwaitAnswer e r).queue = s.queue := by simp [State.enterAwaitAnswer]
@[simp] theorem enterAwaitAnswer_dsc (s : State) (e : EngineId) (r : RouteId) :
    (s.enterAwaitAnswer e r).dsc = s.dsc := by simp [State.enterAwaitAnswer]
@[simp] theorem enterAwaitAnswer_trunks (s : State) (e : EngineId) (r : RouteId) :
    (s.enterAwaitAnswer e r).trunks = s.trunks := by simp [State.enterAwaitAnswer]
@[simp] theorem enterAwaitAnswer_cmu (s : State) (e : EngineId) (r : RouteId) :
    (s.enterAwaitAnswer e r).cmu = s.cmu := by simp [State.enterAwaitAnswer]
@[simp] theorem enterAwaitAnswer_evr (s : State) (e : EngineId) (r : RouteId) :
    (s.enterAwaitAnswer e r).evr = s.evr := by simp [State.enterAwaitAnswer]

@[simp] theorem enterAwaitAck_pending (s : State) (e : EngineId) (r : RouteId) :
    (s.enterAwaitAck e r).pending = s.pending := by simp [State.enterAwaitAck]
@[simp] theorem enterAwaitAck_resetLow (s : State) (e : EngineId) (r : RouteId) :
    (s.enterAwaitAck e r).resetLow = s.resetLow := by simp [State.enterAwaitAck]
@[simp] theorem enterAwaitAck_clock (s : State) (e : EngineId) (r : RouteId) :
    (s.enterAwaitAck e r).clock = s.clock := by simp [State.enterAwaitAck]
@[simp] theorem enterAwaitAck_hwi (s : State) (e : EngineId) (r : RouteId) :
    (s.enterAwaitAck e r).hwi = s.hwi := by simp [State.enterAwaitAck]
@[simp] theorem enterAwaitAck_ccp (s : State) (e : EngineId) (r : RouteId) :
    (s.enterAwaitAck e r).ccp = s.ccp := by simp [State.enterAwaitAck]
@[simp] theorem enterAwaitAck_tables (s : State) (e : EngineId) (r : RouteId) :
    (s.enterAwaitAck e r).tables = s.tables := by simp [State.enterAwaitAck]
@[simp] theorem enterAwaitAck_queue (s : State) (e : EngineId) (r : RouteId) :
    (s.enterAwaitAck e r).queue = s.queue := by simp [State.enterAwaitAck]
@[simp] theorem enterAwaitAck_dsc (s : State) (e : EngineId) (r : RouteId) :
    (s.enterAwaitAck e r).dsc = s.dsc := by simp [State.enterAwaitAck]
@[simp] theorem enterAwaitAck_trunks (s : State) (e : EngineId) (r : RouteId) :
    (s.enterAwaitAck e r).trunks = s.trunks := by simp [State.enterAwaitAck]
@[simp] theorem enterAwaitAck_cmu (s : State) (e : EngineId) (r : RouteId) :
    (s.enterAwaitAck e r).cmu = s.cmu := by simp [State.enterAwaitAck]
@[simp] theorem enterAwaitAck_evr (s : State) (e : EngineId) (r : RouteId) :
    (s.enterAwaitAck e r).evr = s.evr := by simp [State.enterAwaitAck]

@[simp] theorem dialNext_pending (s : State) (e : EngineId) (r : RouteId) :
    (s.dialNext e r).pending = s.pending := by
  unfold State.dialNext
  split <;> simp
@[simp] theorem dialNext_resetLow (s : State) (e : EngineId) (r : RouteId) :
    (s.dialNext e r).resetLow = s.resetLow := by
  unfold State.dialNext
  split <;> simp
@[simp] theorem dialNext_clock (s : State) (e : EngineId) (r : RouteId) :
    (s.dialNext e r).clock = s.clock := by
  unfold State.dialNext
  split <;> simp
@[simp] theorem dialNext_hwi (s : State) (e : EngineId) (r : RouteId) :
    (s.dialNext e r).hwi = s.hwi := by
  unfold State.dialNext
  split <;> simp
@[simp] theorem dialNext_ccp (s : State) (e : EngineId) (r : RouteId) :
    (s.dialNext e r).ccp = s.ccp := by
  unfold State.dialNext
  split <;> simp
@[simp] theorem dialNext_tables (s : State) (e : EngineId) (r : RouteId) :
    (s.dialNext e r).tables = s.tables := by
  unfold State.dialNext
  split <;> simp
@[simp] theorem dialNext_queue (s : State) (e : EngineId) (r : RouteId) :
    (s.dialNext e r).queue = s.queue := by
  unfold State.dialNext
  split <;> simp
@[simp] theorem dialNext_dsc (s : State) (e : EngineId) (r : RouteId) :
    (s.dialNext e r).dsc = s.dsc := by
  unfold State.dialNext
  split <;> simp
@[simp] theorem dialNext_trunks (s : State) (e : EngineId) (r : RouteId) :
    (s.dialNext e r).trunks = s.trunks := by
  unfold State.dialNext
  split <;> simp
@[simp] theorem dialNext_cmu (s : State) (e : EngineId) (r : RouteId) :
    (s.dialNext e r).cmu = s.cmu := by
  unfold State.dialNext
  split <;> simp
@[simp] theorem dialNext_evr (s : State) (e : EngineId) (r : RouteId) :
    (s.dialNext e r).evr = s.evr := by
  unfold State.dialNext
  split <;> simp

@[simp] theorem startSending_pending (s : State) (e : EngineId) :
    (s.startSending e).pending = s.pending := by simp [State.startSending]
@[simp] theorem startSending_resetLow (s : State) (e : EngineId) :
    (s.startSending e).resetLow = s.resetLow := by simp [State.startSending]
@[simp] theorem startSending_clock (s : State) (e : EngineId) :
    (s.startSending e).clock = s.clock := by simp [State.startSending]
@[simp] theorem startSending_hwi (s : State) (e : EngineId) :
    (s.startSending e).hwi = s.hwi := by simp [State.startSending]
@[simp] theorem startSending_ccp (s : State) (e : EngineId) :
    (s.startSending e).ccp = s.ccp := by simp [State.startSending]
@[simp] theorem startSending_tables (s : State) (e : EngineId) :
    (s.startSending e).tables = s.tables := by simp [State.startSending]
@[simp] theorem startSending_queue (s : State) (e : EngineId) :
    (s.startSending e).queue = s.queue := by simp [State.startSending]
@[simp] theorem startSending_dsc (s : State) (e : EngineId) :
    (s.startSending e).dsc = s.dsc := by simp [State.startSending]
@[simp] theorem startSending_trunks (s : State) (e : EngineId) :
    (s.startSending e).trunks = s.trunks := by simp [State.startSending]
@[simp] theorem startSending_cmu (s : State) (e : EngineId) :
    (s.startSending e).cmu = s.cmu := by simp [State.startSending]
@[simp] theorem startSending_evr (s : State) (e : EngineId) :
    (s.startSending e).evr = s.evr := by simp [State.startSending]

@[simp] theorem enterGuard_pending (s : State) (e : EngineId) (st : Step) :
    (s.enterGuard e st).pending = s.pending := by simp [State.enterGuard]
@[simp] theorem enterGuard_resetLow (s : State) (e : EngineId) (st : Step) :
    (s.enterGuard e st).resetLow = s.resetLow := by simp [State.enterGuard]
@[simp] theorem enterGuard_clock (s : State) (e : EngineId) (st : Step) :
    (s.enterGuard e st).clock = s.clock := by simp [State.enterGuard]
@[simp] theorem enterGuard_hwi (s : State) (e : EngineId) (st : Step) :
    (s.enterGuard e st).hwi = s.hwi := by simp [State.enterGuard]
@[simp] theorem enterGuard_ccp (s : State) (e : EngineId) (st : Step) :
    (s.enterGuard e st).ccp = s.ccp := by simp [State.enterGuard]

@[simp] theorem testOutcome_pending (s : State) (c : CallRecord) (o : CallOutcome) :
    (s.testOutcome c o).pending = s.pending := by simp [State.testOutcome]
@[simp] theorem testOutcome_resetLow (s : State) (c : CallRecord) (o : CallOutcome) :
    (s.testOutcome c o).resetLow = s.resetLow := by simp [State.testOutcome]
@[simp] theorem testOutcome_clock (s : State) (c : CallRecord) (o : CallOutcome) :
    (s.testOutcome c o).clock = s.clock := by simp [State.testOutcome]
@[simp] theorem testOutcome_hwi (s : State) (c : CallRecord) (o : CallOutcome) :
    (s.testOutcome c o).hwi = s.hwi := by simp [State.testOutcome]
@[simp] theorem testOutcome_ccp (s : State) (c : CallRecord) (o : CallOutcome) :
    (s.testOutcome c o).ccp = s.ccp := by simp [State.testOutcome]
@[simp] theorem testOutcome_tables (s : State) (c : CallRecord) (o : CallOutcome) :
    (s.testOutcome c o).tables = s.tables := by simp [State.testOutcome]
@[simp] theorem testOutcome_queue (s : State) (c : CallRecord) (o : CallOutcome) :
    (s.testOutcome c o).queue = s.queue := by simp [State.testOutcome]
@[simp] theorem testOutcome_dsc (s : State) (c : CallRecord) (o : CallOutcome) :
    (s.testOutcome c o).dsc = s.dsc := by simp [State.testOutcome]
@[simp] theorem testOutcome_trunks (s : State) (c : CallRecord) (o : CallOutcome) :
    (s.testOutcome c o).trunks = s.trunks := by simp [State.testOutcome]
@[simp] theorem testOutcome_engines (s : State) (c : CallRecord) (o : CallOutcome) :
    (s.testOutcome c o).engines = s.engines := by simp [State.testOutcome]

@[simp] theorem stopEngine_pending (s : State) (e : EngineId) :
    (s.stopEngine e).pending = s.pending := by simp [State.stopEngine]
@[simp] theorem stopEngine_resetLow (s : State) (e : EngineId) :
    (s.stopEngine e).resetLow = s.resetLow := by simp [State.stopEngine]
@[simp] theorem stopEngine_clock (s : State) (e : EngineId) :
    (s.stopEngine e).clock = s.clock := by simp [State.stopEngine]
@[simp] theorem stopEngine_hwi (s : State) (e : EngineId) :
    (s.stopEngine e).hwi = s.hwi := by simp [State.stopEngine]
@[simp] theorem stopEngine_ccp (s : State) (e : EngineId) :
    (s.stopEngine e).ccp = s.ccp := by simp [State.stopEngine]

@[simp] theorem close_pending (s : State) (e : EngineId) :
    (s.close e).pending = s.pending := by
  unfold State.close
  dsimp only
  split <;> simp
@[simp] theorem close_resetLow (s : State) (e : EngineId) :
    (s.close e).resetLow = s.resetLow := by
  unfold State.close
  dsimp only
  split <;> simp
@[simp] theorem close_clock (s : State) (e : EngineId) :
    (s.close e).clock = s.clock := by
  unfold State.close
  dsimp only
  split <;> simp
@[simp] theorem close_hwi (s : State) (e : EngineId) :
    (s.close e).hwi = s.hwi := by
  unfold State.close
  dsimp only
  split <;> simp
@[simp] theorem close_ccp (s : State) (e : EngineId) :
    (s.close e).ccp = s.ccp := by
  unfold State.close
  dsimp only
  split <;> simp

theorem applyToBlocks_keeps {β : Type} (p : State → β) (outcome : State → Handle → State)
    (hm : ∀ (s : State) (e : EngineId) (g : Engine → Engine), p (s.modEngine e g) = p s)
    (ho : ∀ s h, p (outcome s h) = p s) (s : State) (e : EngineId) : p (s.applyToBlocks e outcome) = p s := by
  unfold State.applyToBlocks
  split
  · rfl
  · rw [foldl_keeps p outcome ho, hm]
@[simp] theorem applyFailure_pending (s : State) (e : EngineId) (c : CallRecord) (cause : CallOutcome) :
    (s.applyFailure e c cause).pending = s.pending := by
  unfold State.applyFailure
  dsimp only
  split <;> simp [applyToBlocks_keeps State.pending]
@[simp] theorem applyFailure_resetLow (s : State) (e : EngineId) (c : CallRecord) (cause : CallOutcome) :
    (s.applyFailure e c cause).resetLow = s.resetLow := by
  unfold State.applyFailure
  dsimp only
  split <;> simp [applyToBlocks_keeps State.resetLow]
@[simp] theorem applyFailure_clock (s : State) (e : EngineId) (c : CallRecord) (cause : CallOutcome) :
    (s.applyFailure e c cause).clock = s.clock := by
  unfold State.applyFailure
  dsimp only
  split <;> simp [applyToBlocks_keeps State.clock]
@[simp] theorem applyFailure_hwi (s : State) (e : EngineId) (c : CallRecord) (cause : CallOutcome) :
    (s.applyFailure e c cause).hwi = s.hwi := by
  unfold State.applyFailure
  dsimp only
  split <;> simp [applyToBlocks_keeps State.hwi]
@[simp] theorem applyFailure_ccp (s : State) (e : EngineId) (c : CallRecord) (cause : CallOutcome) :
    (s.applyFailure e c cause).ccp = s.ccp := by
  unfold State.applyFailure
  dsimp only
  split <;> simp [applyToBlocks_keeps State.ccp]
@[simp] theorem applyFailure_tables (s : State) (e : EngineId) (c : CallRecord) (cause : CallOutcome) :
    (s.applyFailure e c cause).tables = s.tables := by
  unfold State.applyFailure
  dsimp only
  split <;> simp [applyToBlocks_keeps State.tables]
@[simp] theorem applyFailure_trunks (s : State) (e : EngineId) (c : CallRecord) (cause : CallOutcome) :
    (s.applyFailure e c cause).trunks = s.trunks := by
  unfold State.applyFailure
  dsimp only
  split <;> simp [applyToBlocks_keeps State.trunks]
@[simp] theorem applyFailure_cmu (s : State) (e : EngineId) (c : CallRecord) (cause : CallOutcome) :
    (s.applyFailure e c cause).cmu = s.cmu := by
  unfold State.applyFailure
  dsimp only
  split <;> simp [applyToBlocks_keeps State.cmu]

@[simp] theorem returnBlocks_pending (s : State) (e : EngineId) :
    (s.applyToBlocks e State.uncountedReturn).pending = s.pending := applyToBlocks_keeps State.pending _ (by simp) (by simp) s e
@[simp] theorem returnBlocks_resetLow (s : State) (e : EngineId) :
    (s.applyToBlocks e State.uncountedReturn).resetLow = s.resetLow := applyToBlocks_keeps State.resetLow _ (by simp) (by simp) s e
@[simp] theorem returnBlocks_clock (s : State) (e : EngineId) :
    (s.applyToBlocks e State.uncountedReturn).clock = s.clock := applyToBlocks_keeps State.clock _ (by simp) (by simp) s e
@[simp] theorem returnBlocks_hwi (s : State) (e : EngineId) :
    (s.applyToBlocks e State.uncountedReturn).hwi = s.hwi := applyToBlocks_keeps State.hwi _ (by simp) (by simp) s e
@[simp] theorem returnBlocks_ccp (s : State) (e : EngineId) :
    (s.applyToBlocks e State.uncountedReturn).ccp = s.ccp := applyToBlocks_keeps State.ccp _ (by simp) (by simp) s e
@[simp] theorem returnBlocks_tables (s : State) (e : EngineId) :
    (s.applyToBlocks e State.uncountedReturn).tables = s.tables := applyToBlocks_keeps State.tables _ (by simp) (by simp) s e
@[simp] theorem returnBlocks_trunks (s : State) (e : EngineId) :
    (s.applyToBlocks e State.uncountedReturn).trunks = s.trunks := applyToBlocks_keeps State.trunks _ (by simp) (by simp) s e
@[simp] theorem returnBlocks_cmu (s : State) (e : EngineId) :
    (s.applyToBlocks e State.uncountedReturn).cmu = s.cmu := applyToBlocks_keeps State.cmu _ (by simp) (by simp) s e
@[simp] theorem returnBlocks_evr (s : State) (e : EngineId) :
    (s.applyToBlocks e State.uncountedReturn).evr = s.evr := applyToBlocks_keeps State.evr _ (by simp) (by simp) s e

@[simp] theorem failCall_pending (s : State) (e : EngineId) (cause : CallOutcome) :
    (s.failCall e cause).pending = s.pending := by
  unfold State.failCall
  dsimp only
  repeat' split
  all_goals simp
@[simp] theorem failCall_resetLow (s : State) (e : EngineId) (cause : CallOutcome) :
    (s.failCall e cause).resetLow = s.resetLow := by
  unfold State.failCall
  dsimp only
  repeat' split
  all_goals simp
@[simp] theorem failCall_clock (s : State) (e : EngineId) (cause : CallOutcome) :
    (s.failCall e cause).clock = s.clock := by
  unfold State.failCall
  dsimp only
  repeat' split
  all_goals simp
@[simp] theorem failCall_hwi (s : State) (e : EngineId) (cause : CallOutcome) :
    (s.failCall e cause).hwi = s.hwi := by
  unfold State.failCall
  dsimp only
  repeat' split
  all_goals simp
@[simp] theorem failCall_ccp (s : State) (e : EngineId) (cause : CallOutcome) :
    (s.failCall e cause).ccp = s.ccp := by
  unfold State.failCall
  dsimp only
  repeat' split
  all_goals simp

@[simp] theorem endLineTest_pending (s : State) (e : EngineId) (code : TestCode) :
    (s.endLineTest e code).pending = s.pending := by
  unfold State.endLineTest
  dsimp only
  repeat' split
  all_goals simp
@[simp] theorem endLineTest_resetLow (s : State) (e : EngineId) (code : TestCode) :
    (s.endLineTest e code).resetLow = s.resetLow := by
  unfold State.endLineTest
  dsimp only
  repeat' split
  all_goals simp
@[simp] theorem endLineTest_clock (s : State) (e : EngineId) (code : TestCode) :
    (s.endLineTest e code).clock = s.clock := by
  unfold State.endLineTest
  dsimp only
  repeat' split
  all_goals simp
@[simp] theorem endLineTest_hwi (s : State) (e : EngineId) (code : TestCode) :
    (s.endLineTest e code).hwi = s.hwi := by
  unfold State.endLineTest
  dsimp only
  repeat' split
  all_goals simp
@[simp] theorem endLineTest_ccp (s : State) (e : EngineId) (code : TestCode) :
    (s.endLineTest e code).ccp = s.ccp := by
  unfold State.endLineTest
  dsimp only
  repeat' split
  all_goals simp

@[simp] theorem failWork_pending (s : State) (e : EngineId) (cause : CallOutcome) (code : TestCode) :
    (s.failWork e cause code).pending = s.pending := by
  unfold State.failWork
  split <;> simp
@[simp] theorem failWork_resetLow (s : State) (e : EngineId) (cause : CallOutcome) (code : TestCode) :
    (s.failWork e cause code).resetLow = s.resetLow := by
  unfold State.failWork
  split <;> simp
@[simp] theorem failWork_clock (s : State) (e : EngineId) (cause : CallOutcome) (code : TestCode) :
    (s.failWork e cause code).clock = s.clock := by
  unfold State.failWork
  split <;> simp
@[simp] theorem failWork_hwi (s : State) (e : EngineId) (cause : CallOutcome) (code : TestCode) :
    (s.failWork e cause code).hwi = s.hwi := by
  unfold State.failWork
  split <;> simp
@[simp] theorem failWork_ccp (s : State) (e : EngineId) (cause : CallOutcome) (code : TestCode) :
    (s.failWork e cause code).ccp = s.ccp := by
  unfold State.failWork
  split <;> simp

@[simp] theorem preemptStop_pending (s : State) (e : EngineId) :
    (s.preemptStop e).pending = s.pending := by
  unfold State.preemptStop
  dsimp only
  repeat' split
  all_goals simp
@[simp] theorem preemptStop_resetLow (s : State) (e : EngineId) :
    (s.preemptStop e).resetLow = s.resetLow := by
  unfold State.preemptStop
  dsimp only
  repeat' split
  all_goals simp
@[simp] theorem preemptStop_clock (s : State) (e : EngineId) :
    (s.preemptStop e).clock = s.clock := by
  unfold State.preemptStop
  dsimp only
  repeat' split
  all_goals simp
@[simp] theorem preemptStop_hwi (s : State) (e : EngineId) :
    (s.preemptStop e).hwi = s.hwi := by
  unfold State.preemptStop
  dsimp only
  repeat' split
  all_goals simp
@[simp] theorem preemptStop_ccp (s : State) (e : EngineId) :
    (s.preemptStop e).ccp = s.ccp := by
  unfold State.preemptStop
  dsimp only
  repeat' split
  all_goals simp

@[simp] theorem abortEngine_pending (s : State) (e : EngineId) :
    (s.abortEngine e).pending = s.pending := by
  unfold State.abortEngine
  repeat' split
  all_goals simp
@[simp] theorem abortEngine_resetLow (s : State) (e : EngineId) :
    (s.abortEngine e).resetLow = s.resetLow := by
  unfold State.abortEngine
  repeat' split
  all_goals simp
@[simp] theorem abortEngine_clock (s : State) (e : EngineId) :
    (s.abortEngine e).clock = s.clock := by
  unfold State.abortEngine
  repeat' split
  all_goals simp
@[simp] theorem abortEngine_hwi (s : State) (e : EngineId) :
    (s.abortEngine e).hwi = s.hwi := by
  unfold State.abortEngine
  repeat' split
  all_goals simp
@[simp] theorem abortEngine_ccp (s : State) (e : EngineId) :
    (s.abortEngine e).ccp = s.ccp := by
  unfold State.abortEngine
  repeat' split
  all_goals simp

@[simp] theorem postAbort_pending (s : State) (a : AbortCause) (x : EngineSet) (e : EngineId) :
    (s.postAbort a x e).pending = s.pending := by
  unfold State.postAbort
  repeat' split
  all_goals simp
@[simp] theorem postAbort_resetLow (s : State) (a : AbortCause) (x : EngineSet) (e : EngineId) :
    (s.postAbort a x e).resetLow = s.resetLow := by
  unfold State.postAbort
  repeat' split
  all_goals simp
@[simp] theorem postAbort_clock (s : State) (a : AbortCause) (x : EngineSet) (e : EngineId) :
    (s.postAbort a x e).clock = s.clock := by
  unfold State.postAbort
  repeat' split
  all_goals simp
@[simp] theorem postAbort_hwi (s : State) (a : AbortCause) (x : EngineSet) (e : EngineId) :
    (s.postAbort a x e).hwi = s.hwi := by
  unfold State.postAbort
  repeat' split
  all_goals simp
@[simp] theorem postAbort_ccp (s : State) (a : AbortCause) (x : EngineSet) (e : EngineId) :
    (s.postAbort a x e).ccp = s.ccp := by
  unfold State.postAbort
  repeat' split
  all_goals simp

@[simp] theorem postAborts_pending (s : State) (a : AbortCause) (x : EngineSet) :
    (s.postAborts a x).pending = s.pending := foldl_keeps State.pending (fun s e => s.postAbort a x e) (by simp) engineIds s
@[simp] theorem postAborts_resetLow (s : State) (a : AbortCause) (x : EngineSet) :
    (s.postAborts a x).resetLow = s.resetLow := foldl_keeps State.resetLow (fun s e => s.postAbort a x e) (by simp) engineIds s
@[simp] theorem postAborts_clock (s : State) (a : AbortCause) (x : EngineSet) :
    (s.postAborts a x).clock = s.clock := foldl_keeps State.clock (fun s e => s.postAbort a x e) (by simp) engineIds s
@[simp] theorem postAborts_hwi (s : State) (a : AbortCause) (x : EngineSet) :
    (s.postAborts a x).hwi = s.hwi := foldl_keeps State.hwi (fun s e => s.postAbort a x e) (by simp) engineIds s
@[simp] theorem postAborts_ccp (s : State) (a : AbortCause) (x : EngineSet) :
    (s.postAborts a x).ccp = s.ccp := foldl_keeps State.ccp (fun s e => s.postAbort a x e) (by simp) engineIds s

@[simp] theorem leaveSeize_pending (s : State) (e : EngineId) :
    (s.leaveSeize e).pending = s.pending := by
  unfold State.leaveSeize
  dsimp only
  repeat' split
  all_goals simp
@[simp] theorem leaveSeize_resetLow (s : State) (e : EngineId) :
    (s.leaveSeize e).resetLow = s.resetLow := by
  unfold State.leaveSeize
  dsimp only
  repeat' split
  all_goals simp
@[simp] theorem leaveSeize_clock (s : State) (e : EngineId) :
    (s.leaveSeize e).clock = s.clock := by
  unfold State.leaveSeize
  dsimp only
  repeat' split
  all_goals simp
@[simp] theorem leaveSeize_hwi (s : State) (e : EngineId) :
    (s.leaveSeize e).hwi = s.hwi := by
  unfold State.leaveSeize
  dsimp only
  repeat' split
  all_goals simp
@[simp] theorem leaveSeize_ccp (s : State) (e : EngineId) :
    (s.leaveSeize e).ccp = s.ccp := by
  unfold State.leaveSeize
  dsimp only
  repeat' split
  all_goals simp
@[simp] theorem leaveSeize_tables (s : State) (e : EngineId) :
    (s.leaveSeize e).tables = s.tables := by
  unfold State.leaveSeize
  dsimp only
  repeat' split
  all_goals simp
@[simp] theorem leaveSeize_queue (s : State) (e : EngineId) :
    (s.leaveSeize e).queue = s.queue := by
  unfold State.leaveSeize
  dsimp only
  repeat' split
  all_goals simp
@[simp] theorem leaveSeize_dsc (s : State) (e : EngineId) :
    (s.leaveSeize e).dsc = s.dsc := by
  unfold State.leaveSeize
  dsimp only
  repeat' split
  all_goals simp
@[simp] theorem leaveSeize_trunks (s : State) (e : EngineId) :
    (s.leaveSeize e).trunks = s.trunks := by
  unfold State.leaveSeize
  dsimp only
  repeat' split
  all_goals simp
@[simp] theorem leaveSeize_cmu (s : State) (e : EngineId) :
    (s.leaveSeize e).cmu = s.cmu := by
  unfold State.leaveSeize
  dsimp only
  repeat' split
  all_goals simp
@[simp] theorem leaveSeize_evr (s : State) (e : EngineId) :
    (s.leaveSeize e).evr = s.evr := by
  unfold State.leaveSeize
  dsimp only
  repeat' split
  all_goals simp

@[simp] theorem enterSeize_pending (s : State) (e : EngineId) (t : TrunkId) :
    (s.enterSeize e t).pending = s.pending := by
  unfold State.enterSeize
  dsimp only
  repeat' split
  all_goals simp
@[simp] theorem enterSeize_resetLow (s : State) (e : EngineId) (t : TrunkId) :
    (s.enterSeize e t).resetLow = s.resetLow := by
  unfold State.enterSeize
  dsimp only
  repeat' split
  all_goals simp
@[simp] theorem enterSeize_clock (s : State) (e : EngineId) (t : TrunkId) :
    (s.enterSeize e t).clock = s.clock := by
  unfold State.enterSeize
  dsimp only
  repeat' split
  all_goals simp
@[simp] theorem enterSeize_hwi (s : State) (e : EngineId) (t : TrunkId) :
    (s.enterSeize e t).hwi = s.hwi := by
  unfold State.enterSeize
  dsimp only
  repeat' split
  all_goals simp
@[simp] theorem enterSeize_ccp (s : State) (e : EngineId) (t : TrunkId) :
    (s.enterSeize e t).ccp = s.ccp := by
  unfold State.enterSeize
  dsimp only
  repeat' split
  all_goals simp

@[simp] theorem enterClear_pending (s : State) (e : EngineId) :
    (s.enterClear e).pending = s.pending := by simp [State.enterClear]
@[simp] theorem enterClear_resetLow (s : State) (e : EngineId) :
    (s.enterClear e).resetLow = s.resetLow := by simp [State.enterClear]
@[simp] theorem enterClear_clock (s : State) (e : EngineId) :
    (s.enterClear e).clock = s.clock := by simp [State.enterClear]
@[simp] theorem enterClear_hwi (s : State) (e : EngineId) :
    (s.enterClear e).hwi = s.hwi := by simp [State.enterClear]
@[simp] theorem enterClear_ccp (s : State) (e : EngineId) :
    (s.enterClear e).ccp = s.ccp := by simp [State.enterClear]
@[simp] theorem enterClear_tables (s : State) (e : EngineId) :
    (s.enterClear e).tables = s.tables := by simp [State.enterClear]
@[simp] theorem enterClear_queue (s : State) (e : EngineId) :
    (s.enterClear e).queue = s.queue := by simp [State.enterClear]
@[simp] theorem enterClear_dsc (s : State) (e : EngineId) :
    (s.enterClear e).dsc = s.dsc := by simp [State.enterClear]
@[simp] theorem enterClear_trunks (s : State) (e : EngineId) :
    (s.enterClear e).trunks = s.trunks := by simp [State.enterClear]
@[simp] theorem enterClear_cmu (s : State) (e : EngineId) :
    (s.enterClear e).cmu = s.cmu := by simp [State.enterClear]
@[simp] theorem enterClear_evr (s : State) (e : EngineId) :
    (s.enterClear e).evr = s.evr := by simp [State.enterClear]

@[simp] theorem takenReported_pending (s : State) (e : EngineId) (t : TrunkId) :
    (s.takenReported e t).pending = s.pending := by
  unfold State.takenReported
  dsimp only
  repeat' split
  all_goals simp
@[simp] theorem takenReported_resetLow (s : State) (e : EngineId) (t : TrunkId) :
    (s.takenReported e t).resetLow = s.resetLow := by
  unfold State.takenReported
  dsimp only
  repeat' split
  all_goals simp
@[simp] theorem takenReported_clock (s : State) (e : EngineId) (t : TrunkId) :
    (s.takenReported e t).clock = s.clock := by
  unfold State.takenReported
  dsimp only
  repeat' split
  all_goals simp
@[simp] theorem takenReported_hwi (s : State) (e : EngineId) (t : TrunkId) :
    (s.takenReported e t).hwi = s.hwi := by
  unfold State.takenReported
  dsimp only
  repeat' split
  all_goals simp
@[simp] theorem takenReported_ccp (s : State) (e : EngineId) (t : TrunkId) :
    (s.takenReported e t).ccp = s.ccp := by
  unfold State.takenReported
  dsimp only
  repeat' split
  all_goals simp

@[simp] theorem endWarning_pending (s : State) (t : TrunkId) :
    (s.endWarning t).pending = s.pending := by
  unfold State.endWarning
  dsimp only
  repeat' split
  all_goals simp
@[simp] theorem endWarning_resetLow (s : State) (t : TrunkId) :
    (s.endWarning t).resetLow = s.resetLow := by
  unfold State.endWarning
  dsimp only
  repeat' split
  all_goals simp
@[simp] theorem endWarning_clock (s : State) (t : TrunkId) :
    (s.endWarning t).clock = s.clock := by
  unfold State.endWarning
  dsimp only
  repeat' split
  all_goals simp
@[simp] theorem endWarning_hwi (s : State) (t : TrunkId) :
    (s.endWarning t).hwi = s.hwi := by
  unfold State.endWarning
  dsimp only
  repeat' split
  all_goals simp
@[simp] theorem endWarning_ccp (s : State) (t : TrunkId) :
    (s.endWarning t).ccp = s.ccp := by
  unfold State.endWarning
  dsimp only
  repeat' split
  all_goals simp

@[simp] theorem officeChanged_pending (s : State) (b : State) (t : TrunkId) :
    (s.officeChanged b t).pending = s.pending := by
  unfold State.officeChanged
  repeat' split
  all_goals simp
@[simp] theorem officeChanged_resetLow (s : State) (b : State) (t : TrunkId) :
    (s.officeChanged b t).resetLow = s.resetLow := by
  unfold State.officeChanged
  repeat' split
  all_goals simp
@[simp] theorem officeChanged_clock (s : State) (b : State) (t : TrunkId) :
    (s.officeChanged b t).clock = s.clock := by
  unfold State.officeChanged
  repeat' split
  all_goals simp
@[simp] theorem officeChanged_hwi (s : State) (b : State) (t : TrunkId) :
    (s.officeChanged b t).hwi = s.hwi := by
  unfold State.officeChanged
  repeat' split
  all_goals simp
@[simp] theorem officeChanged_ccp (s : State) (b : State) (t : TrunkId) :
    (s.officeChanged b t).ccp = s.ccp := by
  unfold State.officeChanged
  repeat' split
  all_goals simp

/-! ### Selection and hold -/
@[simp] theorem startCall_pending (s : State) (e : EngineId) (work : Work) :
    (s.startCall e work).pending = s.pending := by simp [State.startCall]
@[simp] theorem startCall_resetLow (s : State) (e : EngineId) (work : Work) :
    (s.startCall e work).resetLow = s.resetLow := by simp [State.startCall]
@[simp] theorem startCall_clock (s : State) (e : EngineId) (work : Work) :
    (s.startCall e work).clock = s.clock := by simp [State.startCall]
@[simp] theorem startCall_hwi (s : State) (e : EngineId) (work : Work) :
    (s.startCall e work).hwi = s.hwi := by simp [State.startCall]
@[simp] theorem startCall_ccp (s : State) (e : EngineId) (work : Work) :
    (s.startCall e work).ccp = s.ccp := by simp [State.startCall]
@[simp] theorem startCall_tables (s : State) (e : EngineId) (work : Work) :
    (s.startCall e work).tables = s.tables := by simp [State.startCall]
@[simp] theorem startCall_queue (s : State) (e : EngineId) (work : Work) :
    (s.startCall e work).queue = s.queue := by simp [State.startCall]
@[simp] theorem startCall_trunks (s : State) (e : EngineId) (work : Work) :
    (s.startCall e work).trunks = s.trunks := by simp [State.startCall]
@[simp] theorem startCall_cmu (s : State) (e : EngineId) (work : Work) :
    (s.startCall e work).cmu = s.cmu := by simp [State.startCall]
@[simp] theorem startCall_evr (s : State) (e : EngineId) (work : Work) :
    (s.startCall e work).evr = s.evr := by simp [State.startCall]

@[simp] theorem acquire_pending (s : State) (e : EngineId) (t : TrunkId) :
    (s.acquire e t).pending = s.pending := by
  unfold State.acquire
  split <;> simp
@[simp] theorem acquire_resetLow (s : State) (e : EngineId) (t : TrunkId) :
    (s.acquire e t).resetLow = s.resetLow := by
  unfold State.acquire
  split <;> simp
@[simp] theorem acquire_clock (s : State) (e : EngineId) (t : TrunkId) :
    (s.acquire e t).clock = s.clock := by
  unfold State.acquire
  split <;> simp
@[simp] theorem acquire_hwi (s : State) (e : EngineId) (t : TrunkId) :
    (s.acquire e t).hwi = s.hwi := by
  unfold State.acquire
  split <;> simp
@[simp] theorem acquire_ccp (s : State) (e : EngineId) (t : TrunkId) :
    (s.acquire e t).ccp = s.ccp := by
  unfold State.acquire
  split <;> simp

@[simp] theorem takeAll_pending (s : State) (e : EngineId) (hs : List Handle) (n : Nat) :
    ((s.takeAll e hs n).1).pending = s.pending := by
  induction hs generalizing s n with
  | nil => rfl
  | cons h hs ih =>
    cases n with
    | zero => rfl
    | succ n =>
      unfold State.takeAll
      split
      · next hs' => rw [ih, (takeRecord_eq hs').2, updateRecord_pending]
      · exact ih s (n + 1)
@[simp] theorem takeAll_resetLow (s : State) (e : EngineId) (hs : List Handle) (n : Nat) :
    ((s.takeAll e hs n).1).resetLow = s.resetLow := by
  induction hs generalizing s n with
  | nil => rfl
  | cons h hs ih =>
    cases n with
    | zero => rfl
    | succ n =>
      unfold State.takeAll
      split
      · next hs' => rw [ih, (takeRecord_eq hs').2, updateRecord_resetLow]
      · exact ih s (n + 1)
@[simp] theorem takeAll_clock (s : State) (e : EngineId) (hs : List Handle) (n : Nat) :
    ((s.takeAll e hs n).1).clock = s.clock := by
  induction hs generalizing s n with
  | nil => rfl
  | cons h hs ih =>
    cases n with
    | zero => rfl
    | succ n =>
      unfold State.takeAll
      split
      · next hs' => rw [ih, (takeRecord_eq hs').2, updateRecord_clock]
      · exact ih s (n + 1)
@[simp] theorem takeAll_hwi (s : State) (e : EngineId) (hs : List Handle) (n : Nat) :
    ((s.takeAll e hs n).1).hwi = s.hwi := by
  induction hs generalizing s n with
  | nil => rfl
  | cons h hs ih =>
    cases n with
    | zero => rfl
    | succ n =>
      unfold State.takeAll
      split
      · next hs' => rw [ih, (takeRecord_eq hs').2, updateRecord_hwi]
      · exact ih s (n + 1)
@[simp] theorem takeAll_ccp (s : State) (e : EngineId) (hs : List Handle) (n : Nat) :
    ((s.takeAll e hs n).1).ccp = s.ccp := by
  induction hs generalizing s n with
  | nil => rfl
  | cons h hs ih =>
    cases n with
    | zero => rfl
    | succ n =>
      unfold State.takeAll
      split
      · next hs' => rw [ih, (takeRecord_eq hs').2, updateRecord_ccp]
      · exact ih s (n + 1)
@[simp] theorem takeAll_tables (s : State) (e : EngineId) (hs : List Handle) (n : Nat) :
    ((s.takeAll e hs n).1).tables = s.tables := by
  induction hs generalizing s n with
  | nil => rfl
  | cons h hs ih =>
    cases n with
    | zero => rfl
    | succ n =>
      unfold State.takeAll
      split
      · next hs' => rw [ih, (takeRecord_eq hs').2, updateRecord_tables]
      · exact ih s (n + 1)
@[simp] theorem takeAll_dsc (s : State) (e : EngineId) (hs : List Handle) (n : Nat) :
    ((s.takeAll e hs n).1).dsc = s.dsc := by
  induction hs generalizing s n with
  | nil => rfl
  | cons h hs ih =>
    cases n with
    | zero => rfl
    | succ n =>
      unfold State.takeAll
      split
      · next hs' => rw [ih, (takeRecord_eq hs').2, updateRecord_dsc]
      · exact ih s (n + 1)
@[simp] theorem takeAll_trunks (s : State) (e : EngineId) (hs : List Handle) (n : Nat) :
    ((s.takeAll e hs n).1).trunks = s.trunks := by
  induction hs generalizing s n with
  | nil => rfl
  | cons h hs ih =>
    cases n with
    | zero => rfl
    | succ n =>
      unfold State.takeAll
      split
      · next hs' => rw [ih, (takeRecord_eq hs').2, updateRecord_trunks]
      · exact ih s (n + 1)
@[simp] theorem takeAll_engines (s : State) (e : EngineId) (hs : List Handle) (n : Nat) :
    ((s.takeAll e hs n).1).engines = s.engines := by
  induction hs generalizing s n with
  | nil => rfl
  | cons h hs ih =>
    cases n with
    | zero => rfl
    | succ n =>
      unfold State.takeAll
      split
      · next hs' => rw [ih, (takeRecord_eq hs').2, updateRecord_engines]
      · exact ih s (n + 1)
@[simp] theorem takeAll_cmu (s : State) (e : EngineId) (hs : List Handle) (n : Nat) :
    ((s.takeAll e hs n).1).cmu = s.cmu := by
  induction hs generalizing s n with
  | nil => rfl
  | cons h hs ih =>
    cases n with
    | zero => rfl
    | succ n =>
      unfold State.takeAll
      split
      · next hs' => rw [ih, (takeRecord_eq hs').2, updateRecord_cmu]
      · exact ih s (n + 1)
@[simp] theorem takeAll_evr (s : State) (e : EngineId) (hs : List Handle) (n : Nat) :
    ((s.takeAll e hs n).1).evr = s.evr := by
  induction hs generalizing s n with
  | nil => rfl
  | cons h hs ih =>
    cases n with
    | zero => rfl
    | succ n =>
      unfold State.takeAll
      split
      · next hs' => rw [ih, (takeRecord_eq hs').2, updateRecord_evr]
      · exact ih s (n + 1)

@[simp] theorem buildCall_pending (s : State) (e : EngineId) (h : Handle) (r : RouteId) (t : TrunkId) (b : Bool) :
    (s.buildCall e h r t b).pending = s.pending := by
  unfold State.buildCall
  dsimp only
  repeat' split
  all_goals simp
@[simp] theorem buildCall_resetLow (s : State) (e : EngineId) (h : Handle) (r : RouteId) (t : TrunkId) (b : Bool) :
    (s.buildCall e h r t b).resetLow = s.resetLow := by
  unfold State.buildCall
  dsimp only
  repeat' split
  all_goals simp
@[simp] theorem buildCall_clock (s : State) (e : EngineId) (h : Handle) (r : RouteId) (t : TrunkId) (b : Bool) :
    (s.buildCall e h r t b).clock = s.clock := by
  unfold State.buildCall
  dsimp only
  repeat' split
  all_goals simp
@[simp] theorem buildCall_hwi (s : State) (e : EngineId) (h : Handle) (r : RouteId) (t : TrunkId) (b : Bool) :
    (s.buildCall e h r t b).hwi = s.hwi := by
  unfold State.buildCall
  dsimp only
  repeat' split
  all_goals simp
@[simp] theorem buildCall_ccp (s : State) (e : EngineId) (h : Handle) (r : RouteId) (t : TrunkId) (b : Bool) :
    (s.buildCall e h r t b).ccp = s.ccp := by
  unfold State.buildCall
  dsimp only
  repeat' split
  all_goals simp

@[simp] theorem noTrunkRaised_pending (s : State) (c : ClassId) :
    (s.noTrunkRaised c).pending = s.pending := by
  unfold State.noTrunkRaised
  dsimp only
  repeat' split
  all_goals simp
@[simp] theorem noTrunkRaised_resetLow (s : State) (c : ClassId) :
    (s.noTrunkRaised c).resetLow = s.resetLow := by
  unfold State.noTrunkRaised
  dsimp only
  repeat' split
  all_goals simp
@[simp] theorem noTrunkRaised_clock (s : State) (c : ClassId) :
    (s.noTrunkRaised c).clock = s.clock := by
  unfold State.noTrunkRaised
  dsimp only
  repeat' split
  all_goals simp
@[simp] theorem noTrunkRaised_hwi (s : State) (c : ClassId) :
    (s.noTrunkRaised c).hwi = s.hwi := by
  unfold State.noTrunkRaised
  dsimp only
  repeat' split
  all_goals simp
@[simp] theorem noTrunkRaised_ccp (s : State) (c : ClassId) :
    (s.noTrunkRaised c).ccp = s.ccp := by
  unfold State.noTrunkRaised
  dsimp only
  repeat' split
  all_goals simp
@[simp] theorem noTrunkRaised_tables (s : State) (c : ClassId) :
    (s.noTrunkRaised c).tables = s.tables := by
  unfold State.noTrunkRaised
  dsimp only
  repeat' split
  all_goals simp
@[simp] theorem noTrunkRaised_queue (s : State) (c : ClassId) :
    (s.noTrunkRaised c).queue = s.queue := by
  unfold State.noTrunkRaised
  dsimp only
  repeat' split
  all_goals simp
@[simp] theorem noTrunkRaised_trunks (s : State) (c : ClassId) :
    (s.noTrunkRaised c).trunks = s.trunks := by
  unfold State.noTrunkRaised
  dsimp only
  repeat' split
  all_goals simp
@[simp] theorem noTrunkRaised_engines (s : State) (c : ClassId) :
    (s.noTrunkRaised c).engines = s.engines := by
  unfold State.noTrunkRaised
  dsimp only
  repeat' split
  all_goals simp
@[simp] theorem noTrunkRaised_cmu (s : State) (c : ClassId) :
    (s.noTrunkRaised c).cmu = s.cmu := by
  unfold State.noTrunkRaised
  dsimp only
  repeat' split
  all_goals simp

/-- R29: what the look-up of a record's route makes of the state. -/
theorem placeOnRoute_eq {s s' : State} {h : Handle} {r : Record} {route : RouteId}
    (hs : s.placeOnRoute h = some (s', r, route)) :
    ∃ r0 p, s.findRecord h = some r0 ∧ r0.state = .waiting ∧ s.routeFrom r0 = some (p, route) ∧ r = r0.moveTo p ∧
      s' = s.updateRecord h (Record.moveTo · p) := by
  unfold State.placeOnRoute at hs
  split at hs
  · next r0 hr =>
    split at hs
    · next hw =>
      split at hs
      · next q hq =>
        obtain ⟨rfl, rfl, rfl⟩ := by simpa using hs
        exact ⟨r0, q.1, hr, hw, by simp [hq], rfl, rfl⟩
      · cases hs
    · cases hs
  · cases hs
@[simp] theorem walkRequest_pending (x : Walk) (e : EngineId) (r : Record) (route : RouteId) :
    (x.request e r route).state.pending = x.state.pending := by
  unfold Walk.request
  dsimp only
  split
  · dsimp only
    split <;> simp
  · simp

@[simp] theorem walkLook_pending (x : Walk) (e : EngineId) (h : Handle) : (x.look e h).state.pending = x.state.pending := by
  unfold Walk.look
  split
  · rfl
  · next hp =>
    obtain ⟨_, _, -, -, -, -, rfl⟩ := placeOnRoute_eq hp
    split <;> simp

@[simp] theorem walkRun_pending (x : Walk) (hs : List Handle) : (x.run hs).state.pending = x.state.pending := by
  induction hs generalizing x with
  | nil => rfl
  | cons h hs ih =>
    unfold Walk.run
    split
    · rfl
    · rw [ih, walkLook_pending]
@[simp] theorem walkRequest_resetLow (x : Walk) (e : EngineId) (r : Record) (route : RouteId) :
    (x.request e r route).state.resetLow = x.state.resetLow := by
  unfold Walk.request
  dsimp only
  split
  · dsimp only
    split <;> simp
  · simp

@[simp] theorem walkLook_resetLow (x : Walk) (e : EngineId) (h : Handle) : (x.look e h).state.resetLow = x.state.resetLow := by
  unfold Walk.look
  split
  · rfl
  · next hp =>
    obtain ⟨_, _, -, -, -, -, rfl⟩ := placeOnRoute_eq hp
    split <;> simp

@[simp] theorem walkRun_resetLow (x : Walk) (hs : List Handle) : (x.run hs).state.resetLow = x.state.resetLow := by
  induction hs generalizing x with
  | nil => rfl
  | cons h hs ih =>
    unfold Walk.run
    split
    · rfl
    · rw [ih, walkLook_resetLow]
@[simp] theorem walkRequest_clock (x : Walk) (e : EngineId) (r : Record) (route : RouteId) :
    (x.request e r route).state.clock = x.state.clock := by
  unfold Walk.request
  dsimp only
  split
  · dsimp only
    split <;> simp
  · simp

@[simp] theorem walkLook_clock (x : Walk) (e : EngineId) (h : Handle) : (x.look e h).state.clock = x.state.clock := by
  unfold Walk.look
  split
  · rfl
  · next hp =>
    obtain ⟨_, _, -, -, -, -, rfl⟩ := placeOnRoute_eq hp
    split <;> simp

@[simp] theorem walkRun_clock (x : Walk) (hs : List Handle) : (x.run hs).state.clock = x.state.clock := by
  induction hs generalizing x with
  | nil => rfl
  | cons h hs ih =>
    unfold Walk.run
    split
    · rfl
    · rw [ih, walkLook_clock]
@[simp] theorem walkRequest_unwarned (x : Walk) (e : EngineId) (r : Record) (route : RouteId) :
    (x.request e r route).state.hwi.unwarned = x.state.hwi.unwarned := by
  unfold Walk.request
  dsimp only
  split
  · dsimp only
    split <;> simp
  · simp

@[simp] theorem walkLook_unwarned (x : Walk) (e : EngineId) (h : Handle) : (x.look e h).state.hwi.unwarned = x.state.hwi.unwarned := by
  unfold Walk.look
  split
  · rfl
  · next hp =>
    obtain ⟨_, _, -, -, -, -, rfl⟩ := placeOnRoute_eq hp
    split <;> simp

@[simp] theorem walkRun_unwarned (x : Walk) (hs : List Handle) : (x.run hs).state.hwi.unwarned = x.state.hwi.unwarned := by
  induction hs generalizing x with
  | nil => rfl
  | cons h hs ih =>
    unfold Walk.run
    split
    · rfl
    · rw [ih, walkLook_unwarned]
@[simp] theorem walkRequest_ccp (x : Walk) (e : EngineId) (r : Record) (route : RouteId) :
    (x.request e r route).state.ccp = x.state.ccp := by
  unfold Walk.request
  dsimp only
  split
  · dsimp only
    split <;> simp
  · simp

@[simp] theorem walkLook_ccp (x : Walk) (e : EngineId) (h : Handle) : (x.look e h).state.ccp = x.state.ccp := by
  unfold Walk.look
  split
  · rfl
  · next hp =>
    obtain ⟨_, _, -, -, -, -, rfl⟩ := placeOnRoute_eq hp
    split <;> simp

@[simp] theorem walkRun_ccp (x : Walk) (hs : List Handle) : (x.run hs).state.ccp = x.state.ccp := by
  induction hs generalizing x with
  | nil => rfl
  | cons h hs ih =>
    unfold Walk.run
    split
    · rfl
    · rw [ih, walkLook_ccp]
@[simp] theorem takeLineTest_pending (s : State) (e : EngineId) (t : TrunkId) :
    (s.takeLineTest e t).pending = s.pending := by simp [State.takeLineTest]
@[simp] theorem takeLineTest_resetLow (s : State) (e : EngineId) (t : TrunkId) :
    (s.takeLineTest e t).resetLow = s.resetLow := by simp [State.takeLineTest]
@[simp] theorem takeLineTest_clock (s : State) (e : EngineId) (t : TrunkId) :
    (s.takeLineTest e t).clock = s.clock := by simp [State.takeLineTest]
@[simp] theorem takeLineTest_hwi (s : State) (e : EngineId) (t : TrunkId) :
    (s.takeLineTest e t).hwi = s.hwi := by simp [State.takeLineTest]
@[simp] theorem takeLineTest_ccp (s : State) (e : EngineId) (t : TrunkId) :
    (s.takeLineTest e t).ccp = s.ccp := by simp [State.takeLineTest]

@[simp] theorem takeTestCall_pending (s : State) (e : EngineId) (r : RouteId) (t : TrunkId) :
    (s.takeTestCall e r t).pending = s.pending := by simp [State.takeTestCall]
@[simp] theorem takeTestCall_resetLow (s : State) (e : EngineId) (r : RouteId) (t : TrunkId) :
    (s.takeTestCall e r t).resetLow = s.resetLow := by simp [State.takeTestCall]
@[simp] theorem takeTestCall_clock (s : State) (e : EngineId) (r : RouteId) (t : TrunkId) :
    (s.takeTestCall e r t).clock = s.clock := by simp [State.takeTestCall]
@[simp] theorem takeTestCall_unwarned (s : State) (e : EngineId) (r : RouteId) (t : TrunkId) :
    (s.takeTestCall e r t).hwi.unwarned = s.hwi.unwarned := by simp [State.takeTestCall]
@[simp] theorem takeTestCall_ccp (s : State) (e : EngineId) (r : RouteId) (t : TrunkId) :
    (s.takeTestCall e r t).ccp = s.ccp := by simp [State.takeTestCall]

@[simp] theorem offerSlot_pending (s : State) (e : EngineId) :
    (s.offerSlot e).pending = s.pending := by
  unfold State.offerSlot
  repeat' split
  all_goals simp
@[simp] theorem offerSlot_resetLow (s : State) (e : EngineId) :
    (s.offerSlot e).resetLow = s.resetLow := by
  unfold State.offerSlot
  repeat' split
  all_goals simp
@[simp] theorem offerSlot_clock (s : State) (e : EngineId) :
    (s.offerSlot e).clock = s.clock := by
  unfold State.offerSlot
  repeat' split
  all_goals simp
@[simp] theorem offerSlot_unwarned (s : State) (e : EngineId) :
    (s.offerSlot e).hwi.unwarned = s.hwi.unwarned := by
  unfold State.offerSlot
  repeat' split
  all_goals simp
@[simp] theorem offerSlot_ccp (s : State) (e : EngineId) :
    (s.offerSlot e).ccp = s.ccp := by
  unfold State.offerSlot
  repeat' split
  all_goals simp

@[simp] theorem select_pending (s : State)  :
    (s.select.1).pending = s.pending := by
  unfold State.select
  dsimp only
  repeat' split
  all_goals simp
@[simp] theorem select_resetLow (s : State)  :
    (s.select.1).resetLow = s.resetLow := by
  unfold State.select
  dsimp only
  repeat' split
  all_goals simp
@[simp] theorem select_clock (s : State)  :
    (s.select.1).clock = s.clock := by
  unfold State.select
  dsimp only
  repeat' split
  all_goals simp
@[simp] theorem select_unwarned (s : State)  :
    (s.select.1).hwi.unwarned = s.hwi.unwarned := by
  unfold State.select
  dsimp only
  repeat' split
  all_goals simp
@[simp] theorem select_ccp (s : State)  :
    (s.select.1).ccp = s.ccp := by
  unfold State.select
  dsimp only
  repeat' split
  all_goals simp

@[simp] theorem markCall_pending (s : State) (e : EngineId) :
    (s.markCall e).pending = s.pending := by simp [State.markCall]
@[simp] theorem markCall_resetLow (s : State) (e : EngineId) :
    (s.markCall e).resetLow = s.resetLow := by simp [State.markCall]
@[simp] theorem markCall_clock (s : State) (e : EngineId) :
    (s.markCall e).clock = s.clock := by simp [State.markCall]
@[simp] theorem markCall_hwi (s : State) (e : EngineId) :
    (s.markCall e).hwi = s.hwi := by simp [State.markCall]
@[simp] theorem markCall_ccp (s : State) (e : EngineId) :
    (s.markCall e).ccp = s.ccp := by simp [State.markCall]
@[simp] theorem markCall_tables (s : State) (e : EngineId) :
    (s.markCall e).tables = s.tables := by simp [State.markCall]
@[simp] theorem markCall_queue (s : State) (e : EngineId) :
    (s.markCall e).queue = s.queue := by simp [State.markCall]
@[simp] theorem markCall_trunks (s : State) (e : EngineId) :
    (s.markCall e).trunks = s.trunks := by simp [State.markCall]
@[simp] theorem markCall_cmu (s : State) (e : EngineId) :
    (s.markCall e).cmu = s.cmu := by simp [State.markCall]
@[simp] theorem markCall_evr (s : State) (e : EngineId) :
    (s.markCall e).evr = s.evr := by simp [State.markCall]

@[simp] theorem urgentWaits_pending (s : State) (l hs : List Handle) :
    ((s.urgentWaits l hs).1).pending = s.pending := by
  induction hs generalizing s with
  | nil => rfl
  | cons h hs ih =>
    unfold State.urgentWaits
    split
    · exact ih s
    · next hp =>
      obtain ⟨_, _, -, -, -, -, rfl⟩ := placeOnRoute_eq hp
      split
      · simp
      · rw [ih, updateRecord_pending]
@[simp] theorem urgentWaits_resetLow (s : State) (l hs : List Handle) :
    ((s.urgentWaits l hs).1).resetLow = s.resetLow := by
  induction hs generalizing s with
  | nil => rfl
  | cons h hs ih =>
    unfold State.urgentWaits
    split
    · exact ih s
    · next hp =>
      obtain ⟨_, _, -, -, -, -, rfl⟩ := placeOnRoute_eq hp
      split
      · simp
      · rw [ih, updateRecord_resetLow]
@[simp] theorem urgentWaits_clock (s : State) (l hs : List Handle) :
    ((s.urgentWaits l hs).1).clock = s.clock := by
  induction hs generalizing s with
  | nil => rfl
  | cons h hs ih =>
    unfold State.urgentWaits
    split
    · exact ih s
    · next hp =>
      obtain ⟨_, _, -, -, -, -, rfl⟩ := placeOnRoute_eq hp
      split
      · simp
      · rw [ih, updateRecord_clock]
@[simp] theorem urgentWaits_hwi (s : State) (l hs : List Handle) :
    ((s.urgentWaits l hs).1).hwi = s.hwi := by
  induction hs generalizing s with
  | nil => rfl
  | cons h hs ih =>
    unfold State.urgentWaits
    split
    · exact ih s
    · next hp =>
      obtain ⟨_, _, -, -, -, -, rfl⟩ := placeOnRoute_eq hp
      split
      · simp
      · rw [ih, updateRecord_hwi]
@[simp] theorem urgentWaits_ccp (s : State) (l hs : List Handle) :
    ((s.urgentWaits l hs).1).ccp = s.ccp := by
  induction hs generalizing s with
  | nil => rfl
  | cons h hs ih =>
    unfold State.urgentWaits
    split
    · exact ih s
    · next hp =>
      obtain ⟨_, _, -, -, -, -, rfl⟩ := placeOnRoute_eq hp
      split
      · simp
      · rw [ih, updateRecord_ccp]
@[simp] theorem urgentWaits_tables (s : State) (l hs : List Handle) :
    ((s.urgentWaits l hs).1).tables = s.tables := by
  induction hs generalizing s with
  | nil => rfl
  | cons h hs ih =>
    unfold State.urgentWaits
    split
    · exact ih s
    · next hp =>
      obtain ⟨_, _, -, -, -, -, rfl⟩ := placeOnRoute_eq hp
      split
      · simp
      · rw [ih, updateRecord_tables]
@[simp] theorem urgentWaits_dsc (s : State) (l hs : List Handle) :
    ((s.urgentWaits l hs).1).dsc = s.dsc := by
  induction hs generalizing s with
  | nil => rfl
  | cons h hs ih =>
    unfold State.urgentWaits
    split
    · exact ih s
    · next hp =>
      obtain ⟨_, _, -, -, -, -, rfl⟩ := placeOnRoute_eq hp
      split
      · simp
      · rw [ih, updateRecord_dsc]
@[simp] theorem urgentWaits_trunks (s : State) (l hs : List Handle) :
    ((s.urgentWaits l hs).1).trunks = s.trunks := by
  induction hs generalizing s with
  | nil => rfl
  | cons h hs ih =>
    unfold State.urgentWaits
    split
    · exact ih s
    · next hp =>
      obtain ⟨_, _, -, -, -, -, rfl⟩ := placeOnRoute_eq hp
      split
      · simp
      · rw [ih, updateRecord_trunks]
@[simp] theorem urgentWaits_engines (s : State) (l hs : List Handle) :
    ((s.urgentWaits l hs).1).engines = s.engines := by
  induction hs generalizing s with
  | nil => rfl
  | cons h hs ih =>
    unfold State.urgentWaits
    split
    · exact ih s
    · next hp =>
      obtain ⟨_, _, -, -, -, -, rfl⟩ := placeOnRoute_eq hp
      split
      · simp
      · rw [ih, updateRecord_engines]
@[simp] theorem urgentWaits_cmu (s : State) (l hs : List Handle) :
    ((s.urgentWaits l hs).1).cmu = s.cmu := by
  induction hs generalizing s with
  | nil => rfl
  | cons h hs ih =>
    unfold State.urgentWaits
    split
    · exact ih s
    · next hp =>
      obtain ⟨_, _, -, -, -, -, rfl⟩ := placeOnRoute_eq hp
      split
      · simp
      · rw [ih, updateRecord_cmu]
@[simp] theorem urgentWaits_evr (s : State) (l hs : List Handle) :
    ((s.urgentWaits l hs).1).evr = s.evr := by
  induction hs generalizing s with
  | nil => rfl
  | cons h hs ih =>
    unfold State.urgentWaits
    split
    · exact ih s
    · next hp =>
      obtain ⟨_, _, -, -, -, -, rfl⟩ := placeOnRoute_eq hp
      split
      · simp
      · rw [ih, updateRecord_evr]

@[simp] theorem preemptCheck_pending (s : State) (l : List Handle) :
    (s.preemptCheck l).pending = s.pending := by
  unfold State.preemptCheck
  dsimp only
  repeat' split
  all_goals simp
@[simp] theorem preemptCheck_resetLow (s : State) (l : List Handle) :
    (s.preemptCheck l).resetLow = s.resetLow := by
  unfold State.preemptCheck
  dsimp only
  repeat' split
  all_goals simp
@[simp] theorem preemptCheck_clock (s : State) (l : List Handle) :
    (s.preemptCheck l).clock = s.clock := by
  unfold State.preemptCheck
  dsimp only
  repeat' split
  all_goals simp
@[simp] theorem preemptCheck_hwi (s : State) (l : List Handle) :
    (s.preemptCheck l).hwi = s.hwi := by
  unfold State.preemptCheck
  dsimp only
  repeat' split
  all_goals simp
@[simp] theorem preemptCheck_ccp (s : State) (l : List Handle) :
    (s.preemptCheck l).ccp = s.ccp := by
  unfold State.preemptCheck
  dsimp only
  repeat' split
  all_goals simp
@[simp] theorem preemptCheck_tables (s : State) (l : List Handle) :
    (s.preemptCheck l).tables = s.tables := by
  unfold State.preemptCheck
  dsimp only
  repeat' split
  all_goals simp
@[simp] theorem preemptCheck_trunks (s : State) (l : List Handle) :
    (s.preemptCheck l).trunks = s.trunks := by
  unfold State.preemptCheck
  dsimp only
  repeat' split
  all_goals simp
@[simp] theorem preemptCheck_cmu (s : State) (l : List Handle) :
    (s.preemptCheck l).cmu = s.cmu := by
  unfold State.preemptCheck
  dsimp only
  repeat' split
  all_goals simp
@[simp] theorem preemptCheck_evr (s : State) (l : List Handle) :
    (s.preemptCheck l).evr = s.evr := by
  unfold State.preemptCheck
  dsimp only
  repeat' split
  all_goals simp

@[simp] theorem selectionStep_pending (s : State)  :
    (s.selectionStep).pending = s.pending := by
  unfold State.selectionStep
  dsimp only
  repeat' split
  all_goals simp
@[simp] theorem selectionStep_resetLow (s : State)  :
    (s.selectionStep).resetLow = s.resetLow := by
  unfold State.selectionStep
  dsimp only
  repeat' split
  all_goals simp
@[simp] theorem selectionStep_clock (s : State)  :
    (s.selectionStep).clock = s.clock := by
  unfold State.selectionStep
  dsimp only
  repeat' split
  all_goals simp
@[simp] theorem selectionStep_unwarned (s : State)  :
    (s.selectionStep).hwi.unwarned = s.hwi.unwarned := by
  unfold State.selectionStep
  dsimp only
  repeat' split
  all_goals simp
@[simp] theorem selectionStep_ccp (s : State)  :
    (s.selectionStep).ccp = s.ccp := by
  unfold State.selectionStep
  dsimp only
  repeat' split
  all_goals simp

@[simp] theorem endHold_pending (s : State) (why : HoldCause) :
    (s.endHold why).pending = s.pending := by
  unfold State.endHold
  dsimp only
  repeat' split
  all_goals simp
@[simp] theorem endHold_resetLow (s : State) (why : HoldCause) :
    (s.endHold why).resetLow = s.resetLow := by
  unfold State.endHold
  dsimp only
  repeat' split
  all_goals simp
@[simp] theorem endHold_clock (s : State) (why : HoldCause) :
    (s.endHold why).clock = s.clock := by
  unfold State.endHold
  dsimp only
  repeat' split
  all_goals simp
@[simp] theorem endHold_hwi (s : State) (why : HoldCause) :
    (s.endHold why).hwi = s.hwi := by
  unfold State.endHold
  dsimp only
  repeat' split
  all_goals simp
@[simp] theorem endHold_ccp (s : State) (why : HoldCause) :
    (s.endHold why).ccp = s.ccp := by
  unfold State.endHold
  dsimp only
  repeat' split
  all_goals simp
@[simp] theorem endHold_tables (s : State) (why : HoldCause) :
    (s.endHold why).tables = s.tables := by
  unfold State.endHold
  dsimp only
  repeat' split
  all_goals simp
@[simp] theorem endHold_queue (s : State) (why : HoldCause) :
    (s.endHold why).queue = s.queue := by
  unfold State.endHold
  dsimp only
  repeat' split
  all_goals simp
@[simp] theorem endHold_trunks (s : State) (why : HoldCause) :
    (s.endHold why).trunks = s.trunks := by
  unfold State.endHold
  dsimp only
  repeat' split
  all_goals simp
@[simp] theorem endHold_engines (s : State) (why : HoldCause) :
    (s.endHold why).engines = s.engines := by
  unfold State.endHold
  dsimp only
  repeat' split
  all_goals simp
@[simp] theorem endHold_cmu (s : State) (why : HoldCause) :
    (s.endHold why).cmu = s.cmu := by
  unfold State.endHold
  dsimp only
  repeat' split
  all_goals simp

end Sys2Proof.Machine
end

