-- ==== Sys2Proof/Laws/Calls.lean ====
section
/-! SUPPORT. What the operations that end a call or test can do: the parts of the state that none of them touches
(`State.aside`), what they leave of the trunks and of the other engine, and, from these, one lemma for CLOSING and for each way
into it. -/

namespace Sys2Proof.Machine

/-! ### What no ending touches -/

/-- The parts of the state that the ends of calls and tests leave, the end of the slot's own command apart. -/
def State.aside (s : State) :=
  ((s.pending, s.resetLow, s.clock, s.hwi, s.ccp),
    (s.dsc.hold, s.dsc.noTrunk, s.dsc.startOrder, s.dsc.marked, s.tables.site, s.tables.classes),
    (s.cmu.slot, s.cmu.results, s.cmu.silent, s.cmu.silenceTimer),
    s.evr.emission, vget s.evr.records 1, vget s.evr.records 8, vget s.evr.records 9)

/-- The kinds of event that an ending raises in its own name: CALL_FAILED, LINE_TEST_DONE, TEST_CALL_DONE. -/
def endingKind (k : EventKind) : Bool := k == 1 || k == 8 || k == 9

@[simp] theorem modEngine_aside (s : State) (e : EngineId) (g : Engine → Engine) : (s.modEngine e g).aside = s.aside := by
  simp [State.aside]

@[simp] theorem setTrunk_aside (s : State) (t : TrunkId) (x : Trunk) : (s.setTrunk t x).aside = s.aside := by
  simp [State.aside]

@[simp] theorem cause_aside (s : State) : s.cause.aside = s.aside := by simp [State.aside, cause_dsc]

@[simp] theorem updateRecord_aside (s : State) (h : Handle) (g : Record → Record) : (s.updateRecord h g).aside = s.aside := by
  simp [State.aside]

@[simp] theorem removeRecord_aside (s : State) (h : Handle) : (s.removeRecord h).aside = s.aside := by simp [State.aside]

theorem raise_aside (s : State) (d : Detail) (hd : endingKind d.kind = false) : (s.raise d).aside = s.aside := by
  have h1 : (1 : EventKind) ≠ d.kind := by rintro h; simp [endingKind, ← h] at hd
  have h8 : (8 : EventKind) ≠ d.kind := by rintro h; simp [endingKind, ← h] at hd
  have h9 : (9 : EventKind) ≠ d.kind := by rintro h; simp [endingKind, ← h] at hd
  simp [State.aside, h1, h8, h9]

@[simp] theorem lateJoin_aside (s : State) (h : Handle) : (s.lateJoin h).aside = s.aside := by simp [State.aside]

@[simp] theorem reportWaiting_aside (s : State) (h : Handle) : (s.reportWaiting h).aside = s.aside := by
  simp [State.reportWaiting]

theorem admit_aside {s s' : State} {k : Key} {c : ClassId} {h : Handle} (hs : s.admitAlert k c = some (s', h)) :
    s'.aside = s.aside := by
  rw [(admit_eq hs).2, reportWaiting_aside]
  rfl

@[simp] theorem internalAlert_aside (s : State) (k : Key) (c : ClassId) : (s.internalAlert k c).aside = s.aside := by
  unfold State.internalAlert State.offer
  repeat' split
  all_goals first
    | rfl
    | (next hs => exact (admit_aside hs).trans (by simp [raise_aside, endingKind, Detail.kind]))
    | simp

@[simp] theorem settleReturn_aside (s : State) (h : Handle) : (s.settleReturn h).aside = s.aside := by
  unfold State.settleReturn
  repeat' split
  all_goals simp

@[simp] theorem uncountedReturn_aside (s : State) (h : Handle) : (s.uncountedReturn h).aside = s.aside := by
  unfold State.uncountedReturn
  repeat' split
  all_goals simp

/-- R17, R18: the events of a counted failure are FALLBACK and STRANDED. -/
theorem fail_events (r : Record) (ce : ClassEntry) (n : Nat) (route : RouteId) :
    ∀ d ∈ (r.fail ce n route).2, d.kind = 2 ∨ d.kind = 3 := by
  unfold Record.fail
  dsimp only
  repeat' split
  all_goals simp [Detail.kind]

theorem raiseAll_aside (ds : List Detail) (h : ∀ d ∈ ds, endingKind d.kind = false) (s : State) :
    (ds.foldl State.raise s).aside = s.aside := by
  induction ds generalizing s with
  | nil => rfl
  | cons d ds ih =>
    rw [List.foldl_cons, ih (fun x hx => h x (List.mem_cons_of_mem _ hx)), raise_aside _ _ (h d List.mem_cons_self)]

@[simp] theorem farEndFailure_aside (s : State) (h : Handle) (route : RouteId) :
    (s.farEndFailure h route).aside = s.aside := by
  unfold State.farEndFailure
  repeat' split
  · dsimp only
    rw [settleReturn_aside, raiseAll_aside, updateRecord_aside]
    intro d hd
    rcases fail_events _ _ _ _ d hd with hk | hk <;> rw [hk] <;> rfl
  · rfl
  · rfl

@[simp] theorem countLineFailure_aside (s : State) (t : TrunkId) : (s.countLineFailure t).aside = s.aside := by
  unfold State.countLineFailure
  dsimp only
  split
  · rw [internalAlert_aside, raise_aside _ _ rfl, setTrunk_aside, setTrunk_aside]
  · simp

@[simp] theorem cardFaultRise_aside (s : State) (t : TrunkId) : (s.cardFaultRise t).aside = s.aside := by
  unfold State.cardFaultRise
  split
  · rw [raise_aside _ _ rfl, setTrunk_aside]
  · rfl

@[simp] theorem testCodeReported_aside (s : State) (t : TrunkId) (code : TestCode) :
    (s.testCodeReported t code).aside = s.aside := by
  unfold State.testCodeReported State.clearLineFailures
  dsimp only
  repeat' split
  all_goals simp [raise_aside, endingKind, Detail.kind]

@[simp] theorem reportGrantable_aside (s b : State) (t : TrunkId) : (b.reportGrantable s t).aside = s.aside := by
  unfold State.reportGrantable
  split <;> simp

@[simp] theorem trunkEntryApplied_aside (s b : State) (t : TrunkId) (role : TrunkRole) :
    (s.trunkEntryApplied b t role).aside = s.aside := by
  unfold State.trunkEntryApplied
  dsimp only
  split <;> simp

/-- A write that a staged write can be: none of the site record or of a class entry is ever staged. -/
def Write.stageable : Write → Bool
  | .site _ => false
  | .cls _ _ => false
  | .route _ _ => true
  | .trunk _ _ => true
  | .tone _ _ => true
  | .cadence _ _ => true

theorem stagedWrite_stageable {x : Tables} {ref : TableRef} {w : Write} (h : x.stagedWrite ref = some w) :
    w.stageable = true ∧ w.ref = ref := by
  cases ref <;> simp [Tables.stagedWrite] at h <;> obtain ⟨_, _, rfl⟩ := h <;> exact ⟨rfl, rfl⟩

theorem tellReaders_aside (s b : State) {w : Write} (hw : w.stageable = true) : (s.tellReaders b w).aside = s.aside := by
  have h : (s.cause.tellOwner b w).aside = s.aside := by
    cases w <;> simp [State.tellOwner, Write.stageable] at hw ⊢
  unfold State.tellReaders State.readinessCause
  dsimp only
  rw [← h]
  split
  · rw [cause_aside]; rfl
  · rfl

@[simp] theorem endUse_aside (s : State) (ref : TableRef) : (s.endUse ref).aside = s.aside := by
  unfold State.endUse
  split
  · next w hw =>
    split
    · rfl
    · obtain ⟨hs, rfl⟩ := stagedWrite_stageable hw
      rw [State.applyStaged, tellReaders_aside _ _ hs, raise_aside _ _ rfl]
      cases w <;> first | rfl | cases hs
  · rfl

@[simp] theorem endUses_aside (s : State) (refs : List TableRef) : (s.endUses refs).aside = s.aside :=
  foldl_keeps State.aside State.endUse endUse_aside refs s

@[simp] theorem releaseTrunk_aside (s : State) (t : TrunkId) (e : EngineId) : (s.releaseTrunk t e).aside = s.aside := by
  unfold State.releaseTrunk
  repeat' split
  all_goals simp

@[simp] theorem stopListening_aside (s : State) (e : EngineId) : (s.stopListening e).aside = s.aside := by
  simp [State.stopListening, State.unload]

@[simp] theorem stopEngine_aside (s : State) (e : EngineId) : (s.stopEngine e).aside = s.aside := by
  simp [State.stopEngine]

/-! ### The causes to select only accumulate -/

@[simp] theorem cause_due (s : State) : s.cause.dsc.selectionsDue = s.dsc.selectionsDue + 1 := rfl

theorem foldl_due {α : Type} (f : State → α → State)
    (h : ∀ s x, s.dsc.selectionsDue ≤ (f s x).dsc.selectionsDue) (l : List α) (s : State) :
    s.dsc.selectionsDue ≤ (l.foldl f s).dsc.selectionsDue := by
  induction l generalizing s with
  | nil => exact Nat.le_refl _
  | cons x xs ih => exact Nat.le_trans (h s x) (ih _)

@[simp] theorem reportWaiting_dsc (s : State) (h : Handle) :
    (s.reportWaiting h).dsc = { s.dsc with selectionsDue := s.dsc.selectionsDue + 1 } := by
  simp [State.reportWaiting, cause_dsc]

theorem admit_due {s s' : State} {k : Key} {c : ClassId} {h : Handle} (hs : s.admitAlert k c = some (s', h)) :
    s'.dsc.selectionsDue = s.dsc.selectionsDue + 1 := by simp [(admit_eq hs).2]

theorem internalAlert_due (s : State) (k : Key) (c : ClassId) :
    s.dsc.selectionsDue ≤ (s.internalAlert k c).dsc.selectionsDue := by
  unfold State.internalAlert State.offer
  repeat' split
  all_goals first
    | (next hs => exact (Nat.le_succ _).trans (admit_due hs).ge)
    | simp

theorem settleReturn_due (s : State) (h : Handle) : s.dsc.selectionsDue ≤ (s.settleReturn h).dsc.selectionsDue := by
  unfold State.settleReturn
  repeat' split
  all_goals simp

theorem uncountedReturn_due (s : State) (h : Handle) : s.dsc.selectionsDue ≤ (s.uncountedReturn h).dsc.selectionsDue := by
  unfold State.uncountedReturn
  repeat' split
  · exact settleReturn_due (s.updateRecord h _) h
  all_goals exact Nat.le_refl _

theorem farEndFailure_due (s : State) (h : Handle) (route : RouteId) :
    s.dsc.selectionsDue ≤ (s.farEndFailure h route).dsc.selectionsDue := by
  unfold State.farEndFailure
  repeat' split
  · dsimp only
    refine Nat.le_trans ?_ (settleReturn_due _ _)
    simp
  all_goals exact Nat.le_refl _

theorem reportGrantable_due (s b : State) (t : TrunkId) :
    s.dsc.selectionsDue ≤ (b.reportGrantable s t).dsc.selectionsDue := by
  unfold State.reportGrantable
  split <;> simp

theorem tellReaders_due (s b : State) (w : Write) : s.dsc.selectionsDue < (s.tellReaders b w).dsc.selectionsDue := by
  have h : s.dsc.selectionsDue < (s.cause.tellOwner b w).dsc.selectionsDue := by
    cases w <;> simp only [State.tellOwner, siteToMonitor_dsc, adjustClass_dsc, cause_due, Nat.lt_succ_self]
    unfold State.trunkEntryApplied
    dsimp only
    refine Nat.lt_of_lt_of_le ?_ (reportGrantable_due _ _ _)
    split <;> simp
  unfold State.tellReaders State.readinessCause
  dsimp only
  split
  · exact Nat.lt_succ_of_lt h
  · exact h

theorem applyStaged_due (s : State) (w : Write) : s.dsc.selectionsDue < (s.applyStaged w).dsc.selectionsDue := by
  have h := tellReaders_due (State.raise { s with tables := s.tables.apply w } (.tableApplied w.ref)) s w
  rw [raise_dsc] at h
  exact h

theorem endUse_due (s : State) (ref : TableRef) : s.dsc.selectionsDue ≤ (s.endUse ref).dsc.selectionsDue := by
  unfold State.endUse
  repeat' split
  · exact Nat.le_refl _
  · exact Nat.le_of_lt (applyStaged_due _ _)
  · exact Nat.le_refl _

theorem endUses_due (s : State) (refs : List TableRef) : s.dsc.selectionsDue ≤ (s.endUses refs).dsc.selectionsDue :=
  foldl_due State.endUse endUse_due refs s

theorem releaseTrunk_due (s : State) (t : TrunkId) (e : EngineId) :
    s.dsc.selectionsDue ≤ (s.releaseTrunk t e).dsc.selectionsDue := by
  unfold State.releaseTrunk
  repeat' split
  · exact Nat.le_trans (by simpa using endUse_due (s.setTrunk _ _) _) (reportGrantable_due _ _ _)
  all_goals simp

/-! ### The trunks an ending touches -/

/-- Ends of uses of entries other than trunk entries leave the trunk records, the queue and every event but TABLE_APPLIED. -/
theorem endUses_trunks {refs : List TableRef} (h : ∀ r ∈ refs, ∀ t, r ≠ .trunk t) (s : State) :
    (s.endUses refs).trunks = s.trunks ∧ (s.endUses refs).tables.trunks = s.tables.trunks ∧
      (s.endUses refs).queue = s.queue ∧
      ∀ k : EventKind, k ≠ 12 → vget (s.endUses refs).evr.records k = vget s.evr.records k := by
  induction refs generalizing s with
  | nil => exact ⟨rfl, rfl, rfl, fun _ _ => rfl⟩
  | cons r rs ih =>
    have hr : (s.endUse r).trunks = s.trunks ∧ (s.endUse r).tables.trunks = s.tables.trunks ∧
        (s.endUse r).queue = s.queue ∧
        ∀ k : EventKind, k ≠ 12 → vget (s.endUse r).evr.records k = vget s.evr.records k := by
      unfold State.endUse
      split
      · next w hw =>
        split
        · exact ⟨rfl, rfl, rfl, fun _ _ => rfl⟩
        · obtain ⟨hs, hwr⟩ := stagedWrite_stageable hw
          have key : ∀ k : EventKind, k ≠ 12 → ∀ x : State,
              vget (x.raise (.tableApplied w.ref)).evr.records k = vget x.evr.records k :=
            fun k hk x => raise_record_other x (.tableApplied w.ref) hk
          cases w
          case site => cases hs
          case cls => cases hs
          case trunk t x => exact absurd hwr.symm (h r List.mem_cons_self t)
          all_goals
            refine ⟨?_, ?_, ?_, fun k hk => ?_⟩
            all_goals simp_all [State.applyStaged, State.tellReaders, State.tellOwner, Tables.apply]
      · exact ⟨rfl, rfl, rfl, fun _ _ => rfl⟩
    have ht := ih (fun x hx => h x (List.mem_cons_of_mem _ hx)) (s.endUse r)
    exact ⟨ht.1.trans hr.1, ht.2.1.trans hr.2.1, ht.2.2.1.trans hr.2.2.1, fun k hk => (ht.2.2.2 k hk).trans (hr.2.2.2 k hk)⟩

theorem releasedRefs_no_trunk (d : Detector) (p : Loading → Bool) : ∀ r ∈ d.releasedRefs p, ∀ t, r ≠ .trunk t := by
  intro r hr t
  simp only [Detector.releasedRefs, List.mem_append, List.mem_map] at hr
  rcases hr with ⟨_, _, rfl⟩ | ⟨_, _, rfl⟩ <;> simp

theorem closingRefs_no_trunk (x : Engine) : ∀ r ∈ x.closingRefs, ∀ t, r ≠ .trunk t := by
  intro r hr t
  simp only [Engine.closingRefs, List.mem_append] at hr
  rcases hr with hr | hr
  · split at hr
    · simp at hr; simp [hr]
    · simp at hr
  · exact releasedRefs_no_trunk _ _ r hr t

/-- R145: ends of uses of tone and cadence entries leave the route entries. -/
theorem endUses_routes {refs : List TableRef} (h : ∀ r ∈ refs, (∃ t, r = .tone t) ∨ ∃ c, r = .cadence c) (s : State) :
    (s.endUses refs).tables.routes = s.tables.routes := by
  induction refs generalizing s with
  | nil => rfl
  | cons r rs ih =>
    refine (ih (fun x hx => h x (List.mem_cons_of_mem _ hx)) (s.endUse r)).trans ?_
    unfold State.endUse
    split
    · next w hw =>
      split
      · rfl
      · obtain ⟨-, hwr⟩ := stagedWrite_stageable hw
        rcases h r List.mem_cons_self with ⟨t, rfl⟩ | ⟨c, rfl⟩ <;> cases w <;> cases hwr <;>
          simp [State.applyStaged, State.tellReaders, State.tellOwner, Tables.apply]
    · rfl

theorem releasedRefs_tones (d : Detector) (p : Loading → Bool) :
    ∀ r ∈ d.releasedRefs p, (∃ t, r = .tone t) ∨ ∃ c, r = .cadence c := by
  intro r hr
  simp only [Detector.releasedRefs, List.mem_append, List.mem_map] at hr
  rcases hr with ⟨t, _, rfl⟩ | ⟨c, _, rfl⟩
  · exact .inl ⟨t, rfl⟩
  · exact .inr ⟨c, rfl⟩

/-! ### The engine that stops listening -/

theorem release_release (d : Detector) (p : Loading → Bool) :
    (d.release p).release (fun _ => true) = d.release fun _ => true := by
  simp only [Detector.release, List.map_map]
  congr 1
  refine List.map_congr_left fun l _ => ?_
  simp only [Function.comp]
  split <;> split <;> simp_all [Loading.live]

/-- R56, R80: what the release of loadings leaves: the engine with them STOPPING and their reports discarded; no trunk, no other
engine, and of the tables those of tone and cadence entries alone. -/
theorem unload_spec (s : State) (e : EngineId) (p : Loading → Bool) :
    SameButToneTables s (s.unload e p) ∧ (s.unload e p).trunks = s.trunks ∧
      (s.unload e p).engine e =
        { s.engine e with
          detector := (s.engine e).detector.release p
          reports := (s.engine e).reports.filter fun r =>
            !((s.engine e).detector.loadings.any fun l => l.live && p l && l.tone == r.tone) } ∧
      (∀ f, f ≠ e → (s.unload e p).engine f = s.engine f) := by
  have ha : (s.unload e p).aside = s.aside := by simp [State.unload]
  simp only [State.aside, Prod.mk.injEq] at ha
  obtain ⟨⟨h1, h2, h3, h4, h5⟩, ⟨h6, h7, h8, h9, h10, h11⟩, ⟨h12, h13, h14, h15⟩, h16, -⟩ := ha
  have ht := endUses_trunks (releasedRefs_no_trunk (s.engine e).detector p)
  have hr := endUses_routes (releasedRefs_tones (s.engine e).detector p)
  refine ⟨⟨⟨h1, h2, h3, h4, h5⟩, ?_, h10, h11, ?_, ?_, h6, h7, h8, h9, h12, h13, h14, h15, ?_, h16⟩, ?_, ?_, ?_⟩
  · simp only [State.unload, (ht _).2.2.1, modEngine_queue]
  · simp only [State.unload, hr, modEngine_tables]
  · simp only [State.unload, (ht _).2.1, modEngine_tables]
  · intro k hk
    simp only [State.unload, (ht _).2.2.2 k hk, modEngine_evr]
  · simp only [State.unload, (ht _).1, modEngine_trunks]
  · simp only [State.unload]
    rw [engine_of_engines (endUses_engines _ _)]
    simp
  · intro f hf
    simp only [State.unload]
    rw [engine_of_engines (endUses_engines _ _)]
    simp [hf]

/-- A change of an engine before a step that leaves everything but the tone tables. -/
theorem SameButToneTables.of_modEngine {s t : State} {e : EngineId} {f : Engine → Engine}
    (h : SameButToneTables (s.modEngine e f) t) : SameButToneTables s t := by
  obtain ⟨⟨a1, a2, a3, a4, a5⟩, a6, a7, a8, a9, a10, a11, a12, a13, a14, a15, a16, a17, a18, a19, a20⟩ := h
  simp only [modEngine_pending, modEngine_resetLow, modEngine_clock, modEngine_hwi, modEngine_ccp, modEngine_queue,
    modEngine_tables, modEngine_dsc, modEngine_cmu, modEngine_evr] at *
  exact ⟨⟨a1, a2, a3, a4, a5⟩, a6, a7, a8, a9, a10, a11, a12, a13, a14, a15, a16, a17, a18, a19, a20⟩

/-- R56, R80: the engine that has stopped listening, and what else has changed. -/
theorem stopListening_spec (s : State) (e : EngineId) :
    SameButToneTables s (s.stopListening e) ∧ (s.stopListening e).trunks = s.trunks ∧
      (s.stopListening e).engine e =
        { s.engine e with listening := [], reports := [], detector := (s.engine e).detector.release fun _ => true } ∧
      (∀ f, f ≠ e → (s.stopListening e).engine f = s.engine f) := by
  obtain ⟨h1, h2, h3, h4⟩ := unload_spec (s.modEngine e fun x => { x with listening := [], reports := [] }) e fun _ => true
  refine ⟨h1.of_modEngine, by simpa [State.stopListening] using h2, by simpa [State.stopListening] using h3, fun f hf => ?_⟩
  simpa [State.stopListening, hf] using h4 f hf

end Sys2Proof.Machine
end

