-- ==== Sys2Proof/Laws/Uses.lean ====
section
/-! SUPPORT. The ends of uses of table entries (R143, R145): what a release of loadings and CLOSING leave of the tables and of
TABLE_APPLIED. -/

namespace Sys2Proof.Machine

/-! ### Staged writes applied -/

theorem settled_false {α : Type} (x : Staged α) : x.settled false = x := by
  unfold Staged.settled
  split <;> rfl

theorem settled_none {α : Type} {x : Staged α} (h : x.staged = none) (b : Bool) : x.settled b = x := by
  simp [Staged.settled, h]

theorem settled_idle {α : Type} {x : Staged α} {b : Bool} (h : b = true → x.staged = none) : x.settled b = x := by
  cases b
  · exact settled_false x
  · exact settled_none (h rfl) true

theorem settled_some {α : Type} {x : Staged α} {w : α} (h : x.staged = some w) : x.settled true = ⟨some w, none⟩ := by
  simp [Staged.settled, h]

theorem settled_settled {α : Type} (x : Staged α) (a b : Bool) : (x.settled a).settled b = x.settled (a || b) := by
  cases h : x.staged with
  | none => simp [settled_none h]
  | some w => cases a <;> cases b <;> simp [Staged.settled, h]

/-- TABLE_APPLIED, if it is pending, stays pending. -/
def KeepsTold (s t : State) : Prop :=
  (vget s.evr.records 12).pending = true → (vget t.evr.records 12).pending = true

theorem KeepsTold.refl (s : State) : KeepsTold s s := id

theorem KeepsTold.trans {s m t : State} (h : KeepsTold s m) (k : KeepsTold m t) : KeepsTold s t := k ∘ h

theorem keepsTold_of_evr {s t : State} (h : t.evr.records = s.evr.records) : KeepsTold s t := by
  unfold KeepsTold
  rw [h]
  exact id

theorem raise_keepsTold (s : State) (d : Detail) : KeepsTold s (s.raise d) := by
  intro h
  by_cases hk : (12 : EventKind) = d.kind
  · rw [hk, raise_record_same]; rfl
  · rwa [raise_record_other _ _ hk]

theorem foldl_keepsTold {α : Type} (g : State → α → State) (hg : ∀ s x, KeepsTold s (g s x)) (l : List α) (s : State) :
    KeepsTold s (l.foldl g s) := by
  induction l generalizing s with
  | nil => exact KeepsTold.refl s
  | cons x xs ih => exact (hg s x).trans (ih _)

/-! ### One end of use after another -/

theorem UsesEnded.refl (s : State) {p : TableRef → Bool} (hp : ∀ ref, p ref = false) : UsesEnded p s s :=
  ⟨fun _ => by rw [hp, settled_false], fun _ => by rw [hp, settled_false], fun _ => by rw [hp, settled_false],
    fun _ => by rw [hp, settled_false], fun ref _ _ h => by rw [hp] at h; cases h⟩

/-- The staged write of an entry is what its record says. -/
theorem stagedWrite_settled {p : TableRef → Bool} {s t : State} (h : UsesEnded p s t) {ref : TableRef} (hp : p ref = false) :
    t.tables.stagedWrite ref = s.tables.stagedWrite ref := by
  cases ref with
  | site => rfl
  | cls c => rfl
  | route r => simp only [Tables.stagedWrite, h.routes, hp, settled_false]
  | trunk u => simp only [Tables.stagedWrite, h.trunks, hp, settled_false]
  | tone k => simp only [Tables.stagedWrite, h.tones, hp, settled_false]
  | cadence k => simp only [Tables.stagedWrite, h.cadences, hp, settled_false]

theorem UsesEnded.trans {p q : TableRef → Bool} {s m t : State} (h : UsesEnded p s m) (k : UsesEnded q m t)
    (hk : KeepsTold m t) : UsesEnded (fun ref => p ref || q ref) s t := by
  refine ⟨fun r => ?_, fun r => ?_, fun r => ?_, fun r => ?_, fun ref w hw hpq => ?_⟩
  · rw [k.routes, h.routes, settled_settled]
  · rw [k.trunks, h.trunks, settled_settled]
  · rw [k.tones, h.tones, settled_settled]
  · rw [k.cadences, h.cadences, settled_settled]
  · cases hp : p ref with
    | true => exact hk (h.told ref w hw hp)
    | false => exact k.told ref w ((stagedWrite_settled h hp).trans hw) (by simpa [hp] using hpq)

theorem UsesEnded.congr {p q : TableRef → Bool} {s t : State} (h : UsesEnded p s t) (e : ∀ ref, q ref = p ref) :
    UsesEnded q s t := by rw [show q = p from funext e]; exact h

/-- A change that leaves the staged entries and TABLE_APPLIED ends no use. -/
theorem UsesEnded.of_tables {p : TableRef → Bool} {s s' t t' : State} (h : UsesEnded p s t) (hs : s'.tables = s.tables)
    (ht : t'.tables = t.tables) (hk : KeepsTold t t') : UsesEnded p s' t' := by
  obtain ⟨h1, h2, h3, h4, h5⟩ := h
  refine ⟨?_, ?_, ?_, ?_, ?_⟩ <;> rw [hs] <;> try rw [ht]
  · exact h1
  · exact h2
  · exact h3
  · exact h4
  · exact fun ref w hw hp => hk (h5 ref w hw hp)

theorem internalAlert_keepsTold (s : State) (k : Key) (c : ClassId) : KeepsTold s (s.internalAlert k c) := by
  have enters : ∀ {m m' : State} {h : Handle}, m.admitAlert k c = some (m', h) → KeepsTold m m' := by
    intro m m' h hm
    rw [(admit_eq hm).2]
    exact keepsTold_of_evr (by simp)
  unfold State.internalAlert State.offer
  repeat' split
  all_goals first
    | exact KeepsTold.refl s
    | (next hs => exact enters hs)
    | (next hs => exact KeepsTold.trans (m := (s.removeRecord _).raise _) (raise_keepsTold (s.removeRecord _) _) (enters hs))
    | exact keepsTold_of_evr (by simp)

theorem farEndFailure_keepsTold (s : State) (h : Handle) (route : RouteId) : KeepsTold s (s.farEndFailure h route) := by
  unfold State.farEndFailure
  repeat' split
  · next r _ _ =>
    exact KeepsTold.trans (foldl_keepsTold State.raise raise_keepsTold _ (s.updateRecord h _))
      (keepsTold_of_evr (by rw [settleReturn_evr]))
  all_goals exact KeepsTold.refl s

theorem cardFaultRise_keepsTold (s : State) (t : TrunkId) : KeepsTold s (s.cardFaultRise t) := by
  unfold State.cardFaultRise
  split
  · exact raise_keepsTold (s.setTrunk t _) _
  · exact KeepsTold.refl s

theorem reportGrantable_keepsTold (b s : State) (t : TrunkId) : KeepsTold s (b.reportGrantable s t) := by
  unfold State.reportGrantable
  split <;> exact KeepsTold.refl s

theorem tellReaders_keepsTold (s b : State) {w : Write} (hw : w.stageable = true) : KeepsTold s (s.tellReaders b w) := by
  have h : KeepsTold s (s.cause.tellOwner b w) := by
    cases w with
    | site => cases hw
    | cls => cases hw
    | trunk u en =>
      unfold State.tellOwner State.trunkEntryApplied
      dsimp only
      refine KeepsTold.trans ?_ (reportGrantable_keepsTold _ _ _)
      split
      · exact cardFaultRise_keepsTold (s.cause.setTrunk u _) u
      · exact KeepsTold.refl s
    | _ => exact KeepsTold.refl s
  unfold State.tellReaders State.readinessCause
  dsimp only
  split <;> exact h

/-- R145: the end of one use: the staged write of the entry is applied if no one uses it any more. -/
theorem endUse_spec (s : State) (ref : TableRef) :
    UsesEnded (fun r => r == ref && !s.inUse ref) s (s.endUse ref) ∧ KeepsTold s (s.endUse ref) := by
  unfold State.endUse
  split
  · next w hw =>
    split
    · next hu => exact ⟨UsesEnded.refl s (by simp [hu]), KeepsTold.refl s⟩
    · next hu =>
      obtain ⟨hs, hr⟩ := stagedWrite_stageable hw
      have hu' : s.inUse ref = false := by simpa using hu
      have ht : (s.applyStaged w).tables = s.tables.apply w := by simp [State.applyStaged]
      have hk : KeepsTold (({ s with tables := s.tables.apply w } : State).raise (.tableApplied w.ref)) (s.applyStaged w) :=
        tellReaders_keepsTold _ s hs
      have htold : (vget (s.applyStaged w).evr.records 12).pending = true := by
        refine hk ?_
        show (vget (State.raise _ _).evr.records (Detail.kind (.tableApplied w.ref))).pending = true
        rw [raise_record_same]
        rfl
      refine ⟨⟨fun r => ?_, fun r => ?_, fun r => ?_, fun r => ?_, fun _ _ _ _ => htold⟩, fun _ => htold⟩
      all_goals
        rw [ht]
        subst hr
        rw [hu']
        cases w <;> simp only [Write.stageable, Bool.false_eq_true] at hs
      all_goals first
        | exact (settled_false _).symm
        | (next k x =>
            simp only [Tables.apply, Write.ref, vget_vput]
            split
            · next h =>
              subst h
              simp only [Tables.stagedWrite, Write.ref, Option.map_eq_some_iff] at hw
              obtain ⟨y, hy, hyx⟩ := hw
              cases hyx
              simp [settled_some hy]
            · next h =>
              refine (settled_idle fun hb => absurd ?_ h).symm
              simp only [Bool.not_false, Bool.and_true, beq_iff_eq, TableRef.route.injEq, TableRef.trunk.injEq,
                TableRef.tone.injEq, TableRef.cadence.injEq] at hb
              exact hb)
  · next hw =>
    have idle : ∀ r : TableRef, (r == ref && !s.inUse ref) = true → s.tables.stagedWrite r = none := by
      intro r hr
      simp only [Bool.and_eq_true, beq_iff_eq] at hr
      rw [hr.1]
      exact hw
    refine ⟨⟨fun r => (settled_idle fun h => ?_).symm, fun r => (settled_idle fun h => ?_).symm,
      fun r => (settled_idle fun h => ?_).symm, fun r => (settled_idle fun h => ?_).symm,
      fun r w h1 h2 => by rw [idle r h2] at h1; cases h1⟩, KeepsTold.refl s⟩
    all_goals simpa [Tables.stagedWrite] using idle _ h

/-- Whether an entry other than a trunk entry is in use depends on the engines alone. -/
theorem inUse_of_engines {s m : State} (h : m.engines = s.engines) {ref : TableRef} (hr : ∀ t, ref ≠ .trunk t) :
    m.inUse ref = s.inUse ref := by
  have he : m.engine = s.engine := funext fun e => engine_of_engines h e
  cases ref with
  | trunk t => exact absurd rfl (hr t)
  | _ => simp [State.inUse, State.routeInUse, State.toneInUse, State.cadenceInUse, he]

/-- R145: the ends of uses that one release reports. -/
theorem endUses_spec {refs : List TableRef} (h : ∀ r ∈ refs, ∀ t, r ≠ .trunk t) (s : State) :
    UsesEnded (fun r => refs.contains r && !s.inUse r) s (s.endUses refs) ∧ KeepsTold s (s.endUses refs) := by
  induction refs generalizing s with
  | nil => exact ⟨UsesEnded.refl s (by simp), KeepsTold.refl s⟩
  | cons r rs ih =>
    obtain ⟨h1, k1⟩ := endUse_spec s r
    obtain ⟨h2, k2⟩ := ih (fun x hx => h x (List.mem_cons_of_mem _ hx)) (s.endUse r)
    refine ⟨(h1.trans h2 k2).congr fun ref => ?_, k1.trans k2⟩
    by_cases hr : ref ∈ rs
    · have hi : (s.endUse r).inUse ref = s.inUse ref :=
        inUse_of_engines (endUse_engines s r) (h ref (List.mem_cons_of_mem _ hr))
      by_cases hq : ref = r
      · subst hq; simp [hr, hi]
      · simp [hr, hi, hq]
    · by_cases hq : ref = r
      · subst hq; simp [hr]
      · simp [hr, hq]

/-! ### The release of loadings -/

theorem released_contains (d : Detector) (p : Loading → Bool) (ref : TableRef) :
    (d.releasedRefs p).contains ref =
      match ref with
      | .tone k => d.loadings.any fun l => l.live && p l && l.tone == k
      | .cadence k => d.loadings.any fun l => l.live && p l && l.cadence == k
      | _ => false := by
  rw [Bool.eq_iff_iff]
  cases ref <;> simp [Detector.releasedRefs, and_assoc]

/-- The loadings still live after a release are those that it did not name. -/
theorem release_live (d : Detector) (p q : Loading → Bool) :
    ((d.release p).loadings.any fun l => l.live && q l) = d.loadings.any fun l => l.live && !p l && q l := by
  rw [Detector.release, List.any_map]
  congr 1
  funext l
  simp only [Function.comp]
  split
  · next h => simp only [Bool.and_eq_true] at h; simp [Loading.live, h.2]
  · next h => cases hl : l.live <;> simp_all

/-- An engine that has released everything uses no tone or cadence entry. -/
theorem released_not_live (d : Detector) (q : Loading → Bool) :
    ((d.release fun _ => true).loadings.any fun l => l.live && q l) = false := by simp [release_live]

theorem any_engines (p : EngineId → Bool) (e : EngineId) : engineIds.any p = (p e || p (other e)) := by
  cases e <;> simp [engineIds, other, Bool.or_comm]

theorem other_ne (e : EngineId) : other e ≠ e := by cases e <;> decide

/-- R80, R145: the entries whose use a release ends: those of a loading it names that no loading that stays uses, in either
detector. -/
def State.unloads (s : State) (e : EngineId) (p : Loading → Bool) : TableRef → Bool
  | .tone k => ((s.engine e).detector.loadings.any fun l => l.live && p l && l.tone == k) &&
      !((s.engine e).detector.loadings.any fun l => l.live && !p l && l.tone == k) && !(s.engine (other e)).names (.tone k)
  | .cadence k => ((s.engine e).detector.loadings.any fun l => l.live && p l && l.cadence == k) &&
      !((s.engine e).detector.loadings.any fun l => l.live && !p l && l.cadence == k) &&
      !(s.engine (other e)).names (.cadence k)
  | .site => false
  | .cls _ => false
  | .route _ => false
  | .trunk _ => false

/-- R80, R145: a release of loadings ends the uses of the entries that no loading that stays uses. -/
theorem unload_uses (s : State) (e : EngineId) (p : Loading → Bool) :
    UsesEnded (s.unloads e p) s (s.unload e p) ∧ KeepsTold s (s.unload e p) := by
  obtain ⟨m, hm⟩ : ∃ m : State, m = s.modEngine e fun x =>
    { x with
      detector := x.detector.release p
      reports := x.reports.filter fun r => !(x.detector.loadings.any fun l => l.live && p l && l.tone == r.tone) } := ⟨_, rfl⟩
  have hs : s.unload e p = m.endUses ((s.engine e).detector.releasedRefs p) := by rw [hm]; rfl
  have he : (m.engine e).detector = (s.engine e).detector.release p := by rw [hm]; simp
  have ho : m.engine (other e) = s.engine (other e) := by rw [hm]; simp [other_ne]
  obtain ⟨h, k⟩ := endUses_spec (releasedRefs_no_trunk (s.engine e).detector p) m
  rw [hs]
  refine ⟨(h.of_tables (s' := s) (by rw [hm]; simp) rfl (KeepsTold.refl _)).congr fun ref => ?_,
    (keepsTold_of_evr (by rw [hm]; simp)).trans k⟩
  rw [released_contains]
  cases ref with
  | tone k => simp only [State.unloads, State.inUse, State.toneInUse, any_engines _ e, he, release_live, ho, Engine.names,
      Bool.not_or, Bool.and_assoc]
  | cadence k => simp only [State.unloads, State.inUse, State.cadenceInUse, any_engines _ e, he, release_live, ho, Engine.names,
      Bool.not_or, Bool.and_assoc]
  | _ => simp [State.unloads]

/-- What an engine listens for, and its reports, are no part of a use. -/
theorem unloads_listening (s : State) (e : EngineId) (l : List (ToneRole × ToneId)) (r : Engine → List Report)
    (p : Loading → Bool) (ref : TableRef) :
    (s.modEngine e fun x => { x with listening := l, reports := r x }).unloads e p ref = s.unloads e p ref := by
  cases ref <;> simp [State.unloads, other_ne]

/-- R80, R145: an engine leaves a listening step: the uses of its loadings end. -/
theorem stopListening_uses (s : State) (e : EngineId) :
    UsesEnded (s.lastLoaded e) s (s.stopListening e) ∧ KeepsTold s (s.stopListening e) := by
  obtain ⟨h, k⟩ := unload_uses (s.modEngine e fun x => { x with listening := [], reports := [] }) e fun _ => true
  refine ⟨(h.of_tables (s' := s) (by simp) rfl (KeepsTold.refl _)).congr fun ref => ?_,
    (keepsTold_of_evr (by simp)).trans k⟩
  rw [unloads_listening s e [] fun _ => []]
  have no : ∀ ls : List Loading, (ls.any fun _ => false) = false := fun ls => by simp
  cases ref <;> simp [State.unloads, State.lastLoaded, Engine.names, no]

/-- R63, R145: an engine keeps the loading of one entry alone: the uses of its other loadings end. -/
theorem keepOnly_uses (s : State) (e : EngineId) (role : ToneRole) (tone : ToneId) :
    UsesEnded (s.lastReleased e tone) s (s.keepOnly e role tone) ∧ KeepsTold s (s.keepOnly e role tone) := by
  obtain ⟨h, k⟩ := unload_uses (s.modEngine e fun x => { x with listening := [(role, tone)] }) e fun l => l.tone != tone
  refine ⟨(h.of_tables (s' := s) (by simp) rfl (KeepsTold.refl _)).congr fun ref => ?_,
    (keepsTold_of_evr (by simp)).trans k⟩
  rw [unloads_listening s e [(role, tone)] Engine.reports]
  have split : ∀ (ls : List Loading) (a b : Loading → Bool),
      (ls.any fun l => l.live && b l) = ((ls.any fun l => l.live && a l && b l) || ls.any fun l => l.live && !a l && b l) := by
    intro ls a b
    induction ls with
    | nil => rfl
    | cons l ls ih =>
      simp only [List.any_cons, ih]
      cases l.live <;> cases a l <;> cases b l <;> simp
  cases ref with
  | tone k =>
    have hk : ∀ ls : List Loading, (ls.any fun l => l.live && (l.tone != tone) && l.tone == k) =
        (k != tone && ls.any fun l => l.live && l.tone == k) := by
      intro ls
      rw [Bool.eq_iff_iff]
      simp only [List.any_eq_true, Bool.and_eq_true, bne_iff_ne, beq_iff_eq]
      constructor
      · rintro ⟨l, hl, ⟨h1, h2⟩, rfl⟩; exact ⟨h2, l, hl, h1, rfl⟩
      · rintro ⟨h2, l, hl, h1, rfl⟩; exact ⟨l, hl, ⟨h1, h2⟩, rfl⟩
    have hn : ∀ ls : List Loading, k ≠ tone → (ls.any fun l => l.live && !(l.tone != tone) && l.tone == k) = false := by
      intro ls hne
      simp only [List.any_eq_false, Bool.and_eq_true, Bool.not_eq_true', bne_eq_false_iff_eq, beq_iff_eq]
      rintro l - ⟨⟨-, h1⟩, h2⟩
      exact hne (h2.symm.trans h1)
    simp only [State.unloads, State.lastReleased, State.lastLoaded, Engine.names, hk]
    by_cases hne : k = tone
    · subst hne; simp
    · rw [hn _ hne, Bool.not_false, Bool.and_true, Bool.and_assoc]
  | cadence k =>
    simp only [State.unloads, State.lastReleased, State.lastLoaded, Engine.names,
      split (s.engine e).detector.loadings (fun l => l.tone != tone) (fun l => l.cadence == k), bne, Bool.not_not]
    cases (s.engine e).detector.loadings.any fun l => l.live && (l.tone == tone) && l.cadence == k <;> simp
  | _ => rfl

/-! ### The release of a trunk, and CLOSING -/

theorem officeState_not_inUse (s m : State) (t : TrunkId) (x : Trunk) :
    (m.setTrunk t (s.officeState t x)).inUse (.trunk t) = false := by
  simp only [State.inUse, State.trunkInUse, trunk_setTrunk_same]
  unfold State.officeState
  cases s.officeUse t <;> rfl

/-- R107: a release from WARNING ends the use of the trunk's entry. -/
theorem releaseTrunk_uses (s : State) (t : TrunkId) (e : EngineId) :
    UsesEnded (fun ref => ref == .trunk t && ((s.trunk t).holder == some e && (s.trunk t).state == .warning)) s
      (s.releaseTrunk t e) ∧ KeepsTold s (s.releaseTrunk t e) := by
  unfold State.releaseTrunk
  split
  · next hh =>
    split
    · next hw =>
      obtain ⟨h, k⟩ := endUse_spec (s.setTrunk t (s.officeState t { s.trunk t with holder := none, warnTimer := none }))
        (.trunk t)
      rw [officeState_not_inUse] at h
      refine ⟨UsesEnded.congr (h.of_tables rfl (reportGrantable_tables _ _ _) (reportGrantable_keepsTold _ _ _))
        fun ref => ?_, KeepsTold.trans k (reportGrantable_keepsTold _ _ _)⟩
      simp [hh, hw]
    · next hw =>
      have h : UsesEnded (fun _ => false) s (s.setTrunk t { s.trunk t with
          state := .cooldown, holder := none, guard := .running (ticksOfMs s.siteOr.releaseGuard) }) :=
        (UsesEnded.refl s (p := fun _ => false) fun _ => rfl).of_tables rfl rfl (KeepsTold.refl _)
      exact ⟨h.congr fun ref => by simp [hw], KeepsTold.refl s⟩
    · next hw _ => exact ⟨UsesEnded.refl s fun ref => by simpa using fun _ _ => hw, KeepsTold.refl s⟩
  · next hh => exact ⟨UsesEnded.refl s fun ref => by simp [hh], KeepsTold.refl s⟩

/-- R73, R145: CLOSING ends the uses of the engine that goes through it. -/
theorem close_uses (e : EngineId) (s : State) : UsesEnded (s.lastUse e) s (s.close e) ∧ KeepsTold s (s.close e) := by
  obtain ⟨s1, h1⟩ : ∃ s1 : State, s1 = s.modEngine e fun x =>
    { x with phase := .closing, step := .none, seize := false, seizeStart := none, phaseTimer := none,
             lossTimer := none } := ⟨_, rfl⟩
  obtain ⟨s2, h2⟩ : ∃ s2 : State, s2 = (match (s.engine e).work.trunk with
    | some t => s1.releaseTrunk t e
    | none => s1) := ⟨_, rfl⟩
  obtain ⟨m, hm⟩ : ∃ m : State, m = s2.modEngine e fun x => { x with detector := x.detector.release fun _ => true } :=
    ⟨_, rfl⟩
  have hc : (s.close e).tables = (m.endUses (s.engine e).closingRefs).tables ∧
      (s.close e).evr = (m.endUses (s.engine e).closingRefs).evr := by
    have hz : s.close e = ({ (m.endUses (s.engine e).closingRefs).modEngine e Engine.idled with
        dsc := { ((m.endUses (s.engine e).closingRefs).modEngine e Engine.idled).dsc with
          startOrder := ((m.endUses (s.engine e).closingRefs).modEngine e Engine.idled).dsc.startOrder.filter fun i => i != e
          marked := if ((m.endUses (s.engine e).closingRefs).modEngine e Engine.idled).dsc.marked = some e then none
            else ((m.endUses (s.engine e).closingRefs).modEngine e Engine.idled).dsc.marked } } : State).cause := by
      rw [hm, h2, h1]
      rfl
    rw [hz]
    exact ⟨by simp, by simp⟩
  have hu : UsesEnded (fun ref => match ref with
      | .trunk u => (s.engine e).work.trunk == some u && (s.trunk u).holder == some e && (s.trunk u).state == .warning
      | _ => false) s s2 ∧ KeepsTold s s2 := by
    have hb : s1.tables = s.tables ∧ KeepsTold s s1 := by subst h1; exact ⟨by simp, keepsTold_of_evr (by simp)⟩
    subst h2
    split
    · next t ht =>
      obtain ⟨h, k⟩ := releaseTrunk_uses s1 t e
      have htr : s1.trunk = s.trunk := by subst h1; funext u; simp
      refine ⟨(h.of_tables hb.1.symm rfl (KeepsTold.refl _)).congr fun ref => ?_, hb.2.trans k⟩
      rw [htr]
      cases ref with
      | trunk u =>
        by_cases h : u = t
        · subst h; simp [ht]
        · have h' : ¬t = u := fun x => h x.symm
          have hb : (t == u) = false := by simpa using h'
          have hc : (TableRef.trunk u == TableRef.trunk t) = false := by simpa using h
          simp only [ht, Option.some_beq_some, hb, hc, Bool.false_and]
      | _ => simp
    · next ht =>
      refine ⟨(UsesEnded.refl s1 (p := fun _ => false) fun _ => rfl).of_tables hb.1.symm rfl (KeepsTold.refl _) |>.congr
        fun ref => ?_, hb.2⟩
      cases ref <;> simp [ht]
  have he2 : s2.engines = s1.engines := by subst h2; split <;> simp
  have hme : (m.engine e).phase = .closing ∧ (m.engine e).detector = (s.engine e).detector.release fun _ => true := by
    subst hm
    rw [engine_modEngine_same, engine_of_engines he2, h1, engine_modEngine_same]
    exact ⟨rfl, rfl⟩
  have hmo : m.engine (other e) = s.engine (other e) := by
    subst hm
    rw [engine_modEngine_other _ _ (other_ne e), engine_of_engines he2, h1, engine_modEngine_other _ _ (other_ne e)]
  have hmt : m.tables = s2.tables ∧ KeepsTold s2 m := by subst hm; exact ⟨by simp, keepsTold_of_evr (by simp)⟩
  obtain ⟨h, k⟩ := endUses_spec (closingRefs_no_trunk (s.engine e)) m
  refine ⟨((hu.1.of_tables rfl hmt.1 hmt.2).trans h k |>.of_tables rfl hc.1 (keepsTold_of_evr (by rw [hc.2]))).congr
    fun ref => ?_, (hu.2.trans hmt.2).trans (k.trans (keepsTold_of_evr (by rw [hc.2])))⟩
  have hcr : (s.engine e).closingRefs.contains ref = (s.engine e).names ref := by
    unfold Engine.closingRefs
    rw [List.contains_append, released_contains]
    cases hw : (s.engine e).work.call with
    | none => cases ref <;> simp [Engine.names, hw]
    | some c =>
      rw [Bool.eq_iff_iff]
      cases ref <;> simp only [Engine.names, hw, List.contains_cons, List.contains_nil, Bool.or_false, beq_iff_eq,
        TableRef.route.injEq, reduceCtorEq, Bool.or_eq_true, false_or, Bool.false_eq_true, Bool.and_true]
      exact eq_comm
  rw [hcr]
  cases ref with
  | route r =>
    simp [State.lastUse, State.inUse, State.routeInUse, any_engines _ e, hme.1, hmo, Engine.names] <;> rfl
  | tone k =>
    simp [State.lastUse, State.lastLoaded, State.inUse, State.toneInUse, any_engines _ e, hme.2, released_not_live, hmo,
      Engine.names]
  | cadence k =>
    simp [State.lastUse, State.lastLoaded, State.inUse, State.cadenceInUse, any_engines _ e, hme.2, released_not_live, hmo,
      Engine.names]
  | _ => simp [State.lastUse, Engine.names]

end Sys2Proof.Machine
end

