-- ==== Sys2Proof/Laws/Flags.lean ====
section
/-! SUPPORT. The count of line failures and the faulted flag of a trunk, with the two events that tell of them: what counts a
failure (R113), what takes a line test's code (R115), and that nothing else on the way to CLOSING, nor CLOSING itself, changes
them. -/

namespace Sys2Proof.Machine

/-- The count and the flag of a trunk, and the event records TRUNK_FAULT and TRUNK_CLEARED. -/
def State.flags (s : State) (u : TrunkId) :=
  ((s.trunk u).failures, (s.trunk u).faulted, vget s.evr.records 5, vget s.evr.records 6)

theorem FlagsKept.of_flags {u : TrunkId} {s t : State} (h : t.flags u = s.flags u) : FlagsKept u s t := by
  simp only [State.flags, Prod.mk.injEq] at h
  exact ⟨h.1, h.2.1, h.2.2.1, h.2.2.2⟩

theorem FailureCounted.of_flags {u : TrunkId} {s t s' t' : State} (hs : s'.flags u = s.flags u) (ht : t'.flags u = t.flags u)
    (h : FailureCounted u s t) : FailureCounted u s' t' := by
  simp only [State.flags, Prod.mk.injEq] at hs ht
  obtain ⟨s1, s2, s3, s4⟩ := hs
  obtain ⟨t1, t2, t3, t4⟩ := ht
  obtain ⟨h1, h2, h3, h4⟩ := h
  exact ⟨by rw [t1, s1, h1], by rw [t2, t3, s1, s2, s3]; exact h2, by rw [t2, t3, s1, s2, s3]; exact h3, by rw [t4, s4, h4]⟩

theorem TestCodeTaken.of_flags {u : TrunkId} {code : TestCode} {s t s' t' : State} (hs : s'.flags u = s.flags u)
    (ht : t'.flags u = t.flags u) (hw : s'.hwi = s.hwi) (h : TestCodeTaken u code s t) : TestCodeTaken u code s' t' := by
  have hd : s'.debounced u .f = s.debounced u .f := by simp only [State.debounced, hw]
  simp only [State.flags, Prod.mk.injEq] at hs ht
  obtain ⟨s1, s2, s3, s4⟩ := hs
  obtain ⟨t1, t2, t3, t4⟩ := ht
  obtain ⟨h1, h2, h3⟩ := h
  refine ⟨by rw [t1, t2, t3, t4, s2, s3, s4, hd]; exact h1, by rw [t1, t2, t3, t4, s1, s2, s3, s4]; exact h2, fun hc => ?_⟩
  obtain ⟨k1, k2, k3, k4⟩ := h3 hc
  exact ⟨by rw [t1, s1, k1], by rw [t2, s2, k2], by rw [t3, s3, k3], by rw [t4, s4, k4]⟩

/-! ### What leaves the flags -/

theorem flags_of_trunks {s t : State} {u : TrunkId} (ht : t.trunks = s.trunks) (he : t.evr = s.evr) : t.flags u = s.flags u := by
  simp only [State.flags, trunk_of_trunks ht, he]

@[simp] theorem modEngine_flags (s : State) (e : EngineId) (g : Engine → Engine) (u : TrunkId) :
    (s.modEngine e g).flags u = s.flags u := flags_of_trunks (by simp) (by simp)

theorem raise_flags (s : State) (d : Detail) (u : TrunkId) (h : d.kind ≠ 5 ∧ d.kind ≠ 6) : (s.raise d).flags u = s.flags u := by
  simp only [State.flags, raise_trunk, raise_record_other s d (Ne.symm h.1), raise_record_other s d (Ne.symm h.2)]

theorem raiseAll_flags (ds : List Detail) (u : TrunkId) (h : ∀ d ∈ ds, d.kind ≠ 5 ∧ d.kind ≠ 6) (s : State) :
    (ds.foldl State.raise s).flags u = s.flags u := by
  induction ds generalizing s with
  | nil => rfl
  | cons d ds ih =>
    rw [List.foldl_cons, ih (fun x hx => h x (List.mem_cons_of_mem _ hx)), raise_flags _ _ _ (h d List.mem_cons_self)]

@[simp] theorem uncountedReturn_flags (s : State) (h : Handle) (u : TrunkId) : (s.uncountedReturn h).flags u = s.flags u :=
  flags_of_trunks (by simp) (by simp)

@[simp] theorem farEndFailure_flags (s : State) (h : Handle) (route : RouteId) (u : TrunkId) :
    (s.farEndFailure h route).flags u = s.flags u := by
  unfold State.farEndFailure
  repeat' split
  · dsimp only
    rw [flags_of_trunks (settleReturn_trunks _ _) (settleReturn_evr _ _), raiseAll_flags]
    · exact flags_of_trunks rfl rfl
    · intro d hd
      rcases fail_events _ _ _ _ d hd with hk | hk <;> rw [hk] <;> decide
  all_goals rfl

theorem admit_flags {s s' : State} {k : Key} {c : ClassId} {h : Handle} (hs : s.admitAlert k c = some (s', h)) (u : TrunkId) :
    s'.flags u = s.flags u := by
  rw [(admit_eq hs).2]
  exact flags_of_trunks (by simp) (by simp)

/-- R12: an internal alert raises no event but EVICTED. -/
@[simp] theorem internalAlert_flags (s : State) (k : Key) (c : ClassId) (u : TrunkId) :
    (s.internalAlert k c).flags u = s.flags u := by
  unfold State.internalAlert State.offer
  repeat' split
  all_goals first
    | rfl
    | (next hs => exact (admit_flags hs u).trans (raise_flags (s.removeRecord _) _ u
        ⟨by simp [Detail.kind], by simp [Detail.kind]⟩))
    | (next hs => exact admit_flags hs u)
    | exact flags_of_trunks (by simp) (by simp)

theorem stopListening_flags (s : State) (e : EngineId) (u : TrunkId) : (s.stopListening e).flags u = s.flags u := by
  obtain ⟨hk, ht, -, -⟩ := stopListening_spec s e
  simp only [State.flags, trunk_of_trunks ht, hk.events 5 (by decide), hk.events 6 (by decide)]

@[simp] theorem stopEngine_flags (s : State) (e : EngineId) (u : TrunkId) : (s.stopEngine e).flags u = s.flags u := by
  unfold State.stopEngine
  rw [stopListening_flags, modEngine_flags]

theorem applyToBlocks_flags (s : State) (e : EngineId) (outcome : State → Handle → State) (u : TrunkId)
    (ho : ∀ s h, (outcome s h).flags u = s.flags u) : (s.applyToBlocks e outcome).flags u = s.flags u :=
  applyToBlocks_keeps (State.flags · u) outcome (fun s e g => modEngine_flags s e g u) ho s e

@[simp] theorem applyFailure_flags (s : State) (e : EngineId) (c : CallRecord) (cause : CallOutcome) (u : TrunkId) :
    (s.applyFailure e c cause).flags u = s.flags u := by
  unfold State.applyFailure
  dsimp only
  rw [raise_flags _ _ _ ⟨by simp [Detail.kind], by simp [Detail.kind]⟩]
  split
  · exact applyToBlocks_flags s e _ u fun s h => uncountedReturn_flags s h u
  · exact applyToBlocks_flags s e _ u fun s h => farEndFailure_flags s h c.route u

@[simp] theorem testOutcome_flags (s : State) (c : CallRecord) (outcome : CallOutcome) (u : TrunkId) :
    (s.testOutcome c outcome).flags u = s.flags u := by
  have h := raise_flags s (.testCallDone c.route (if c.blocks.any fun b => b.state == .acked then .delivered else outcome)) u
    ⟨by simp [Detail.kind], by simp [Detail.kind]⟩
  exact h

/-- R107, R109, R145: CLOSING leaves the flags of the trunk that the engine held in TAKEN. -/
theorem close_flags (s : State) (e : EngineId) {u : TrunkId} (hu : (s.engine e).work.trunk = some u)
    (hs : (s.trunk u).state = .taken) (hh : (s.trunk u).holder = some e) : (s.close e).flags u = s.flags u := by
  unfold State.close
  simp only [hu]
  set s1 := s.modEngine e fun x =>
    { x with phase := .closing, step := .none, seize := false, seizeStart := none, phaseTimer := none, lossTimer := none }
    with hs1
  have h1 : s1.flags u = s.flags u := modEngine_flags _ _ _ _
  have ht : s1.trunk u = s.trunk u := by rw [hs1, modEngine_trunk]
  have h2 : (s1.releaseTrunk u e).flags u = s1.flags u := by
    simp only [State.releaseTrunk, ht, hs, hh, if_true, State.flags, trunk_setTrunk_same, setTrunk_evr]
  have hm : ∀ (m : State) (refs : List TableRef), (∀ r ∈ refs, ∀ t, r ≠ .trunk t) → (m.endUses refs).flags u = m.flags u := by
    intro m refs h
    obtain ⟨k1, -, -, k4⟩ := endUses_trunks h m
    simp only [State.flags, trunk_of_trunks k1, k4 5 (by decide), k4 6 (by decide)]
  show State.flags (State.modEngine _ e Engine.idled) u = _
  rw [modEngine_flags, hm _ _ (closingRefs_no_trunk _), modEngine_flags, h2, h1]

/-! ### What changes them -/

/-- R113: a line failure counted. -/
theorem countLineFailure_counted (s : State) (u : TrunkId) : FailureCounted u s (s.countLineFailure u) := by
  unfold State.countLineFailure
  dsimp only
  split
  · next h =>
    simp only [Bool.and_eq_true, decide_eq_true_eq, Bool.not_eq_true'] at h
    set m := (s.setTrunk u { s.trunk u with failures := min ((s.trunk u).failures + 1) 2 }) with hm
    set k := (m.setTrunk u { m.trunk u with faulted := true }).raise (.trunkFault u .count) with hk
    have ht : k.trunk u = { s.trunk u with failures := min ((s.trunk u).failures + 1) 2, faulted := true } := by
      rw [hk, raise_trunk, trunk_setTrunk_same, hm, trunk_setTrunk_same]
    have h5 : vget k.evr.records 5 = (vget s.evr.records 5).occur (.trunkFault u .count) := raise_record_same _ _
    have h6 : vget k.evr.records 6 = vget s.evr.records 6 := raise_record_other _ (.trunkFault u .count) (by simp [Detail.kind])
    refine FailureCounted.of_flags (s := s) (t := k) rfl (internalAlert_flags _ _ _ _) ⟨by rw [ht], fun hb => ?_,
      fun _ _ => ⟨by rw [ht], h5⟩, h6⟩
    rcases hb with hb | hb
    · rw [hb] at h; simp at h
    · rw [hb] at h; simp at h
  · next h =>
    simp only [Bool.and_eq_true, decide_eq_true_eq, Bool.not_eq_true', not_and, Bool.not_eq_false] at h
    refine ⟨by simp, fun _ => ⟨by simp, by simp⟩, fun h1 h2 => ?_, by simp⟩
    rw [h (by omega)] at h2
    simp at h2

/-- R115: a line test's code taken. -/
theorem testCodeReported_taken (s : State) (u : TrunkId) (code : TestCode) :
    TestCodeTaken u code s (s.testCodeReported u code) := by
  have pass : ∀ code ∈ [TestCode.pass, .passReversed], TestCodeTaken u code s (s.testCodeReported u .pass) := by
    intro code hc
    unfold State.testCodeReported
    dsimp only
    refine ⟨fun _ => ?_, fun h => by simp at hc h; rcases hc with rfl | rfl <;> simp at h,
      fun h => by rw [h] at hc; simp at hc⟩
    set m := s.clearLineFailures u with hm
    have hmt : m.trunk u = { s.trunk u with failures := 0 } := by rw [hm]; exact trunk_setTrunk_same _ _ _
    split
    · next h =>
      simp only [Bool.and_eq_true, Bool.not_eq_true'] at h
      set k := (m.setTrunk u { m.trunk u with faulted := false }).raise (.trunkCleared u) with hk
      have hf := internalAlert_flags k (s.trunkKey u .restore) classTrouble u
      have ht : k.trunk u = { s.trunk u with failures := 0, faulted := false } := by
        rw [hk, raise_trunk, trunk_setTrunk_same, hmt]
      have h5 : vget k.evr.records 5 = vget s.evr.records 5 := raise_record_other _ (.trunkCleared u) (by simp [Detail.kind])
      have h6 : vget k.evr.records 6 = (vget s.evr.records 6).occur (.trunkCleared u) := raise_record_same _ _
      simp only [State.flags, Prod.mk.injEq] at hf
      obtain ⟨f1, f2, f3, f4⟩ := hf
      refine ⟨by rw [f1, ht], by rw [f3, h5], fun _ _ => ⟨by rw [f2, ht], by rw [f4, h6]⟩, fun hb => ?_⟩
      rcases hb with hb | hb
      · rw [hb] at h; simp at h
      · rw [hb] at h; simp at h
    · next h =>
      simp only [Bool.and_eq_true, Bool.not_eq_true', not_and, Bool.not_eq_false] at h
      refine ⟨by rw [hmt], rfl, fun h1 h2 => ?_, fun _ => ⟨by rw [hmt], rfl⟩⟩
      rw [h h1] at h2
      simp at h2
  have fault : ∀ code ∈ [TestCode.noLoop, .cardFault, .noDialTone, .lowTone],
      TestCodeTaken u code s (s.testCodeReported u .noLoop) := by
    intro code hc
    unfold State.testCodeReported
    dsimp only
    refine ⟨fun h => by simp at hc h; rcases h with rfl | rfl <;> simp at hc, fun _ => ?_,
      fun h => by rw [h] at hc; simp at hc⟩
    split
    · next h => exact ⟨rfl, h, rfl, rfl⟩
    · next h =>
      refine ⟨by simp, by simp, ?_, ?_⟩
      · exact raise_record_same _ _
      · exact raise_record_other _ (.trunkFault u .test) (by simp [Detail.kind])
  cases code with
  | pass => exact pass .pass (by simp)
  | passReversed => exact pass .passReversed (by simp)
  | noLoop => exact fault .noLoop (by simp)
  | cardFault => exact fault .cardFault (by simp)
  | noDialTone => exact fault .noDialTone (by simp)
  | lowTone => exact fault .lowTone (by simp)
  | aborted =>
    exact ⟨fun h => by simp at h, fun h => by simp at h, fun _ => ⟨rfl, rfl, rfl, rfl⟩⟩

end Sys2Proof.Machine
end

