-- ==== Sys2Proof/Laws/Endings.lean ====
section
/-! SUPPORT. The ways a call or test ends, each with one lemma that says what it leaves: CLOSING (R73), a failure (R70), the end
of a line test (R157), a pre-emption stop (R71), an abort (R72). -/

namespace Sys2Proof.Machine

/-! ### Late joins of the other engine -/

theorem mapCall_self (w : Work) (g : CallRecord → CallRecord) (hg : ∀ c, g c = c) : w.mapCall g = w := by
  cases w <;> simp [Work.mapCall, hg]

theorem OnlyJoined.refl (x : Engine) : OnlyJoined x x := ⟨[], by simp [mapCall_self]⟩

theorem OnlyJoined.trans {x y z : Engine} (h : OnlyJoined x y) (k : OnlyJoined y z) : OnlyJoined x z := by
  obtain ⟨hs, rfl⟩ := h
  obtain ⟨ks, rfl⟩ := k
  refine ⟨hs ++ ks, ?_⟩
  cases x.work <;> simp [Work.mapCall]

theorem lateJoin_joined (s : State) (h : Handle) (f : EngineId) : OnlyJoined (s.engine f) ((s.lateJoin h).engine f) := by
  unfold State.lateJoin
  repeat' split
  all_goals try exact OnlyJoined.refl _
  next e _ _ s' hs =>
    have he : s'.engine = s.engine := by rw [(takeRecord_eq hs).2]; rfl
    by_cases hf : f = e
    · subst hf
      exact ⟨[h], by simp [State.appendBlock, he]⟩
    · simp only [State.appendBlock, engine_setEngine_other _ _ hf, he]
      exact OnlyJoined.refl _

theorem reportWaiting_joined (s : State) (h : Handle) (f : EngineId) :
    OnlyJoined (s.engine f) ((s.reportWaiting h).engine f) := lateJoin_joined s.cause h f

theorem foldl_joined {α : Type} (f : EngineId) (g : State → α → State)
    (hg : ∀ s x, OnlyJoined (s.engine f) ((g s x).engine f)) (l : List α) (s : State) :
    OnlyJoined (s.engine f) ((l.foldl g s).engine f) := by
  induction l generalizing s with
  | nil => exact OnlyJoined.refl _
  | cons x xs ih => exact (hg s x).trans (ih _)

theorem admit_joined {s s' : State} {k : Key} {c : ClassId} {h : Handle} (hs : s.admitAlert k c = some (s', h)) (f : EngineId) :
    OnlyJoined (s.engine f) (s'.engine f) := by
  rw [(admit_eq hs).2]
  exact reportWaiting_joined { s with queue := placeRecord (newRecord h k c) s.queue } h f

theorem internalAlert_joined (s : State) (k : Key) (c : ClassId) (f : EngineId) :
    OnlyJoined (s.engine f) ((s.internalAlert k c).engine f) := by
  unfold State.internalAlert State.offer
  repeat' split
  all_goals first
    | exact OnlyJoined.refl _
    | exact reportWaiting_joined (s.updateRecord _ _) _ f
    | (next hs => exact admit_joined hs f)

theorem settleReturn_joined (s : State) (h : Handle) (f : EngineId) :
    OnlyJoined (s.engine f) ((s.settleReturn h).engine f) := by
  unfold State.settleReturn
  repeat' split
  all_goals first | exact OnlyJoined.refl _ | exact reportWaiting_joined _ _ f

theorem uncountedReturn_joined (s : State) (h : Handle) (f : EngineId) :
    OnlyJoined (s.engine f) ((s.uncountedReturn h).engine f) := by
  unfold State.uncountedReturn
  repeat' split
  · exact settleReturn_joined (s.updateRecord h _) h f
  all_goals exact OnlyJoined.refl _

theorem farEndFailure_joined (s : State) (h : Handle) (route : RouteId) (f : EngineId) :
    OnlyJoined (s.engine f) ((s.farEndFailure h route).engine f) := by
  unfold State.farEndFailure
  repeat' split
  · next r _ _ =>
    dsimp only
    generalize r.fail (s.classOr r.cls) (s.routeOr route).fallbackAfter route = out
    have hk := settleReturn_joined (out.2.foldl State.raise (s.updateRecord h fun _ => out.1)) h f
    rwa [engine_of_engines (raiseAll_engines _ _), updateRecord_engine] at hk
  all_goals exact OnlyJoined.refl _

/-! ### Operations on the way to CLOSING -/

/-- The parts of the state that every step on the way to CLOSING keeps, a test's own slot, result and event apart. -/
def State.core (s : State) :=
  ((s.pending, s.resetLow, s.clock, s.hwi, s.ccp),
    (s.dsc.hold, s.dsc.noTrunk, s.dsc.startOrder, s.dsc.marked, s.tables.site, s.tables.classes),
    s.cmu.silent, s.cmu.silenceTimer, s.evr.emission)

theorem core_of_aside {s t : State} (h : t.aside = s.aside) : t.core = s.core := by
  simp only [State.aside, State.core, Prod.mk.injEq] at h ⊢
  tauto

/-- What every operation on the way of engine `e` to CLOSING keeps. -/
structure Ending (e : EngineId) (s t : State) : Prop where
  core : t.core = s.core
  due : s.dsc.selectionsDue ≤ t.dsc.selectionsDue
  joined : ∀ f, f ≠ e → OnlyJoined (s.engine f) (t.engine f)
  trunks : ∀ u, (s.engine e).work.trunk ≠ some u → t.trunk u = s.trunk u
  own : ∀ u, (t.trunk u).state = (s.trunk u).state ∧ (t.trunk u).holder = (s.trunk u).holder
  work : (t.engine e).work.trunk = (s.engine e).work.trunk
  loadings : (t.engine e).detector.release (fun _ => true) = (s.engine e).detector.release fun _ => true
  told : KeepsTold s t
  uses : ∀ u, KeepsTold t u → UsesEnded (t.lastUse e) t u → UsesEnded (s.lastUse e) s u

theorem Ending.refl (e : EngineId) (s : State) : Ending e s s :=
  ⟨rfl, Nat.le_refl _, fun _ _ => OnlyJoined.refl _, fun _ _ => rfl, fun _ => ⟨rfl, rfl⟩, rfl, rfl, KeepsTold.refl s,
    fun _ _ h => h⟩

theorem Ending.trans {e : EngineId} {s m t : State} (h : Ending e s m) (k : Ending e m t) : Ending e s t :=
  ⟨k.core.trans h.core, Nat.le_trans h.due k.due, fun f hf => (h.joined f hf).trans (k.joined f hf),
    fun u hu => (k.trunks u (by rw [h.work]; exact hu)).trans (h.trunks u hu),
    fun u => ⟨(k.own u).1.trans (h.own u).1, (k.own u).2.trans (h.own u).2⟩,
    k.work.trans h.work, k.loadings.trans h.loadings, h.told.trans k.told,
    fun u hu hk => h.uses u (k.told.trans hu) (k.uses u hu hk)⟩

theorem OnlyJoined.work_trunk {x y : Engine} (h : OnlyJoined x y) : y.work.trunk = x.work.trunk := by
  obtain ⟨hs, rfl⟩ := h
  cases x.work <;> simp [Work.mapCall, Work.trunk]

theorem OnlyJoined.detector_eq {x y : Engine} (h : OnlyJoined x y) : y.detector = x.detector := by
  obtain ⟨hs, rfl⟩ := h
  rfl

theorem OnlyJoined.names_eq {x y : Engine} (h : OnlyJoined x y) (ref : TableRef) : y.names ref = x.names ref := by
  obtain ⟨hs, rfl⟩ := h
  cases ref <;> cases hw : x.work <;> simp [Engine.names, hw, Work.mapCall, Work.call]

theorem OnlyJoined.phase_eq {x y : Engine} (h : OnlyJoined x y) : y.phase = x.phase := by
  obtain ⟨hs, rfl⟩ := h
  rfl

/-- The uses that end with engine `e` are the same where what the engines name, and its trunk, are. -/
theorem lastUse_congr {e : EngineId} {s t : State} (hn : ∀ ref, (t.engine e).names ref = (s.engine e).names ref)
    (ho : OnlyJoined (s.engine (other e)) (t.engine (other e))) (hw : (t.engine e).work.trunk = (s.engine e).work.trunk)
    (ht : ∀ u, (t.trunk u).state = (s.trunk u).state ∧ (t.trunk u).holder = (s.trunk u).holder) :
    t.lastUse e = s.lastUse e := by
  funext ref
  cases ref <;>
    simp only [State.lastUse, State.lastLoaded, hn, ho.names_eq, ho.phase_eq, hw, (ht _).1, (ht _).2]

/-- An operation that leaves the tables and what the engines name ends no use. -/
theorem uses_of_tables {e : EngineId} {s t : State} (ht : t.tables = s.tables) (hl : t.lastUse e = s.lastUse e) :
    ∀ u, KeepsTold t u → UsesEnded (t.lastUse e) t u → UsesEnded (s.lastUse e) s u :=
  fun u _ h => by rw [hl] at h; exact h.of_tables ht.symm rfl (KeepsTold.refl u)

/-- An operation that keeps the trunk records and the tables and changes the engines by late joins alone. -/
theorem ending_of_joined {e : EngineId} {s t : State} (hc : t.core = s.core)
    (hd : s.dsc.selectionsDue ≤ t.dsc.selectionsDue) (hj : ∀ f, OnlyJoined (s.engine f) (t.engine f))
    (ht : ∀ u, t.trunk u = s.trunk u) (htab : t.tables = s.tables) (hk : KeepsTold s t) : Ending e s t :=
  ⟨hc, hd, fun f _ => hj f, fun u _ => ht u, fun u => by rw [ht u]; exact ⟨rfl, rfl⟩, (hj e).work_trunk,
    by rw [(hj e).detector_eq], hk, uses_of_tables htab (lastUse_congr (hj e).names_eq (hj _) (hj e).work_trunk
      fun u => by rw [ht u]; exact ⟨rfl, rfl⟩)⟩

theorem ending_uncountedReturn (e : EngineId) (s : State) (h : Handle) : Ending e s (s.uncountedReturn h) :=
  ending_of_joined (core_of_aside (uncountedReturn_aside s h)) (uncountedReturn_due s h)
    (fun f => uncountedReturn_joined s h f) (fun u => trunk_of_trunks (uncountedReturn_trunks s h) u)
    (uncountedReturn_tables s h) (keepsTold_of_evr (by rw [uncountedReturn_evr]))

theorem ending_farEndFailure (e : EngineId) (s : State) (h : Handle) (route : RouteId) :
    Ending e s (s.farEndFailure h route) :=
  ending_of_joined (core_of_aside (farEndFailure_aside s h route)) (farEndFailure_due s h route)
    (fun f => farEndFailure_joined s h route f) (fun u => trunk_of_trunks (farEndFailure_trunks s h route) u)
    (farEndFailure_tables s h route) (farEndFailure_keepsTold s h route)

theorem ending_internalAlert (e : EngineId) (s : State) (k : Key) (c : ClassId) : Ending e s (s.internalAlert k c) :=
  ending_of_joined (core_of_aside (internalAlert_aside s k c)) (internalAlert_due s k c)
    (fun f => internalAlert_joined s k c f) (fun u => trunk_of_trunks (internalAlert_trunks s k c) u)
    (internalAlert_tables s k c) (internalAlert_keepsTold s k c)

theorem ending_raise (e : EngineId) (s : State) (d : Detail) : Ending e s (s.raise d) :=
  ending_of_joined rfl (Nat.le_refl _) (fun f => by rw [raise_engine]; exact OnlyJoined.refl _) (fun u => raise_trunk s d u)
    (raise_tables s d) (raise_keepsTold s d)

/-- A rewriting of the engine itself that keeps its trunk and its loadings but for their release. -/
theorem ending_modEngine (e : EngineId) (s : State) (g : Engine → Engine)
    (hw : (g (s.engine e)).work.trunk = (s.engine e).work.trunk)
    (hd : (g (s.engine e)).detector.release (fun _ => true) = (s.engine e).detector.release fun _ => true)
    (hn : ∀ ref, (g (s.engine e)).names ref = (s.engine e).names ref) : Ending e s (s.modEngine e g) :=
  ⟨core_of_aside (modEngine_aside s e g), by simp, fun f hf => by rw [engine_modEngine_other _ _ hf]; exact OnlyJoined.refl _,
    fun u _ => by simp, fun u => by simp, by simpa using hw, by simpa using hd, keepsTold_of_evr (by simp),
    uses_of_tables (by simp) (lastUse_congr (by simpa using hn)
      (by rw [engine_modEngine_other _ _ (other_ne e)]; exact OnlyJoined.refl _) (by simpa using hw) fun u => by simp)⟩

/-- A rewriting of the engine's own trunk record that keeps its state and its holder. -/
theorem ending_setTrunk (e : EngineId) (s : State) {t : TrunkId} (x : Trunk) (ht : (s.engine e).work.trunk = some t)
    (hs : x.state = (s.trunk t).state) (hh : x.holder = (s.trunk t).holder) : Ending e s (s.setTrunk t x) :=
  ⟨core_of_aside (setTrunk_aside s t x), by simp, fun f _ => by rw [setTrunk_engine]; exact OnlyJoined.refl _,
    fun u hu => by
      have hne : u ≠ t := by rintro rfl; exact hu ht
      simp [hne],
    fun u => by by_cases h : u = t <;> simp [h, hs, hh], by simp, by simp, KeepsTold.refl _,
    uses_of_tables (by simp) (lastUse_congr (by simp) (by rw [setTrunk_engine]; exact OnlyJoined.refl _) (by simp)
      fun u => by by_cases h : u = t <;> simp [h, hs, hh])⟩

theorem Ending.internalAlert {e : EngineId} {s m : State} (h : Ending e s m) (k : Key) (c : ClassId) :
    Ending e s (m.internalAlert k c) := h.trans (ending_internalAlert e m k c)

theorem Ending.raise {e : EngineId} {s m : State} (h : Ending e s m) (d : Detail) : Ending e s (m.raise d) :=
  h.trans (ending_raise e m d)

theorem Ending.setTrunk {e : EngineId} {s m : State} (h : Ending e s m) {t : TrunkId} {x : Trunk}
    (ht : (s.engine e).work.trunk = some t) (hs : x.state = (m.trunk t).state) (hh : x.holder = (m.trunk t).holder) :
    Ending e s (m.setTrunk t x) := h.trans (ending_setTrunk e m x (h.work.trans ht) hs hh)

theorem foldl_ending {α : Type} (e : EngineId) (g : State → α → State) (hg : ∀ s x, Ending e s (g s x)) (l : List α)
    (s : State) : Ending e s (l.foldl g s) := by
  induction l generalizing s with
  | nil => exact Ending.refl e s
  | cons x xs ih => exact (hg s x).trans (ih _)

theorem mapCall_trunk (w : Work) (g : CallRecord → CallRecord) (hg : ∀ c, (g c).trunk = c.trunk) :
    (w.mapCall g).trunk = w.trunk := by cases w <;> simp [Work.mapCall, Work.trunk, hg]

theorem ending_applyToBlocks (e : EngineId) (s : State) (outcome : State → Handle → State)
    (ho : ∀ s h, Ending e s (outcome s h)) : Ending e s (s.applyToBlocks e outcome) := by
  unfold State.applyToBlocks
  split
  · exact Ending.refl e s
  · refine (ending_modEngine e s _ ?_ rfl ?_).trans (foldl_ending e outcome ho _ _)
    · exact mapCall_trunk _ _ fun _ => rfl
    · intro ref
      cases ref <;> cases hw : (s.engine e).work <;> simp [Engine.names, Engine.modCall, hw, Work.mapCall, Work.call]

theorem ending_stopListening (e : EngineId) (s : State) : Ending e s (s.stopListening e) := by
  obtain ⟨hk, ht, he, ho⟩ := stopListening_spec s e
  refine ⟨core_of_aside (stopListening_aside s e), ?_, fun f hf => by rw [ho f hf]; exact OnlyJoined.refl _,
    fun u _ => trunk_of_trunks ht u, fun u => by rw [trunk_of_trunks ht u]; exact ⟨rfl, rfl⟩, by rw [he], ?_,
    (stopListening_uses s e).2, ?_⟩
  · exact Nat.le_trans (by simp) (endUses_due _ _)
  · rw [he]; exact release_release _ _
  · intro u hu h
    refine ((stopListening_uses s e).1.trans h hu).congr fun ref => ?_
    have hoe : (s.stopListening e).engine (other e) = s.engine (other e) := ho _ (other_ne e)
    cases ref with
    | route r => simp [State.lastUse, State.lastLoaded, Engine.names, he, hoe]
    | trunk t => simp [State.lastUse, State.lastLoaded, he, trunk_of_trunks ht]
    | tone k => simp [State.lastUse, State.lastLoaded, Engine.names, he, released_not_live]
    | cadence k => simp [State.lastUse, State.lastLoaded, Engine.names, he, released_not_live]
    | _ => simp [State.lastUse, State.lastLoaded]

theorem ending_stopEngine (e : EngineId) (s : State) : Ending e s (s.stopEngine e) :=
  (ending_modEngine e s _ rfl rfl fun ref => by cases ref <;> rfl).trans (ending_stopListening e _)

theorem ending_countLineFailure (e : EngineId) (s : State) {t : TrunkId} (ht : (s.engine e).work.trunk = some t) :
    Ending e s (s.countLineFailure t) := by
  unfold State.countLineFailure
  dsimp only
  have h1 : Ending e s (s.setTrunk t { s.trunk t with failures := min ((s.trunk t).failures + 1) 2 }) :=
    ending_setTrunk e s _ ht rfl rfl
  split
  · exact ((h1.setTrunk ht (by rfl) (by rfl)).raise _).internalAlert _ _
  · exact h1

theorem ending_testCodeReported (e : EngineId) (s : State) {t : TrunkId} (code : TestCode)
    (ht : (s.engine e).work.trunk = some t) : Ending e s (s.testCodeReported t code) := by
  have h1 : Ending e s (s.clearLineFailures t) := ending_setTrunk e s _ ht rfl rfl
  unfold State.testCodeReported
  dsimp only
  split
  case h_1 | h_2 =>
    split
    · exact ((h1.setTrunk ht (by rfl) (by rfl)).raise _).internalAlert _ _
    · exact h1
  case h_7 => exact Ending.refl e s
  all_goals
    split
    · exact Ending.refl e s
    · exact (ending_setTrunk e s _ ht (by rfl) (by rfl)).raise _

/-! ### CLOSING -/

/-- Nobody holds the trunk and no warning runs on it. -/
def Trunk.free (x : Trunk) : Prop := x.holder = none ∧ x.warnTimer = none

theorem officeState_free (s : State) (t : TrunkId) {x : Trunk} (h : x.free) : (s.officeState t x).free := by
  unfold State.officeState
  split <;> exact h

/-- R116: a trunk whose entry has just been applied is free. -/
theorem trunkEntryApplied_free (s b : State) (t : TrunkId) (role : TrunkRole) :
    ((s.trunkEntryApplied b t role).trunk t).free := by
  have hr : (s.trunkOfRole t role (b.managed t)).free := by
    cases role
    case shared => exact officeState_free _ _ ⟨rfl, rfl⟩
    all_goals exact ⟨rfl, rfl⟩
  unfold State.trunkEntryApplied
  dsimp only
  rw [trunk_of_trunks (reportGrantable_trunks _ _ _)]
  split
  · unfold State.cardFaultRise
    split
    · rw [raise_trunk]
      simpa [Trunk.free] using hr
    · simpa using hr
  · simpa using hr

theorem endUse_free {s : State} {t : TrunkId} (h : (s.trunk t).free) : ((s.endUse (.trunk t)).trunk t).free := by
  unfold State.endUse
  split
  · next w hw =>
    split
    · exact h
    · obtain ⟨-, hwr⟩ := stagedWrite_stageable hw
      cases w <;> simp only [Write.ref, TableRef.trunk.injEq, reduceCtorEq] at hwr
      rw [← hwr]
      simp only [State.applyStaged, State.tellReaders, State.tellOwner]
      rw [trunk_of_trunks (readinessCause_trunks _ _)]
      exact trunkEntryApplied_free _ _ _ _
  · exact h

/-- R107, R109: the trunk a release frees. -/
theorem releaseTrunk_spec (s : State) (t : TrunkId) (e : EngineId) (h : (s.trunk t).holder = some e) :
    ((s.trunk t).state = .taken →
      (s.releaseTrunk t e).trunk t = { s.trunk t with
        state := .cooldown, holder := none, guard := .running (ticksOfMs s.siteOr.releaseGuard) }) ∧
    ((s.trunk t).state = .warning → ((s.releaseTrunk t e).trunk t).free) := by
  refine ⟨fun hs => by simp [State.releaseTrunk, h, hs], fun hs => ?_⟩
  simp only [State.releaseTrunk, h, hs, if_true]
  rw [trunk_of_trunks (reportGrantable_trunks _ _ _)]
  refine endUse_free ?_
  rw [trunk_setTrunk_same]
  exact officeState_free _ _ ⟨rfl, rfl⟩

/-- The end of the use of one trunk entry leaves the other trunk records. -/
theorem trunkEntryApplied_other (s b : State) {t u : TrunkId} (role : TrunkRole) (h : u ≠ t) :
    (s.trunkEntryApplied b t role).trunk u = s.trunk u := by
  unfold State.trunkEntryApplied State.cardFaultRise
  dsimp only
  rw [trunk_of_trunks (reportGrantable_trunks _ _ _)]
  repeat' split
  all_goals simp [h]

theorem endUse_trunk_other (s : State) {t u : TrunkId} (h : u ≠ t) : (s.endUse (.trunk t)).trunk u = s.trunk u := by
  unfold State.endUse
  split
  · next w hw =>
    split
    · rfl
    · obtain ⟨-, hwr⟩ := stagedWrite_stageable hw
      cases w <;> simp only [Write.ref, TableRef.trunk.injEq, reduceCtorEq] at hwr
      rw [← hwr] at h
      simp only [State.applyStaged, State.tellReaders, State.tellOwner]
      rw [trunk_of_trunks (readinessCause_trunks _ _)]
      exact trunkEntryApplied_other _ _ _ h
  · rfl

theorem releaseTrunk_other (s : State) {t u : TrunkId} (e : EngineId) (h : u ≠ t) :
    (s.releaseTrunk t e).trunk u = s.trunk u := by
  unfold State.releaseTrunk
  repeat' split
  · rw [trunk_of_trunks (reportGrantable_trunks _ _ _), endUse_trunk_other _ h, trunk_setTrunk_other _ _ h]
  · rw [trunk_setTrunk_other _ _ h]
  all_goals rfl

/-- R73: CLOSING, whatever the engine held. -/
theorem close_closed (e : EngineId) (s : State) : Closed e s (s.close e) := by
  set s1 := s.modEngine e fun x =>
    { x with phase := .closing, step := .none, seize := false, seizeStart := none, phaseTimer := none,
             lossTimer := none } with hs1
  set s2 := (match (s.engine e).work.trunk with
    | some t => s1.releaseTrunk t e
    | none => s1) with hs2
  set s3 := (s2.modEngine e fun x => { x with detector := x.detector.release fun _ => true }).endUses
    (s.engine e).closingRefs with hs3
  set s4 := s3.modEngine e Engine.idled with hs4
  have hclose : s.close e = ({ s4 with dsc := { s4.dsc with
      startOrder := s4.dsc.startOrder.filter fun i => i != e
      marked := if s4.dsc.marked = some e then none else s4.dsc.marked } } : State).cause := rfl
  have ha2 : s2.aside = s.aside := by
    rw [hs2]; split <;> simp [hs1]
  have ha : s4.aside = s.aside := by rw [hs4, modEngine_aside, hs3, endUses_aside, modEngine_aside, ha2]
  have hd : s.dsc.selectionsDue ≤ s4.dsc.selectionsDue := by
    have h2 : s.dsc.selectionsDue ≤ s2.dsc.selectionsDue := by
      rw [hs2]; split
      · exact Nat.le_trans (by simp [hs1]) (releaseTrunk_due _ _ _)
      · simp [hs1]
    rw [hs4, modEngine_dsc, hs3]
    exact Nat.le_trans (by simpa using h2) (endUses_due _ _)
  have he2 : s2.engines = s1.engines := by rw [hs2]; split <;> simp
  have he3 : s3.engines = (s2.modEngine e fun x => { x with detector := x.detector.release fun _ => true }).engines :=
    endUses_engines _ _
  have ht34 : ∀ u, s4.trunk u = s2.trunk u := fun u => by
    rw [hs4, modEngine_trunk, hs3, trunk_of_trunks (endUses_trunks (closingRefs_no_trunk _) _).1, modEngine_trunk]
  simp only [State.aside, Prod.mk.injEq] at ha
  obtain ⟨⟨a1, a2, a3, a4, a5⟩, ⟨a6, a7, a8, a9, a10, a11⟩, ⟨a12, a13, a14, a15⟩, a16, -⟩ := ha
  have heng : ∀ f, (s.close e).engine f = s4.engine f := fun f => by rw [hclose, cause_engine]; cases f <;> rfl
  have htr : ∀ u, (s.close e).trunk u = s2.trunk u := fun u => by rw [hclose, cause_trunk, ← ht34 u]; rfl
  refine ⟨⟨a1, a2, a3, a4, a5⟩, ?_, ?_, ?_, ?_, a6, a7, ?_, ?_, Nat.lt_succ_of_le hd, a10, a11, (close_uses e s).1, a14,
    a15, a16⟩
  · rw [heng, hs4, engine_modEngine_same, engine_of_engines he3, engine_modEngine_same, engine_of_engines he2, hs1,
      engine_modEngine_same]
    rfl
  · intro f hf
    rw [heng, hs4, engine_modEngine_other _ _ hf, engine_of_engines he3, engine_modEngine_other _ _ hf,
      engine_of_engines he2, hs1, engine_modEngine_other _ _ hf]
    exact OnlyJoined.refl _
  · intro u hu
    rw [htr, hs2]
    split
    · next t ht =>
      have hne : u ≠ t := by rintro rfl; exact hu ht
      rw [releaseTrunk_other _ _ hne, hs1, modEngine_trunk]
    · rw [hs1, modEngine_trunk]
  · intro u hu hh
    have hspec := releaseTrunk_spec s1 u e (by rw [hs1, modEngine_trunk]; exact hh)
    have h2 : s2 = s1.releaseTrunk u e := by rw [hs2, hu]
    have hsite : s1.siteOr = s.siteOr := siteOr_congr (by simp [hs1]) (by simp [hs1])
    have htk : s1.trunk u = s.trunk u := by rw [hs1, modEngine_trunk]
    rw [htk, hsite] at hspec
    rw [htr, h2]
    refine ⟨fun hst => ?_, hspec.2⟩
    rw [hspec.1 hst]
    exact ⟨rfl, rfl, rfl⟩
  · show s4.dsc.startOrder.filter _ = _
    rw [a8]
  · show (if s4.dsc.marked = some e then none else s4.dsc.marked) = _
    rw [a9]

/-- A CLOSING that begins where operations on the way to it have ended. -/
theorem Closed.of_before {e : EngineId} {s m t : State} (h : Ending e s m) (k : Closed e m t) (hk : KeepsTold m t) :
    Closed e s t := by
  obtain ⟨edge, eng, other, trunks, rel, hold, noTrunk, so, mk, sel, site, classes, uses, silent, st, em⟩ := k
  have hc := h.core
  simp only [State.core, Prod.mk.injEq] at hc
  obtain ⟨⟨c1, c2, c3, c4, c5⟩, ⟨c6, c7, c8, c9, c10, c11⟩, c12, c13, c14⟩ := hc
  have hsite : m.siteOr = s.siteOr := by simp only [State.siteOr, c10, c3]
  refine ⟨⟨edge.1.trans c1, edge.2.trans c2, edge.3.trans c3, edge.4.trans c4, edge.5.trans c5⟩, ?_,
    fun f hf => (h.joined f hf).trans (other f hf), ?_, ?_, hold.trans c6, noTrunk.trans c7, by rw [so, c8],
    by rw [mk, c9], Nat.lt_of_le_of_lt h.due sel, site.trans c10, classes.trans c11, h.uses t hk uses,
    silent.trans c12, st.trans c13, em.trans c14⟩
  · rw [eng, h.loadings]
  · intro u hu
    rw [trunks u (by rw [h.work]; exact hu), h.trunks u hu]
  · intro u hu hh
    have := rel u (by rw [h.work]; exact hu) (by rw [(h.own u).2]; exact hh)
    rw [(h.own u).1, hsite] at this
    exact this

/-- CLOSING after operations on the way to it. -/
theorem closed_of_ending {e : EngineId} {s m : State} (h : Ending e s m) : Closed e s (m.close e) :=
  (close_closed e m).of_before h (close_uses e m).2

/-! ### The outcomes of what an engine held -/

/-- Where the outcomes of calls and tests are told: the command slot, the result records, and the three event kinds. -/
def State.outcomes (s : State) :=
  (s.cmu.slot, s.cmu.results, vget s.evr.records 1, vget s.evr.records 8, vget s.evr.records 9)

theorem outcomes_of_aside {s t : State} (h : t.aside = s.aside) : t.outcomes = s.outcomes := by
  simp only [State.aside, State.outcomes, Prod.mk.injEq] at h ⊢
  tauto

/-- R73: CLOSING itself tells no outcome. -/
theorem close_outcomes (s : State) (e : EngineId) : (s.close e).outcomes = s.outcomes := by
  unfold State.close
  dsimp only
  rw [outcomes_of_aside (cause_aside _)]
  refine (show _ = _ from rfl : _ = State.outcomes (State.modEngine _ e Engine.idled)).trans (outcomes_of_aside ?_)
  rw [modEngine_aside, endUses_aside, modEngine_aside]
  split <;> simp

theorem applyToBlocks_aside (s : State) (e : EngineId) (outcome : State → Handle → State)
    (ho : ∀ s h, (outcome s h).aside = s.aside) : (s.applyToBlocks e outcome).aside = s.aside :=
  applyToBlocks_keeps State.aside outcome (fun s e g => modEngine_aside s e g) ho s e

theorem stopEngine_work (s : State) (e : EngineId) : ((s.stopEngine e).engine e).work = (s.engine e).work := by
  obtain ⟨-, -, he, -⟩ := stopListening_spec (s.modEngine e fun x =>
    { x with generator := Generator.silent, sending := [], phaseTimer := none, lossTimer := none }) e
  unfold State.stopEngine
  rw [he]
  simp

theorem countLineFailure_joined (s : State) (t : TrunkId) (f : EngineId) :
    OnlyJoined (s.engine f) ((s.countLineFailure t).engine f) := by
  unfold State.countLineFailure
  dsimp only
  split
  · have h := internalAlert_joined (((s.setTrunk t { s.trunk t with failures := min ((s.trunk t).failures + 1) 2 }).setTrunk t
      { (s.setTrunk t { s.trunk t with failures := min ((s.trunk t).failures + 1) 2 }).trunk t with faulted := true }).raise
        (.trunkFault t .count)) (s.trunkKey t .new) classTrouble f
    simpa using h
  · simpa using OnlyJoined.refl _

/-- R45, R46: the failure of an alert call, told. -/
theorem applyFailure_outcomes (s : State) (e : EngineId) (c : CallRecord) (cause : CallOutcome) :
    (s.applyFailure e c cause).outcomes =
      (s.cmu.slot, s.cmu.results, (vget s.evr.records 1).occur (.callFailed c.route c.trunk cause), vget s.evr.records 8,
        vget s.evr.records 9) := by
  unfold State.applyFailure
  dsimp only
  have h : ∀ m : State, m.aside = s.aside → (m.raise (.callFailed c.route c.trunk cause)).outcomes =
      (s.cmu.slot, s.cmu.results, (vget s.evr.records 1).occur (.callFailed c.route c.trunk cause),
        vget s.evr.records 8, vget s.evr.records 9) := by
    intro m hm
    have ho := outcomes_of_aside hm
    simp only [State.outcomes, Prod.mk.injEq] at ho
    obtain ⟨h1, h2, h3, h4, h5⟩ := ho
    have r1 : vget (m.raise (.callFailed c.route c.trunk cause)).evr.records 1 =
        (vget m.evr.records 1).occur (.callFailed c.route c.trunk cause) := raise_record_same _ _
    have r8 : vget (m.raise (.callFailed c.route c.trunk cause)).evr.records 8 = vget m.evr.records 8 :=
      raise_record_other _ _ (by simp [Detail.kind])
    have r9 : vget (m.raise (.callFailed c.route c.trunk cause)).evr.records 9 = vget m.evr.records 9 :=
      raise_record_other _ _ (by simp [Detail.kind])
    simp only [State.outcomes, r1, r8, r9, raise_cmu, h1, h2, h3, h4, h5]
  refine h _ ?_
  split
  · exact applyToBlocks_aside _ _ _ uncountedReturn_aside
  · exact applyToBlocks_aside _ _ _ fun s h => farEndFailure_aside s h c.route

theorem ending_applyFailure (e : EngineId) (s : State) (c : CallRecord) (cause : CallOutcome) :
    Ending e s (s.applyFailure e c cause) := by
  unfold State.applyFailure
  dsimp only
  refine Ending.raise ?_ _
  split
  · exact ending_applyToBlocks e s _ (ending_uncountedReturn e)
  · exact ending_applyToBlocks e s _ fun s h => ending_farEndFailure e s h c.route

/-- R158: a test call's outcome, told. -/
theorem testOutcome_outcomes (s : State) (c : CallRecord) (outcome : CallOutcome)
    (h : (c.blocks.any fun b => b.state == .acked) = false) :
    (s.testOutcome c outcome).outcomes =
      (.empty, s.cmu.results, vget s.evr.records 1, vget s.evr.records 8,
        (vget s.evr.records 9).occur (.testCallDone c.route outcome)) := by
  have r1 : ∀ d : CallOutcome, vget (s.raise (.testCallDone c.route d)).evr.records 1 = vget s.evr.records 1 :=
    fun d => raise_record_other _ _ (by simp [Detail.kind])
  have r8 : ∀ d : CallOutcome, vget (s.raise (.testCallDone c.route d)).evr.records 8 = vget s.evr.records 8 :=
    fun d => raise_record_other _ _ (by simp [Detail.kind])
  have r9 : ∀ d : CallOutcome, vget (s.raise (.testCallDone c.route d)).evr.records 9 =
      (vget s.evr.records 9).occur (.testCallDone c.route d) := fun d => raise_record_same _ _
  simp only [State.testOutcome, h, State.outcomes, r1, r8, r9, raise_cmu, Bool.false_eq_true, if_false]

theorem ending_cmu (e : EngineId) (s : State) (f : CommandSlot) (r : Vector TestResult 8) :
    Ending e s { s with cmu := { s.cmu with slot := f, results := r } } :=
  ending_of_joined rfl (Nat.le_refl _) (fun f => by cases f <;> exact OnlyJoined.refl _) (fun _ => rfl) rfl
    (KeepsTold.refl _)

theorem ending_testOutcome (e : EngineId) (s : State) (c : CallRecord) (outcome : CallOutcome) :
    Ending e s (s.testOutcome c outcome) := by
  unfold State.testOutcome
  dsimp only
  exact (ending_raise e s _).trans (ending_cmu e _ .empty _)

theorem joined_acked (bs : List BlockEntry) (hs : List Handle) :
    ((bs ++ hs.map fun h => (⟨some h, .queued⟩ : BlockEntry)).any fun b => b.state == .acked) =
      bs.any fun b => b.state == .acked := by
  rw [List.any_append]
  simp

theorem not_acked {bs : List BlockEntry} (h : (bs.all fun b => b.state != .acked) = true) :
    (bs.any fun b => b.state == .acked) = false := by
  simp only [List.all_eq_true, bne_iff_ne, ne_eq] at h
  simpa using h

/-- CLOSING after operations on the way to it leaves the flags of the trunk that the engine held in TAKEN. -/
theorem ending_close_flags {e : EngineId} {s m : State} {u : TrunkId} (h : Ending e s m)
    (hu : (s.engine e).work.trunk = some u) (hs : (s.trunk u).state = .taken) (hh : (s.trunk u).holder = some e) :
    (m.close e).flags u = m.flags u :=
  close_flags m e (h.work.trans hu) ((h.own u).1.trans hs) ((h.own u).2.trans hh)

/-- R113: what a call that fails makes of the trunk that its engine held in TAKEN. -/
theorem failCall_flags (e : EngineId) (s : State) (cause : CallOutcome) {u : TrunkId}
    (hu : (s.engine e).work.trunk = some u) (hs : (s.trunk u).state = .taken) (hh : (s.trunk u).holder = some e) :
    FlagsAfterCall u cause s (s.failCall e cause) := by
  obtain ⟨s2, hs2⟩ : ∃ x : State, x = (if cause.isLine then
      match ((s.stopEngine e).engine e).work.trunk with
      | some t => (s.stopEngine e).countLineFailure t
      | none => s.stopEngine e
    else s.stopEngine e) := ⟨_, rfl⟩
  obtain ⟨s3, hs3⟩ : ∃ x : State, x = (match (s2.engine e).work with
      | .alertCall c => s2.applyFailure e c cause
      | .testCall c => s2.testOutcome c cause
      | _ => s2) := ⟨_, rfl⟩
  have hfail : s.failCall e cause = s3.close e := by rw [hs3, hs2]; rfl
  have h1 := ending_stopEngine e s
  have hu1 : ((s.stopEngine e).engine e).work.trunk = some u := h1.work.trans hu
  have h2 : Ending e s s2 := by
    rw [hs2, hu1]
    split
    · exact h1.trans (ending_countLineFailure e _ hu1)
    · exact h1
  have h3 : Ending e s s3 ∧ s3.flags u = s2.flags u := by
    rw [hs3]
    split
    · exact ⟨h2.trans (ending_applyFailure e s2 _ cause), applyFailure_flags _ _ _ _ _⟩
    · exact ⟨h2.trans (ending_testOutcome e s2 _ cause), testOutcome_flags _ _ _ _⟩
    · exact ⟨h2, rfl⟩
  have ht : (s.failCall e cause).flags u = s2.flags u := by
    rw [hfail, ending_close_flags h3.1 hu hs hh, h3.2]
  have line : cause.isLine = true → FailureCounted u s (s.failCall e cause) := fun hl => by
    refine FailureCounted.of_flags (stopEngine_flags s e u).symm ht ?_
    rw [hs2, hu1]
    simpa only [hl, if_true] using countLineFailure_counted (s.stopEngine e) u
  have far : cause.isLine = false → FlagsKept u s (s.failCall e cause) := fun hl => by
    refine FlagsKept.of_flags (ht.trans ?_)
    rw [hs2, hl]
    exact stopEngine_flags s e u
  refine ⟨fun hc => line ?_, fun hc => far ?_⟩ <;> cases cause <;> simp_all [CallOutcome.isLine]

/-- R70: a call that has failed. -/
theorem failCall_ended (e : EngineId) (s : State) (cause : CallOutcome) (code : TestCode)
    (hw : (s.engine e).work.isLineTest = false) : Ended e cause code s (s.failCall e cause) := by
  obtain ⟨s2, hs2⟩ : ∃ x : State, x = (if cause.isLine then
      match ((s.stopEngine e).engine e).work.trunk with
      | some t => (s.stopEngine e).countLineFailure t
      | none => s.stopEngine e
    else s.stopEngine e) := ⟨_, rfl⟩
  have hfail : s.failCall e cause = (match (s2.engine e).work with
      | .alertCall c => s2.applyFailure e c cause
      | .testCall c => s2.testOutcome c cause
      | _ => s2).close e := by rw [hs2]; rfl
  have hflags : ∀ c, (s.engine e).work.call = some c → (s.trunk c.trunk).state = .taken → (s.trunk c.trunk).holder = some e →
      FlagsAfterCall c.trunk cause s (s.failCall e cause) := fun c hc hs hh => by
    refine failCall_flags e s cause ?_ hs hh
    cases hk : (s.engine e).work <;> simp_all [Work.call, Work.trunk]
  rw [hfail] at hflags ⊢
  have h1 := ending_stopEngine e s
  have h2 : Ending e s s2 ∧ s2.aside = s.aside ∧ OnlyJoined ((s.stopEngine e).engine e) (s2.engine e) := by
    rw [hs2]
    split
    · split
      · next t ht =>
        exact ⟨h1.trans (ending_countLineFailure e _ ht), by simp, countLineFailure_joined _ _ _⟩
      · exact ⟨h1, by simp, OnlyJoined.refl _⟩
    · exact ⟨h1, by simp, OnlyJoined.refl _⟩
  obtain ⟨hend, ha, hs, hj⟩ := h2
  have ho := outcomes_of_aside ha
  simp only [State.outcomes, Prod.mk.injEq] at ho
  obtain ⟨o1, o2, o3, o4, o5⟩ := ho
  have hwork : (s2.engine e).work = (s.engine e).work.mapCall fun c =>
      { c with blocks := c.blocks ++ hs.map fun h => ⟨some h, .queued⟩ } := by rw [hj, stopEngine_work]
  unfold Ended
  refine ⟨?_, hflags, ?_⟩
  · cases hk : (s.engine e).work with
    | nothing =>
      simp only [hwork, hk, Work.mapCall]
      exact closed_of_ending hend
    | lineTest r => simp [hk, Work.isLineTest] at hw
    | alertCall c =>
      simp only [hwork, hk, Work.mapCall]
      exact closed_of_ending (hend.trans (ending_applyFailure e s2 _ cause))
    | testCall c =>
      simp only [hwork, hk, Work.mapCall]
      exact closed_of_ending (hend.trans (ending_testOutcome e s2 _ cause))
  cases hk : (s.engine e).work with
  | nothing => trivial
  | lineTest r => simp [hk, Work.isLineTest] at hw
  | alertCall c =>
    simp only [hwork, hk, Work.mapCall]
    set c' : CallRecord := { c with blocks := c.blocks ++ hs.map fun h => ⟨some h, .queued⟩ } with hc'
    have := (close_outcomes (s2.applyFailure e c' cause) e).trans (applyFailure_outcomes s2 e c' cause)
    simp only [State.outcomes, Prod.mk.injEq, o1, o2, o3] at this
    exact ⟨this.2.2.1, this.1, this.2.1⟩
  | testCall c =>
    simp only [hwork, hk, Work.mapCall]
    set c' : CallRecord := { c with blocks := c.blocks ++ hs.map fun h => ⟨some h, .queued⟩ } with hc'
    intro hall
    have hn : (c'.blocks.any fun b => b.state == .acked) = false := by rw [hc']; simp only [joined_acked, not_acked hall]
    have := (close_outcomes (s2.testOutcome c' cause) e).trans (testOutcome_outcomes s2 c' cause hn)
    simp only [State.outcomes, Prod.mk.injEq, o2, o5] at this
    exact ⟨this.2.2.2.2, this.1, this.2.1⟩

/-- R157: the end of a line test. -/
theorem endLineTest_ended (e : EngineId) (s : State) (r : LineTestRecord) (cause : CallOutcome) (code : TestCode)
    (hw : (s.engine e).work = .lineTest r) : Ended e cause code s (s.endLineTest e code) := by
  unfold Ended
  simp only [State.endLineTest, hw]
  set p := (if code.measured then r.peak else 0) with hp
  set s1 := s.stopEngine e with hs1
  set s2 : State := { s1 with cmu := { s1.cmu with results := vput s1.cmu.results r.trunk ⟨true, code, p, r.loopDelay⟩ } }
    with hs2
  set s3 := (s2.raise (.lineTestDone r.trunk code p r.loopDelay)).testCodeReported r.trunk code with hs3
  have h1 : Ending e s s1 := ending_stopEngine e s
  have h2 : Ending e s s2 := h1.trans (ending_cmu e s1 s1.cmu.slot _)
  have hr := h2.raise (.lineTestDone r.trunk code p r.loopDelay)
  have ht : ((s2.raise (.lineTestDone r.trunk code p r.loopDelay)).engine e).work.trunk = some r.trunk := by
    rw [hr.work, hw]; rfl
  have h3 : Ending e s s3 := hr.trans (ending_testCodeReported e _ code ht)
  have h4 : Ending e s ({ s3 with cmu := { s3.cmu with slot := .empty } } : State) := h3.trans (ending_cmu e s3 .empty s3.cmu.results)
  refine ⟨closed_of_ending h4, fun c hc => by simp [Work.call] at hc, ?_⟩
  have hc := close_outcomes ({ s3 with cmu := { s3.cmu with slot := .empty } } : State) e
  have a3 := outcomes_of_aside (testCodeReported_aside (s2.raise (.lineTestDone r.trunk code p r.loopDelay)) r.trunk code)
  have a1 := outcomes_of_aside (stopEngine_aside s e)
  have r8 : vget (s2.raise (.lineTestDone r.trunk code p r.loopDelay)).evr.records 8 =
      (vget s2.evr.records 8).occur (.lineTestDone r.trunk code p r.loopDelay) := raise_record_same _ _
  simp only [State.outcomes, Prod.mk.injEq] at hc a3 a1
  rw [← hs3] at a3
  rw [← hs1] at a1
  refine ⟨?_, hc.1, ?_, fun hst hho => ?_⟩
  · rw [hc.2.2.2.1]
    show vget s3.evr.records 8 = _
    rw [a3.2.2.2.1, r8]
    show (vget s1.evr.records 8).occur _ = _
    rw [a1.2.2.2.1]
  · rw [hc.2.1]
    show s3.cmu.results = _
    rw [a3.2.1, raise_cmu]
    show vput s1.cmu.results _ _ = _
    rw [a1.2.1]
  · have hf := (ending_close_flags h4 (by rw [hw]; rfl) hst hho).trans (show _ = s3.flags r.trunk from rfl)
    have h2f : (s2.raise (.lineTestDone r.trunk code p r.loopDelay)).flags r.trunk = s.flags r.trunk :=
      (raise_flags s2 _ _ ⟨by simp [Detail.kind], by simp [Detail.kind]⟩).trans (stopEngine_flags s e r.trunk)
    exact (testCodeReported_taken (s2.raise (.lineTestDone r.trunk code p r.loopDelay)) r.trunk code).of_flags h2f.symm hf
      (by simp [hs2, hs1])

/-- R53 to R55, R155: what a condition of the line ends. -/
theorem failWork_ended (e : EngineId) (s : State) (cause : CallOutcome) (code : TestCode) :
    Ended e cause code s (s.failWork e cause code) := by
  unfold State.failWork
  cases hw : (s.engine e).work with
  | lineTest r => exact endLineTest_ended e s r cause code hw
  | _ => exact failCall_ended e s cause code (by simp [hw, Work.isLineTest])

/-- R71: a pre-emption stop. -/
theorem preemptStop_stopped (e : EngineId) (s : State) (hw : (s.engine e).work.isLineTest = false) :
    Stopped e .preempted s (s.preemptStop e) := by
  have h1 := ending_stopEngine e s
  have a1 := outcomes_of_aside (stopEngine_aside s e)
  unfold Stopped
  simp only [State.preemptStop, stopEngine_work]
  cases hk : (s.engine e).work with
  | nothing => exact ⟨closed_of_ending h1, fun u hu => by simp [Work.trunk] at hu, trivial⟩
  | lineTest r => simp [hk, Work.isLineTest] at hw
  | alertCall c =>
    have h2 := h1.trans (ending_applyToBlocks e _ _ (ending_uncountedReturn e))
    refine ⟨closed_of_ending h2, fun u hu hs hh => FlagsKept.of_flags ((ending_close_flags h2 (by rw [hk]; exact hu) hs hh).trans
      ((applyToBlocks_flags _ e _ u fun s h => uncountedReturn_flags s h u).trans (stopEngine_flags s e u))), ?_⟩
    have := (close_outcomes ((s.stopEngine e).applyToBlocks e State.uncountedReturn) e).trans
      ((outcomes_of_aside (applyToBlocks_aside _ e _ uncountedReturn_aside)).trans a1)
    simp only [State.outcomes, Prod.mk.injEq] at this
    exact ⟨this.2.2.1, this.1, this.2.1⟩
  | testCall c =>
    have h2 := h1.trans (ending_testOutcome e _ c .preempted)
    refine ⟨closed_of_ending h2, fun u hu hs hh => FlagsKept.of_flags ((ending_close_flags h2 (by rw [hk]; exact hu) hs hh).trans
      ((testOutcome_flags _ _ _ _).trans (stopEngine_flags s e u))), fun hall => ?_⟩
    have := (close_outcomes ((s.stopEngine e).testOutcome c .preempted) e).trans
      (testOutcome_outcomes (s.stopEngine e) c .preempted (not_acked hall))
    simp only [State.outcomes, Prod.mk.injEq] at this a1
    exact ⟨this.2.2.2.2.trans (by rw [a1.2.2.2.2]), this.1, this.2.1.trans a1.2.1⟩

/-- R72: an abort. -/
theorem abortEngine_stopped (e : EngineId) (s : State) (hw : (s.engine e).work ≠ .nothing) :
    Stopped e .aborted s (s.abortEngine e) := by
  have h1 := ending_stopEngine e s
  have a1 := outcomes_of_aside (stopEngine_aside s e)
  unfold State.abortEngine
  cases hk : (s.engine e).work with
  | nothing => exact absurd hk hw
  | lineTest r =>
    have h := endLineTest_ended e s r .aborted .aborted hk
    unfold Ended at h
    unfold Stopped
    simp only [hk, TestCode.measured, Bool.false_eq_true, if_false] at h ⊢
    refine ⟨h.1, fun u hu hs hh => ?_, h.2.2.1, h.2.2.2.1, h.2.2.2.2.1⟩
    obtain rfl : r.trunk = u := by simpa [Work.trunk] using hu
    exact (h.2.2.2.2.2 hs hh).2.2 rfl
  | alertCall c =>
    unfold Stopped
    simp only [hk]
    have h2 := h1.trans (ending_applyToBlocks e _ _ (ending_uncountedReturn e))
    refine ⟨closed_of_ending h2, fun u hu hs hh => FlagsKept.of_flags ((ending_close_flags h2 (by rw [hk]; exact hu) hs hh).trans
      ((applyToBlocks_flags _ e _ u fun s h => uncountedReturn_flags s h u).trans (stopEngine_flags s e u))), ?_⟩
    have := (close_outcomes ((s.stopEngine e).applyToBlocks e State.uncountedReturn) e).trans
      ((outcomes_of_aside (applyToBlocks_aside _ e _ uncountedReturn_aside)).trans a1)
    simp only [State.outcomes, Prod.mk.injEq] at this
    exact ⟨this.2.2.1, this.1, this.2.1⟩
  | testCall c =>
    unfold Stopped
    simp only [hk]
    have h2 := h1.trans (ending_testOutcome e _ c .aborted)
    refine ⟨closed_of_ending h2, fun u hu hs hh => FlagsKept.of_flags ((ending_close_flags h2 (by rw [hk]; exact hu) hs hh).trans
      ((testOutcome_flags _ _ _ _).trans (stopEngine_flags s e u))), fun hall => ?_⟩
    have := (close_outcomes ((s.stopEngine e).testOutcome c .aborted) e).trans
      (testOutcome_outcomes (s.stopEngine e) c .aborted (not_acked hall))
    simp only [State.outcomes, Prod.mk.injEq] at this a1
    exact ⟨this.2.2.2.2.trans (by rw [a1.2.2.2.2]), this.1, this.2.1.trans a1.2.1⟩

/-- An end told from a state that operations on the way to it have reached, which tell no outcome themselves and leave what the
engine holds. -/
theorem Ended.of_before {e : EngineId} {cause : CallOutcome} {code : TestCode} {s m t : State} (h : Ending e s m)
    (ho : m.outcomes = s.outcomes) (hf : ∀ u, m.flags u = s.flags u) (hw : (m.engine e).work = (s.engine e).work)
    (hk : KeepsTold m t) (k : Ended e cause code m t) : Ended e cause code s t := by
  simp only [State.outcomes, Prod.mk.injEq] at ho
  obtain ⟨o1, o2, o3, o4, o5⟩ := ho
  have hc := h.core
  simp only [State.core, Prod.mk.injEq] at hc
  obtain ⟨k1, kf, k2⟩ := k
  refine ⟨k1.of_before h hk, fun c hcall hs hh => ?_, ?_⟩
  · obtain ⟨line, far⟩ := kf c (by rw [hw]; exact hcall) ((h.own _).1.trans hs) ((h.own _).2.trans hh)
    refine ⟨fun hl => (line hl).of_flags (hf _).symm rfl, fun hl => ?_⟩
    obtain ⟨f1, f2, f3, f4⟩ := far hl
    have hfe := hf c.trunk
    simp only [State.flags, Prod.mk.injEq] at hfe
    exact ⟨f1.trans hfe.1, f2.trans hfe.2.1, f3.trans hfe.2.2.1, f4.trans hfe.2.2.2⟩
  · rw [hw, o1, o2, o3, o4, o5] at k2
    cases hk : (s.engine e).work with
    | lineTest r =>
      simp only [hk] at k2 ⊢
      obtain ⟨r1, r2, r3, r4⟩ := k2
      exact ⟨r1, r2, r3, fun hs hh => (r4 ((h.own _).1.trans hs) ((h.own _).2.trans hh)).of_flags (hf _).symm rfl
        hc.1.2.2.2.1.symm⟩
    | _ => simp only [hk] at k2 ⊢ <;> exact k2

/-- A stop told from such a state. -/
theorem Stopped.of_before {e : EngineId} {outcome : CallOutcome} {s m t : State} (h : Ending e s m)
    (ho : m.outcomes = s.outcomes) (hf : ∀ u, m.flags u = s.flags u) (hw : (m.engine e).work = (s.engine e).work)
    (hk : KeepsTold m t) (k : Stopped e outcome m t) : Stopped e outcome s t := by
  simp only [State.outcomes, Prod.mk.injEq] at ho
  obtain ⟨o1, o2, o3, o4, o5⟩ := ho
  obtain ⟨k1, kf, k2⟩ := k
  refine ⟨k1.of_before h hk, fun u hu hs hh => ?_, ?_⟩
  · obtain ⟨f1, f2, f3, f4⟩ := kf u (by rw [hw]; exact hu) ((h.own _).1.trans hs) ((h.own _).2.trans hh)
    have hfe := hf u
    simp only [State.flags, Prod.mk.injEq] at hfe
    exact ⟨f1.trans hfe.1, f2.trans hfe.2.1, f3.trans hfe.2.2.1, f4.trans hfe.2.2.2⟩
  · rw [hw, o1, o2, o3, o4, o5] at k2
    exact k2

/-- A change of the engine that leaves its work, and its detector but for a release, ends nothing. -/
theorem before_modEngine (e : EngineId) (s : State) (g : Engine → Engine) (hw : (g (s.engine e)).work = (s.engine e).work)
    (hd : (g (s.engine e)).detector.release (fun _ => true) = (s.engine e).detector.release fun _ => true)
    (hn : ∀ ref, (g (s.engine e)).names ref = (s.engine e).names ref) :
    Ending e s (s.modEngine e g) ∧ (s.modEngine e g).outcomes = s.outcomes ∧
      (∀ u, (s.modEngine e g).flags u = s.flags u) ∧ ((s.modEngine e g).engine e).work = (s.engine e).work :=
  ⟨ending_modEngine e s g (by rw [hw]) hd hn, outcomes_of_aside (modEngine_aside s e g), modEngine_flags s e g,
    by simpa using hw⟩

/-- Nor does leaving a listening step. -/
theorem before_stopListening (e : EngineId) (s : State) :
    Ending e s (s.stopListening e) ∧ (s.stopListening e).outcomes = s.outcomes ∧
      (∀ u, (s.stopListening e).flags u = s.flags u) ∧ ((s.stopListening e).engine e).work = (s.engine e).work :=
  ⟨ending_stopListening e s, outcomes_of_aside (stopListening_aside s e), stopListening_flags s e,
    by rw [(stopListening_spec s e).2.2.1]⟩

end Sys2Proof.Machine
end

