-- ==== Sys2Proof/Laws/Names.lean ====
section
/-! SUPPORT. The start of a listening step (R56, R79): what naming the entries of a step makes of the engine. -/

namespace Sys2Proof.Machine

theorem loadable_iff (s : State) (k : ToneId) : s.loadable k = (s.tables.loading k).isSome := by
  unfold State.loadable Tables.loading
  split <;> simp_all
  split <;> simp_all

theorem mem_distinct {α : Type} [BEq α] [LawfulBEq α] (l : List α) (a : α) : a ∈ distinct l ↔ a ∈ l := by
  induction l with
  | nil => simp [distinct]
  | cons x xs ih => simp [distinct, ih]; tauto

theorem nodup_distinct {α : Type} [BEq α] [LawfulBEq α] (l : List α) : (distinct l).Nodup := by
  induction l with
  | nil => simp [distinct]
  | cons x xs ih => simp [distinct]; exact ih.filter _

/-- R79: the loading made of an entry as it is named. -/
theorem loading_fresh {s : State} {k : ToneId} {l : Loading} (h : s.tables.loading k = some l) :
    FreshLoading s l ∧ l.tone = k := by
  unfold Tables.loading at h
  split at h
  · cases h
  · next hte =>
    split at h
    · cases h
    · next hce =>
      cases h
      exact ⟨⟨hte, rfl, hce, rfl, rfl, ⟨rfl, rfl⟩, rfl⟩, rfl⟩

/-- The loadings made of distinct entries are of distinct entries. -/
theorem loadings_nodup (s : State) {ks : List ToneId} (hn : ks.Nodup) :
    ((ks.filterMap s.tables.loading).map Loading.tone).Nodup := by
  induction ks with
  | nil => simp
  | cons k ks ih =>
    rw [List.nodup_cons] at hn
    rw [List.filterMap_cons]
    split
    · exact ih hn.2
    · next l hl =>
      rw [List.map_cons, List.nodup_cons]
      refine ⟨fun hm => ?_, ih hn.2⟩
      simp only [List.mem_map, List.mem_filterMap] at hm
      obtain ⟨l', ⟨y, hy, hl'⟩, he⟩ := hm
      rw [(loading_fresh hl').2, (loading_fresh hl).2] at he
      exact hn.1 (he ▸ hy)

/-- R56, R79: an engine that names the entries of a listening step. -/
theorem nameTones_spec (s : State) (e : EngineId) (roles : List (ToneRole × ToneId)) :
    NamesTones s roles (s.engine e) ((s.nameTones e roles).engine e) := by
  refine ⟨by simp [State.nameTones, loadable_iff],
    (distinct ((roles.filter fun p => (s.tables.loading p.2).isSome).map Prod.snd)).filterMap s.tables.loading,
    by simp [State.nameTones], loadings_nodup s (nodup_distinct _), fun k => ?_, fun l hl => ?_⟩
  · simp only [List.mem_map, List.mem_filterMap, mem_distinct, List.mem_filter, loadable_iff]
    constructor
    · rintro ⟨l, ⟨a, ⟨p, ⟨hp, hv⟩, rfl⟩, hl⟩, rfl⟩
      rw [(loading_fresh hl).2]
      exact ⟨hv, p.1, hp⟩
    · rintro ⟨hv, r, hr⟩
      obtain ⟨l, hl⟩ := Option.isSome_iff_exists.1 hv
      exact ⟨l, ⟨k, ⟨(r, k), ⟨hr, hv⟩, rfl⟩, hl⟩, (loading_fresh hl).2⟩
  · obtain ⟨a, _, hl⟩ := List.mem_filterMap.1 hl
    exact (loading_fresh hl).1

end Sys2Proof.Machine
end

