-- ==== Sys2Proof/WellFormed.lean ====
section
/-! DEFINITION. Which commands are well formed. Every numbered operand is bounded by its type; what is left
to check is that a highway frame carries the 32 words that each line has in a frame (R119). -/

namespace Sys2Proof

/-- A highway frame carries 32 words on TSI and 32 on PXI (R119); every other command is well formed by its
type. -/
def Instr.wellFormed : Instr → Bool
  | .highwayFrame tsi pxi => tsi.length == 32 && pxi.length == 32
  | _ => true

end Sys2Proof
end

