-- ==== Sys2Proof/Laws/PerInstr.lean ====
section
/-! SUPPORT. What is well formed, command by command (R119): every command but a highway frame is well formed by its type, and a
highway frame exactly when each line carries the 32 words of a frame. -/

namespace Sys2Proof.Laws

/-- R119: a command is well formed exactly when, if it is a highway frame, each of its lines carries 32 words. -/
def WellFormed.Statement (i : Instr) : Prop :=
  i.wellFormed = true ↔ ∀ tsi pxi, i = .highwayFrame tsi pxi → tsi.length = 32 ∧ pxi.length = 32

/-- Every command but a highway frame. -/
theorem WellFormed.by_type (i : Instr) (hw : i.wellFormed = true) (hf : ∀ tsi pxi, i ≠ .highwayFrame tsi pxi) :
    WellFormed.Statement i := ⟨fun _ tsi pxi h => absurd h (hf tsi pxi), fun _ => hw⟩

theorem WellFormed.resetNAsserted : WellFormed.Statement .resetNAsserted :=
  WellFormed.by_type _ rfl (by intro _ _ h; cases h)

theorem WellFormed.powerOnReset : WellFormed.Statement .powerOnReset :=
  WellFormed.by_type _ rfl (by intro _ _ h; cases h)

theorem WellFormed.fsPulse (time : Nat) : WellFormed.Statement (.fsPulse time) :=
  WellFormed.by_type _ rfl (by intro _ _ h; cases h)

theorem WellFormed.missedFrameStart : WellFormed.Statement .missedFrameStart :=
  WellFormed.by_type _ rfl (by intro _ _ h; cases h)

theorem WellFormed.syncLost (taken : EngineSet) : WellFormed.Statement (.syncLost taken) :=
  WellFormed.by_type _ rfl (by intro _ _ h; cases h)

theorem WellFormed.syncRestored (time : Nat) : WellFormed.Statement (.syncRestored time) :=
  WellFormed.by_type _ rfl (by intro _ _ h; cases h)

theorem WellFormed.highwayFrame (tsi pxi : List Word) : WellFormed.Statement (.highwayFrame tsi pxi) := by
  simp [WellFormed.Statement, Instr.wellFormed]

theorem WellFormed.debouncedLChange (trunk : TrunkId) : WellFormed.Statement (.debouncedLChange trunk) :=
  WellFormed.by_type _ rfl (by intro _ _ h; cases h)

theorem WellFormed.debouncedGChange (trunk : TrunkId) : WellFormed.Statement (.debouncedGChange trunk) :=
  WellFormed.by_type _ rfl (by intro _ _ h; cases h)

theorem WellFormed.debouncedVChange (trunk : TrunkId) : WellFormed.Statement (.debouncedVChange trunk) :=
  WellFormed.by_type _ rfl (by intro _ _ h; cases h)

theorem WellFormed.debouncedFChange (trunk : TrunkId) (order : FaultOrder) : WellFormed.Statement (.debouncedFChange trunk order) :=
  WellFormed.by_type _ rfl (by intro _ _ h; cases h)

theorem WellFormed.debouncedSChange (trunk : TrunkId) : WellFormed.Statement (.debouncedSChange trunk) :=
  WellFormed.by_type _ rfl (by intro _ _ h; cases h)

theorem WellFormed.warningPartEnd (trunk : TrunkId) : WellFormed.Statement (.warningPartEnd trunk) :=
  WellFormed.by_type _ rfl (by intro _ _ h; cases h)

theorem WellFormed.detectionFrameEnd : WellFormed.Statement .detectionFrameEnd :=
  WellFormed.by_type _ rfl (by intro _ _ h; cases h)

theorem WellFormed.dialToneMatchedTaken (engine : EngineId) (tone : ToneId) : WellFormed.Statement (.dialToneMatchedTaken engine tone) :=
  WellFormed.by_type _ rfl (by intro _ _ h; cases h)

theorem WellFormed.answerMatchedTaken (engine : EngineId) (tone : ToneId) : WellFormed.Statement (.answerMatchedTaken engine tone) :=
  WellFormed.by_type _ rfl (by intro _ _ h; cases h)

theorem WellFormed.ackMatchedTaken (engine : EngineId) (tone : ToneId) : WellFormed.Statement (.ackMatchedTaken engine tone) :=
  WellFormed.by_type _ rfl (by intro _ _ h; cases h)

theorem WellFormed.lineTestToneMatched (engine : EngineId) (tone : ToneId) : WellFormed.Statement (.lineTestToneMatched engine tone) :=
  WellFormed.by_type _ rfl (by intro _ _ h; cases h)

theorem WellFormed.absentTaken (engine : EngineId) (tone : ToneId) : WellFormed.Statement (.absentTaken engine tone) :=
  WellFormed.by_type _ rfl (by intro _ _ h; cases h)

theorem WellFormed.levelTaken (engine : EngineId) : WellFormed.Statement (.levelTaken engine) :=
  WellFormed.by_type _ rfl (by intro _ _ h; cases h)

theorem WellFormed.secondTick : WellFormed.Statement .secondTick :=
  WellFormed.by_type _ rfl (by intro _ _ h; cases h)

theorem WellFormed.backoffExpiry (handle : Handle) : WellFormed.Statement (.backoffExpiry handle) :=
  WellFormed.by_type _ rfl (by intro _ _ h; cases h)

theorem WellFormed.selection : WellFormed.Statement .selection :=
  WellFormed.by_type _ rfl (by intro _ _ h; cases h)

theorem WellFormed.preemptMarkTaken (engine : EngineId) : WellFormed.Statement (.preemptMarkTaken engine) :=
  WellFormed.by_type _ rfl (by intro _ _ h; cases h)

theorem WellFormed.warningTimerExpiry (trunk : TrunkId) : WellFormed.Statement (.warningTimerExpiry trunk) :=
  WellFormed.by_type _ rfl (by intro _ _ h; cases h)

theorem WellFormed.ringRecentExpiry (trunk : TrunkId) : WellFormed.Statement (.ringRecentExpiry trunk) :=
  WellFormed.by_type _ rfl (by intro _ _ h; cases h)

theorem WellFormed.guardTimerExpiry (trunk : TrunkId) : WellFormed.Statement (.guardTimerExpiry trunk) :=
  WellFormed.by_type _ rfl (by intro _ _ h; cases h)

theorem WellFormed.releaseGuardExpiry (engine : EngineId) : WellFormed.Statement (.releaseGuardExpiry engine) :=
  WellFormed.by_type _ rfl (by intro _ _ h; cases h)

theorem WellFormed.loopTimeoutExpiry (engine : EngineId) : WellFormed.Statement (.loopTimeoutExpiry engine) :=
  WellFormed.by_type _ rfl (by intro _ _ h; cases h)

theorem WellFormed.dialToneTimeout (engine : EngineId) : WellFormed.Statement (.dialToneTimeout engine) :=
  WellFormed.by_type _ rfl (by intro _ _ h; cases h)

theorem WellFormed.blindWaitExpiry (engine : EngineId) : WellFormed.Statement (.blindWaitExpiry engine) :=
  WellFormed.by_type _ rfl (by intro _ _ h; cases h)

theorem WellFormed.symbolEnd (engine : EngineId) : WellFormed.Statement (.symbolEnd engine) :=
  WellFormed.by_type _ rfl (by intro _ _ h; cases h)

theorem WellFormed.answerTimeout (engine : EngineId) : WellFormed.Statement (.answerTimeout engine) :=
  WellFormed.by_type _ rfl (by intro _ _ h; cases h)

theorem WellFormed.guardEnd (engine : EngineId) : WellFormed.Statement (.guardEnd engine) :=
  WellFormed.by_type _ rfl (by intro _ _ h; cases h)

theorem WellFormed.ackTimeout (engine : EngineId) : WellFormed.Statement (.ackTimeout engine) :=
  WellFormed.by_type _ rfl (by intro _ _ h; cases h)

theorem WellFormed.ackToneHeardTimeout (engine : EngineId) : WellFormed.Statement (.ackToneHeardTimeout engine) :=
  WellFormed.by_type _ rfl (by intro _ _ h; cases h)

theorem WellFormed.resendGuardEnd (engine : EngineId) : WellFormed.Statement (.resendGuardEnd engine) :=
  WellFormed.by_type _ rfl (by intro _ _ h; cases h)

theorem WellFormed.loopLossExpiry (engine : EngineId) : WellFormed.Statement (.loopLossExpiry engine) :=
  WellFormed.by_type _ rfl (by intro _ _ h; cases h)

theorem WellFormed.levelWindowExpiry (engine : EngineId) : WellFormed.Statement (.levelWindowExpiry engine) :=
  WellFormed.by_type _ rfl (by intro _ _ h; cases h)

theorem WellFormed.engineAbort (engine : EngineId) : WellFormed.Statement (.engineAbort engine) :=
  WellFormed.by_type _ rfl (by intro _ _ h; cases h)

theorem WellFormed.holdTimerExpiry : WellFormed.Statement .holdTimerExpiry :=
  WellFormed.by_type _ rfl (by intro _ _ h; cases h)

theorem WellFormed.commandExpired : WellFormed.Statement .commandExpired :=
  WellFormed.by_type _ rfl (by intro _ _ h; cases h)

theorem WellFormed.periodicTestExpiry : WellFormed.Statement .periodicTestExpiry :=
  WellFormed.by_type _ rfl (by intro _ _ h; cases h)

theorem WellFormed.silenceTimerExpiry : WellFormed.Statement .silenceTimerExpiry :=
  WellFormed.by_type _ rfl (by intro _ _ h; cases h)

theorem WellFormed.cellTaken : WellFormed.Statement .cellTaken :=
  WellFormed.by_type _ rfl (by intro _ _ h; cases h)

theorem WellFormed.alert : WellFormed.Statement .alert :=
  WellFormed.by_type _ rfl (by intro _ _ h; cases h)

theorem WellFormed.tableWrite : WellFormed.Statement .tableWrite :=
  WellFormed.by_type _ rfl (by intro _ _ h; cases h)

theorem WellFormed.tableRead : WellFormed.Statement .tableRead :=
  WellFormed.by_type _ rfl (by intro _ _ h; cases h)

theorem WellFormed.queueRead : WellFormed.Statement .queueRead :=
  WellFormed.by_type _ rfl (by intro _ _ h; cases h)

theorem WellFormed.statusRequest : WellFormed.Statement .statusRequest :=
  WellFormed.by_type _ rfl (by intro _ _ h; cases h)

theorem WellFormed.cancel : WellFormed.Statement .cancel :=
  WellFormed.by_type _ rfl (by intro _ _ h; cases h)

theorem WellFormed.unknownKind : WellFormed.Statement .unknownKind :=
  WellFormed.by_type _ rfl (by intro _ _ h; cases h)

theorem WellFormed.lineTest : WellFormed.Statement .lineTest :=
  WellFormed.by_type _ rfl (by intro _ _ h; cases h)

theorem WellFormed.testCall : WellFormed.Statement .testCall :=
  WellFormed.by_type _ rfl (by intro _ _ h; cases h)

theorem WellFormed.bar : WellFormed.Statement .bar :=
  WellFormed.by_type _ rfl (by intro _ _ h; cases h)

theorem WellFormed.unbar : WellFormed.Statement .unbar :=
  WellFormed.by_type _ rfl (by intro _ _ h; cases h)

theorem WellFormed.barAll : WellFormed.Statement .barAll :=
  WellFormed.by_type _ rfl (by intro _ _ h; cases h)

theorem WellFormed.unbarAll : WellFormed.Statement .unbarAll :=
  WellFormed.by_type _ rfl (by intro _ _ h; cases h)

theorem WellFormed.hold : WellFormed.Statement .hold :=
  WellFormed.by_type _ rfl (by intro _ _ h; cases h)

theorem WellFormed.resume : WellFormed.Statement .resume :=
  WellFormed.by_type _ rfl (by intro _ _ h; cases h)

theorem WellFormed.abortCalls (taken : EngineSet) : WellFormed.Statement (.abortCalls taken) :=
  WellFormed.by_type _ rfl (by intro _ _ h; cases h)

theorem WellFormed.releaseStranded : WellFormed.Statement .releaseStranded :=
  WellFormed.by_type _ rfl (by intro _ _ h; cases h)

theorem WellFormed.purge : WellFormed.Statement .purge :=
  WellFormed.by_type _ rfl (by intro _ _ h; cases h)

theorem WellFormed.setNotify : WellFormed.Statement .setNotify :=
  WellFormed.by_type _ rfl (by intro _ _ h; cases h)

theorem WellFormed.clearEvents : WellFormed.Statement .clearEvents :=
  WellFormed.by_type _ rfl (by intro _ _ h; cases h)

theorem WellFormed.init (taken : EngineSet) : WellFormed.Statement (.init taken) :=
  WellFormed.by_type _ rfl (by intro _ _ h; cases h)

theorem WellFormed.badCommandCode : WellFormed.Statement .badCommandCode :=
  WellFormed.by_type _ rfl (by intro _ _ h; cases h)

theorem WellFormed.answerEmissionStart : WellFormed.Statement .answerEmissionStart :=
  WellFormed.by_type _ rfl (by intro _ _ h; cases h)

theorem WellFormed.eventCellStart : WellFormed.Statement .eventCellStart :=
  WellFormed.by_type _ rfl (by intro _ _ h; cases h)

theorem WellFormed.emissionEnd : WellFormed.Statement .emissionEnd :=
  WellFormed.by_type _ rfl (by intro _ _ h; cases h)

end Sys2Proof.Laws
end

