-- ==== Sys2Proof/Tests/Slice0.lean ====
section
/-! SUPPORT. Tests. The expected results come from the spec's own worked examples and from hand calculation by its rules,
each named in the test's docstring. The theorems named witness_<statement> show
concrete states and operands that meet the hypotheses of that statement of Obligations.lean, clause by clause, at the
boundary values of its ranges. -/

namespace Sys2Proof.Tests

open Sys2Proof Sys2Proof.Machine

/-! ### Small states -/

/-- The state a command answers, every command answering one. -/
def after (c : Instr) (s : State) : State :=
  match exec c s with
  | .next t => t
  | _ => s

def site : SiteRecord :=
  { account := [4, 1, 7, 2, 0, 9], dialTone := 0, busyTone := 1, reorderTone := 2, symbolOn := 50, symbolOff := 50,
    generatorLevel := 6, silenceFloor := 4096, loopTimeout := 400, loopLossTime := 200, releaseGuard := 1000,
    warningFrequency := 1400, warningOn := 200, warningOff := 800, periodicInterval := 24, periodicEvent := 602,
    silenceTime := 60, silenceEvent := 350, lineFaultEvent := 351, goodLevel := 2000 }

def route : RouteEntry :=
  { valid := true, dial := [.tone 5, .pause, .wait], handshakeTone := 3, ackTone := 4, blocksPerCall := 2,
    blockTries := 2, fallbackAfter := 2, dialToneMode := .wait, answerTimeout := 45, ackTimeout := 15 }

def cls : ClassEntry :=
  { routes := [0, 1], preemptMode := .afterWarning, warningTime := 8, cancelWindow := 60, backoffBase := 5,
    backoffCap := 120, maxCycles := 2, classSymbol := 1 }

def tone : ToneEntry := { components := 1, first := ⟨23170, 100, 24⟩, second := ⟨0, 0, 0⟩, cadence := 0 }

def cadence : CadenceEntry := { onMin := 4, onMax := 6, offMin := 4, offMax := 6, cyclesRequired := 2 }

/-- Loaded tables: every route valid, route 7 BLIND, trunk 0 SHARED on slot 5, trunk 1 RESERVED on slot 6. -/
def tables : Tables :=
  { site := some site
    classes := Vector.replicate 6 (some cls)
    routes := vput (Vector.replicate 8 ⟨some route, none⟩) 7 ⟨some { route with dialToneMode := .blind }, none⟩
    trunks := vput (vput (Vector.replicate 8 ⟨none, none⟩) 0 ⟨some ⟨.shared, 5⟩, none⟩) 1 ⟨some ⟨.reserved, 6⟩, none⟩
    tones := Vector.replicate 16 ⟨some tone, none⟩
    cadences := Vector.replicate 8 ⟨some cadence, none⟩ }

/-- The part in sync, with the tables loaded and both trunks idle. -/
def ready : State :=
  { State.reset with
    clock := 500
    tables := tables
    hwi := { Hwi.reset with sync := .inSync 1000 0 }
    trunks := vput (vput State.reset.trunks 0 { Trunk.reset with state := .idleOffice }) 1
      { Trunk.reset with state := .idleReserved } }

/-- The state with this cell in hand. -/
def holding (s : State) (kind : Nat) (body : List Word) : State :=
  { s with ccp := { s.ccp with inHand := some ⟨headerWord kind 1 body.length, body⟩ } }

/-- The state with this COMMAND cell in hand. -/
def commanded (s : State) (code w2 w3 : Nat) : State := holding s 5 [wordOf code, wordOf w2, wordOf w3]

/-- The result code and detail of the last answer placed in the answer queue. -/
def lastAnswer (s : State) : Option (Result × List Word) :=
  match s.ccp.answers.getLast? with
  | some ⟨_, .answer _ r d, _⟩ => some (r, d)
  | _ => none

/-- An alert of the first worked block: event code 110, zone 23, source 5. -/
def key : Key := ⟨5, 23, 110, .new⟩

def alert (h : Handle) (state : RecordState) : Record := { newRecord h key 0 with state := state }

def call : CallRecord :=
  { route := 0, trunk := 0, blocks := [⟨some 3, .queued⟩], current := 0, tries := 1, preempt := false,
    fromOffice := false }

/-- The state with E0 in this phase and step, with this work, holding trunk 0 TAKEN, and its phase timer run out. -/
def engaged (phase : Phase) (step : Step) (work : Work) : State :=
  { (ready.setTrunk 0 { Trunk.reset with state := .taken, holder := some .e0 }).setEngine .e0
      { Engine.reset with phase := phase, step := step, work := work, seize := true, phaseTimer := some 0 } with
    queue := [alert 3 (.inCall .e0)]
    dsc := { Dsc.reset with startOrder := [.e0] } }

/-- E0 in an alert call for the record with handle 3. -/
def calling (phase : Phase) (step : Step) : State := engaged phase step (.alertCall call)

def lineTest : LineTestRecord := { trunk := 0, polarity := false, loopDelay := 13, peak := 1930000 }

/-- The state with E0's engine rewritten. -/
def withE0 (s : State) (f : Engine → Engine) : State := s.setEngine .e0 (f (s.engine .e0))

/-- The state with the debounced value of a signal of a trunk set. -/
def withLine (s : State) (t : TrunkId) (sig : LineSignal) (value : Bool) : State :=
  { s with hwi := { s.hwi with lines := vput s.hwi.lines t ((vget s.hwi.lines t).put sig ⟨value, 0⟩) } }

/-- The state with a change of a signal of trunk `t` delivered, its debounced value as the change gives it. -/
def changed (s : State) (t : TrunkId) (sig : LineSignal) (value : Bool) : State :=
  { withLine s t sig value with hwi := { (withLine s t sig value).hwi with deliveries := [⟨t, sig, value⟩] } }

/-- The state once its delivered change has been taken. -/
def taken (s : State) : State := { s with hwi := { s.hwi with deliveries := [] } }

def syncAt (x : SyncState) : State := { ready with hwi := { ready.hwi with sync := x } }

def quiet : List Word := List.replicate 32 0

/-! ### Well-formedness -/

/-- R119: a frame with 31 words on one of its lines is refused. -/
theorem test_short_tsi_ill_formed : (Instr.highwayFrame (List.replicate 31 0) quiet).wellFormed = false := by decide

theorem test_short_pxi_ill_formed : (Instr.highwayFrame quiet (List.replicate 31 0)).wellFormed = false := by decide

theorem test_whole_frame_well_formed : (Instr.highwayFrame quiet quiet).wellFormed = true := by decide

/-! ### The control channel -/

/-- 10.2: the check word of header 0xA143 with 1000, 30000 and 12345 is 2061. -/
theorem test_check_word : checkWord 0xA143 [1000, 30000, 12345] = 0x080D := by decide

/-- R181: 0xA143 is an ALERT with tag 1 and three body words. -/
theorem test_header_fields : headerKind 0xA143 = 1 ∧ headerTag 0xA143 = 1 ∧ headerLength 0xA143 = 3 := by decide

/-- 10.2: 0x1234 in HUNT sets FRAMING. -/
theorem test_word_in_hunt : (ready.assembleWord 0x1234).ccp.flags = { StickyFlags.clear with framing := true } := by decide

/-- 10.2: the idle word in BODY discards the cell and sets ABORTED_CELL. -/
theorem test_idle_word_in_body :
    ((ready.setAssembler (.body 0xA143 [1000, 30000] 1)).assembleWord 0xFFFF).ccp =
      { ready.ccp with flags := { StickyFlags.clear with abortedCell := true } } := by decide

/-- 10.2: a valid cell with the queue full sets OVERRUN; a check word off by one sets BAD_CHECK. -/
theorem test_overrun_and_bad_check :
    let cell : InCell := ⟨0xA143, [1000, 30000, 12345]⟩
    let s := ready.setAssembler (.check 0xA143 [1000, 30000, 12345])
    (({ s with ccp := { s.ccp with inbound := List.replicate 4 cell } } : State).assembleWord 0x080D).ccp.flags =
        { StickyFlags.clear with overrun := true } ∧
      (s.assembleWord 0x080C).ccp.flags = { StickyFlags.clear with badCheck := true } := by decide

/-- R177, R181: after power-on reset the idle word shows READY alone. -/
theorem test_idle_word : State.reset.idleWord = 0xFF01 := by decide

/-! ### Blocks and symbols -/

/-- 3.7, first block: 4 1 7 2 0 9, class symbol 1, NEW, 110, 023, 05 has check symbol 4. -/
theorem test_first_block : reportBlock site.account 1 key = [4, 1, 7, 2, 0, 9, 1, 1, 1, 1, 0, 0, 2, 3, 0, 5, 4] := by
  decide

/-- 3.7, second block: 2 2 5 8, class symbol 0, RESTORE, 001, 999, 63 has check symbol 13. -/
theorem test_second_block :
    reportBlock [2, 2, 5, 8] 0 ⟨63, 999, 1, .restore⟩ = [2, 2, 5, 8, 0, 2, 0, 0, 1, 9, 9, 9, 6, 3, 13] := by decide

/-- 11: the check symbol 4 is sent on 770 Hz and 1209 Hz. -/
theorem test_symbol_four :
    (rowFrequency (gridPlace 4).1, columnFrequency (gridPlace 4).2) = (770, 1209) := by decide

/-- 6.5: the warning samples at 1400 Hz and 6 dB in frames 0, 1, 3 and 5. -/
theorem test_warning_samples : [0, 1, 3, 5].map (warningSample 1400 6) = [0, 3572, -627, -2835] := by decide

/-- 6.5: 30000 + 3572 is sent as 32767, -32768 - 2835 as -32768, -5000 + 3572 as -1428. -/
theorem test_saturated_sums :
    saturate16 (30000 + 3572) = 32767 ∧ (saturate16 (-32768 - 2835)).toInt = -32768 ∧
      (saturate16 (-5000 + 3572)).toInt = -1428 := by decide

/-! ### Detection -/

/-- 4.3: five samples into a bin with c = 23170. -/
theorem test_first_samples :
    ([100, 50, -30, -200, 0].foldl (fun (b : Bin) x => b.sample 23170 x) ⟨true, 0, 0⟩).prev = -415 ∧
      ([100, 50, -30, -200].foldl (fun (b : Bin) x => b.sample 23170 x) ⟨true, 0, 0⟩).prev = -194 := by decide

/-- R78: the samples 1600 and -3200 are scaled to 100 and -200, and -1 to -1. -/
theorem test_scaled_samples : [scaleSample 1600, scaleSample (-3200), scaleSample (-1)] = [100, -200, -1] := by decide

/-- 4.3: a = 150,000 and b = 120,000 give E_b = 178,824,375; a bin at its clamp gives the ceiling. -/
theorem test_band_energy :
    (⟨true, 150000, 120000⟩ : Bin).bandEnergy 23170 = 178824375 ∧
      (⟨true, 8388607, 0⟩ : Bin).bandEnergy 23170 = 4294967295 := by decide

/-- 4.4: the 1000 Hz component is present with ratio 24 and absent with ratio 40. -/
theorem test_component_presence :
    (⟨23170, 100, 24⟩ : Component).present 4096 290000000 178824375 = true ∧
      (⟨23170, 100, 40⟩ : Component).present 4096 290000000 178824375 = false := by decide

/-- A classifier run over frames of presence, with whether the last frame reports MATCHED. -/
def classified (k : CadenceEntry) (frames : List Bool) : Classifier × Bool :=
  frames.foldl (fun x present => x.1.frame k present) (Classifier.initial, false)

def burst : List Bool := List.replicate 5 true

def gap : List Bool := List.replicate 5 false

/-- 4.5: the busy tone loaded 2 frames before the end of a burst has one cycle at frame 28 and is MATCHED at frame 29. -/
theorem test_cadenced_busy_tone :
    (classified cadence ([true, true] ++ gap ++ burst ++ gap ++ burst ++ gap ++ [true, true])).2 = true ∧
      (classified cadence ([true, true] ++ gap ++ burst ++ gap ++ burst ++ gap ++ [true])).2 = false ∧
      (classified cadence ([true, true] ++ gap ++ burst ++ gap ++ burst ++ gap ++ [true])).1.cycles = 1 := by decide

set_option maxRecDepth 4000 in
/-- 4.5: the continuous dial tone with a dropout at frame 10 is MATCHED at frame 30 and not again at frame 31. -/
theorem test_continuous_dial_tone :
    let k : CadenceEntry := { cadence with onMin := 30, offMax := 0 }
    let frames := List.replicate 9 true ++ [false] ++ List.replicate 20 true
    (classified k frames).2 = true ∧ (classified k frames.dropLast).2 = false ∧
      (classified k (frames ++ [true])).2 = false := by decide

/-! ### Debounce -/

/-- 6.4: ten present frames, one absent, fifteen present leave the value absent at count 15; one more makes it present. -/
theorem test_debounce :
    let fed (n : Nat) := (List.replicate 10 true ++ [false] ++ List.replicate n true).foldl Debounced.frame ⟨false, 0⟩
    fed 15 = ⟨false, 15⟩ ∧ fed 16 = ⟨true, 0⟩ := by decide

/-! ### Queue and trunks -/

/-- 1.2: a WATERFLOW alert takes handle 3 and stands between the FIRE and the BOILER record. -/
theorem test_admission_order :
    let r (h : Handle) (k c : Nat) (st : RecordState) : Record :=
      { newRecord h ⟨0, k, 1, .new⟩ (Fin.ofNat 6 c) with state := st }
    let s : State := { ready with
      queue := [r 1 1 0 (.inCall .e0), r 2 2 3 (.held 9 0), r 0 3 4 .waiting], dsc := { Dsc.reset with hold := some 9 } }
    (s.offer ⟨0, 9, 1, .new⟩ 1).1.queue.map Record.handle = [1, 3, 2, 0] ∧
      (s.offer ⟨0, 9, 1, .new⟩ 1).2 = .accepted 3 := by decide

/-- The record of 1.7 after its failures so far. -/
def failed (failures routeFailures pos cycles : Nat) : Record :=
  { newRecord 6 key 2 with
    state := .inCall .e0, failures := failures, routeFailures := routeFailures, routePos := pos, cycles := cycles }

/-- The class entry of 1.7. -/
def fallbackClass : ClassEntry := { cls with routes := [2, 5] }

/-- 1.7, failures 2, 4 and 6: FALLBACK (6, 2, 5) with the base, then 40 s, then the cap. -/
theorem test_failures_and_backoffs :
    (failed 1 1 0 0).fail fallbackClass 2 2 =
        ({ failed 2 0 1 0 with state := .held 5 0 }, [.fallback 6 2 5]) ∧
      (failed 3 1 1 0).fail fallbackClass 3 5 = ({ failed 4 2 1 0 with state := .held 40 0 }, []) ∧
      (failed 5 0 0 1).fail fallbackClass 2 2 = ({ failed 6 1 0 1 with state := .held 120 0 }, []) := by decide

/-- 1.7, failure 10: FALLBACK (6, 5, 2) and STRANDED. -/
theorem test_stranding :
    (failed 9 2 1 1).fail fallbackClass 3 5 =
      ({ failed 10 0 0 2 with state := .stranded }, [.fallback 6 5 2, .stranded 6 key]) := by decide

/-- The trunks of 5.2, times in 10 ms units from 10:00:00. -/
def requests : State :=
  let busy (t : Nat) : Trunk := { Trunk.reset with state := .officeBusy, busySince := some t }
  let shared (k : Nat) : Staged TrunkEntry := ⟨some ⟨.shared, k⟩, none⟩
  let reserved (k : Nat) : Staged TrunkEntry := ⟨some ⟨.reserved, k⟩, none⟩
  { ready with
    tables := { tables with trunks := #v[shared 0, shared 1, reserved 2, shared 3, reserved 4, ⟨some ⟨.office, 5⟩, none⟩,
      shared 6, shared 7] }
    trunks := #v[busy 13530, { Trunk.reset with state := .idleOffice },
      { Trunk.reset with state := .idleReserved, ringTimer := some 300 }, busy 10000,
      { Trunk.reset with state := .idleReserved, barred := true }, Trunk.reset, busy 10000,
      { Trunk.reset with state := .cooldown, guard := .running 50 }] }

/-- 5.2: the three requests in turn: trunk 1, then trunk 3, then refused. -/
theorem test_three_requests :
    let s1 := requests.grantTrunk 1 .e0 .none 0 0
    requests.chooseTrunk .none = some 1 ∧ s1.chooseTrunk .immediate = some 3 ∧
      (s1.grantTrunk 3 .e1 .immediate 0 0).chooseTrunk .none = none := by decide

/-! ### Tables -/

/-- 7.3: cadence 3 written 40, 25, 0, 300, 6: on max, off min, off max and cycles required are listed. -/
theorem test_cadence_write :
    (after .tableWrite (holding ready 3 [0x503, 40, 25, 0, 300, 6])).tables.cadences =
        vput tables.cadences 3 ⟨some ⟨40, 40, 1, 255, 4⟩, none⟩ ∧
      lastAnswer (after .tableWrite (holding ready 3 [0x503, 40, 25, 0, 300, 6])) =
        some (.clamped, [0b1111000, 0, 0]) := by decide

/-- 7.3: written 300, 0, 50, 0, 2: a continuous tone, on min and on max listed. -/
theorem test_continuous_cadence_write :
    (after .tableWrite (holding ready 3 [0x503, 300, 0, 50, 0, 2])).tables.cadences =
        vput tables.cadences 3 ⟨some ⟨255, 255, 50, 0, 2⟩, none⟩ ∧
      lastAnswer (after .tableWrite (holding ready 3 [0x503, 300, 0, 50, 0, 2])) =
        some (.clamped, [0b1100, 0, 0]) := by decide

/-- R140, R183: trunk 2 written with trunk 0's slot is REFUSED with DUPLICATE_SLOT. -/
theorem test_duplicate_slot : lastAnswer (after .tableWrite (holding ready 3 [0x302, 1, 5])) = some (.refused, [2]) := by
  decide

/-! ### Steps of the part -/

/-- R132: after POWER_ON_RESET the part is in its reset state. -/
theorem test_power_on_reset : after .powerOnReset ready.holdInReset = State.reset := by decide

/-- R129: a pulse 125 us after the last one counts a good frame; at any other time, or after a frame period without a pulse,
the count starts again. -/
theorem test_pulses :
    (after (.fsPulse 325) (syncAt (.lost (some 200) 3))).hwi.sync = .lost (some 325) 4 ∧
      (after (.fsPulse 330) (syncAt (.lost (some 200) 3))).hwi.sync = .lost (some 330) 0 ∧
      (after .missedFrameStart (syncAt (.lost (some 200) 3))).hwi.sync = .lost (some 200) 0 := by decide

/-- 6.8: the third missed frame start loses sync, with HIGHWAY LOST. -/
theorem test_third_miss :
    (after .missedFrameStart (syncAt (.inSync 1000 2))).hwi.sync = .lost none 0 ∧
      (vget (after .missedFrameStart (syncAt (.inSync 1000 2))).evr.records 15).latest = some (.highway false) := by decide

/-- 5.4, 0.00 s: an AFTER_WARNING grant of a busy trunk puts it into WARNING for 8 s with OFFICE_PREEMPTED. -/
theorem test_warning_grant :
    let s := requests.grantTrunk 0 .e0 .afterWarning 8 1
    (s.trunk 0).state = .warning ∧ (s.trunk 0).warnTimer = some 800 ∧
      (vget s.evr.records 7).latest = some (.officePreempted 0 1) := by decide

/-- 2.8: the most urgent waiting record marks the call with the least urgent head class, E0's, which started first. -/
theorem test_preemption_mark :
    let mk (h : Handle) (c : Nat) (st : RecordState) : Record :=
      { newRecord h ⟨0, h.val, 1, .new⟩ (Fin.ofNat 6 c) with state := st }
    let held (e : EngineId) (t : TrunkId) (rt : RouteId) (hs : List Handle) (p : Phase) (s : State) : State :=
      s.setEngine e { Engine.reset with phase := p, work := .alertCall { call with
        route := rt, trunk := t, blocks := hs.map fun h => ⟨some h, .queued⟩ } }
    let s0 : State := { ready with
      queue := [mk 13 0 .waiting, mk 11 3 (.inCall .e1), mk 9 4 (.inCall .e0), mk 10 4 (.inCall .e0),
        mk 12 5 (.inCall .e1)]
      dsc := { Dsc.reset with startOrder := [.e0, .e1], selectionsDue := 1 } }
    let s := held .e0 0 4 [9, 10] .dialing (held .e1 1 6 [11, 12] .awaitAck s0)
    (after .selection s).dsc.marked = some .e0 := by decide

/-- 8.3, 0.13 s: L present 130 ms after the seize start ends SEIZE with loop delay 130 ms and a 4 s timeout. -/
theorem test_line_test_loop :
    let s := withE0 (engaged .seize .none (.lineTest { lineTest with loopDelay := 0, peak := 0 })) fun x =>
      { x with seizeStart := some 487 }
    ((after (.debouncedLChange 0) (changed s 0 .l true)).engine .e0).work =
        .lineTest { lineTest with loopDelay := 13, peak := 0 } ∧
      ((after (.debouncedLChange 0) (changed s 0 .l true)).engine .e0).phaseTimer = some 400 := by decide

/-- 8.3, 1.52 s: a peak of 1,930,000 against a good level of 512,000 with V absent is PASS. -/
theorem test_line_test_passes :
    vget (after (.levelWindowExpiry .e0) (engaged .dialTone .toneHeard (.lineTest lineTest))).cmu.results 0 =
      ⟨true, .pass, 1930000, 13⟩ := by decide +kernel

/-- 5.7: a first NO_DIAL_TONE counts one line failure, frees the record uncounted and puts the trunk into COOLDOWN. -/
theorem test_no_dial_tone :
    let t := after (.dialToneTimeout .e0) (calling .dialTone .listen)
    (t.trunk 0).failures = 1 ∧ (t.trunk 0).state = .cooldown ∧ t.queue = [alert 3 .waiting] := by decide

/-- 5.7: a second line failure faults the trunk and offers the TROUBLE alert of zone trunk + 1. -/
theorem test_second_line_failure :
    let s := calling .seize .none
    let t := after (.loopTimeoutExpiry .e0) (s.setTrunk 0 { s.trunk 0 with failures := 1 })
    (t.trunk 0).faulted = true ∧ (t.findRecord 0).map Record.key = some ⟨0, 1, 351, .new⟩ := by decide

/-- R68, R44: an acknowledgement delivers the record and starts the tone's ack timeout of 1.5 s. -/
theorem test_acknowledged :
    let s := withE0 (calling .awaitAck .listen) fun x => { x with listening := [(.ack, 4)], reports := [.matched 4] }
    let t := after (.ackMatchedTaken .e0 4) s
    t.queue = [] ∧ (t.engine .e0).step = .toneHeard ∧ (t.engine .e0).phaseTimer = some 150 ∧
      (vget t.evr.records 0).latest = some (.delivered 3 key 0) := by decide

/-- R41: HOLD 0 is a hold of 1 minute, HOLD 90 one of 60. -/
theorem test_hold_minutes :
    (after .hold (commanded ready 7 0 0)).dsc.hold = some 6000 ∧
      (after .hold (commanded ready 7 90 0)).dsc.hold = some 360000 := by decide

/-- R153, R183: a CANCEL of a held LINE_TEST(3) names it. -/
theorem test_cancel :
    lastAnswer (after .cancel (holding { ready with cmu := { ready.cmu with slot := .held (.lineTest 3) 100 } } 6 [])) =
      some (.cancelled, [1, 3]) := by decide

/-- R165, R168, R183: bit 4 of the second mask word is kind 12, TABLE_APPLIED. -/
theorem test_notify_mask :
    (List.finRange 16).filter (fun k => (vget (after .setNotify (commanded ready 12 0 16)).evr.records k).enabled) = [12] := by
  decide

/-- 9.3: DELIVERED, restored from a lost cell, has its counts added and keeps the later detail. -/
theorem test_lost_event_cell :
    let d (h : Handle) : Detail := .delivered h key 0
    let x : Evr :=
      { records := vput State.reset.evr.records 0 { EventRecord.reset with pending := true, count := 1, latest := some (d 7) }
        emission := some { entries := [⟨0, 1, some (d 6)⟩], restore := [0] } }
    vget x.restored.records 0 = { EventRecord.reset with pending := true, count := 2, latest := some (d 7) } ∧
      x.restored.emission = none := by decide

/-- R128, R124: a TAKEN trunk's slot is silent toward the PBX, and its nibble shows F alone there. -/
theorem test_taken_trunk_frame :
    let t := after (.highwayFrame (List.replicate 32 0x7777) quiet) (calling .seize .none)
    t.hwi.pxo.map (fun w => (slotWord w 5, lineNibble w 0)) = some (0, 1) ∧
      t.hwi.tso.map (fun w => lineNibble w 0) = some 8 := by decide

/-! ### States that meet the statements' hypotheses: the machine as a whole -/

theorem witness_EmptyQueueStepTicksTimers :
    let s : State := { ready with cmu := { ready.cmu with slot := .held (.lineTest 1) 3000 } }
    s.pending = [] ∧ s.resetLow = false ∧ s.cmu.slot = .held (.lineTest 1) 3000 ∧
      ready.pending = [] ∧ ready.resetLow = false ∧ ready.cmu.slot = .empty := by decide

theorem witness_ResetPinCommands :
    ready.holdInReset.resetLow = true ∧ ready.holdInReset.pending = [] ∧ Instr.cellTaken ≠ .resetNAsserted ∧
      Instr.cellTaken ≠ .powerOnReset := by decide

/-- A state in the middle of things: E0 in a call for one of two records, a line failure waiting in front of the queue of
commands. -/
def busy : State :=
  { calling .seize .none with
    pending := [.loopTimeoutExpiry .e0]
    queue := [alert 3 (.inCall .e0), { alert 4 (.held 9 0) with cls := 2 }] }

theorem busy_step : ∃ t, step busy = .next t := ⟨_, rfl⟩

theorem witness_StepKeepsQueueSound : QueueSound busy := by
  refine ⟨by decide, by decide, by decide⟩

/-- R13: E0's alert call holds handle 3, once, in its current entry; handle 4 stands in no call. -/
theorem busy_binding (h : Handle) :
    ((∃ r ∈ busy.queue, r.handle = h ∧ r.state = .inCall .e0) ↔ h ∈ call.unsettled) ∧
      ¬∃ r ∈ busy.queue, r.handle = h ∧ r.state = .inCall .e1 := by
  revert h
  decide

theorem witness_StepKeepsQueueSound_calls : IdleEnginesEmpty busy ∧ CallsHoldRecords busy := by
  constructor
  · intro e
    cases e
    · intro h; cases h
    · exact fun _ => ⟨rfl, fun l hl => by cases hl⟩
  · intro e
    cases e
    · refine ⟨fun h => (busy_binding h).1.trans ⟨fun hm => ⟨call, rfl, hm⟩, ?_⟩, ?_, ?_⟩
      · rintro ⟨c, hc, hm⟩
        cases hc
        exact hm
      · intro c hc
        cases hc
        refine ⟨by decide, by decide, fun i b hb => ?_⟩
        match i with
        | 0 => cases hb; decide
        | i + 1 => cases hb
      · intro c hc
        cases hc
    · refine ⟨fun h => ⟨fun hr => absurd hr (busy_binding h).2, ?_⟩, ?_, ?_⟩
      · rintro ⟨c, hc, -⟩
        cases hc
      · intro c hc
        cases hc
      · intro c hc
        cases hc

theorem witness_StepKeepsRecordsInRange : RecordsInRange busy := by
  unfold RecordsInRange
  decide

theorem witness_StepKeepsTrunksHeld : TrunksSound busy ∧ HoldersSound busy := by
  refine ⟨by unfold TrunksSound; decide, ?_⟩
  intro t e
  revert t
  cases e <;> decide

theorem witness_StepKeepsRoutesDistinct : RoutesDistinct busy := by
  intro c0 c1 _ h
  cases h

theorem witness_StepKeepsSignalsSound : DetectorsSound busy ∧ DebounceSound busy := by
  refine ⟨⟨⟨by decide, by decide⟩, ⟨by decide, by decide⟩⟩, ?_⟩
  intro t sig
  revert t
  cases sig <;> decide

theorem witness_StepKeepsChannelSound : ChannelSound busy := by
  unfold ChannelSound
  decide

theorem witness_StepKeepsEventsSound : EventsSound busy := by
  refine ⟨fun k => ?_, fun m h => by cases h⟩
  have h : vget busy.evr.records k = EventRecord.reset := by revert k; decide
  rw [h]
  exact ⟨by decide, by decide, fun d hd => by cases hd⟩

/-- No two trunks of the loaded tables name the same slot. -/
theorem tables_slots_distinct (s : State) (h : s.tables = tables) : SlotsDistinct s := by
  intro t u htu a ha b hb x y hx hy hxr hyr
  subst hx hy
  rw [h] at ha hb
  have none_of : ∀ w : TrunkId, (vget tables.trunks w).staged = none := by decide
  rw [none_of] at ha hb
  simp only [List.mem_cons, List.not_mem_nil, or_false, reduceCtorEq] at ha hb
  have all : ∀ t u : TrunkId, t ≠ u → ((vget tables.trunks t).applied.elim true fun x =>
      (vget tables.trunks u).applied.elim true fun y => x.role == .unused || y.role == .unused || x.slot != y.slot) =
        true := by decide
  have now := all t u htu
  rw [← ha, ← hb] at now
  simpa [hxr, hyr] using now

theorem witness_StepKeepsTablesSound : TablesInRange busy ∧ SlotsDistinct busy :=
  ⟨⟨by decide, by decide, by decide, by decide, by decide, by decide⟩, tables_slots_distinct busy rfl⟩

theorem witness_StepKeepsIdleEnginesEmpty : IdleEnginesEmpty busy := by
  intro e
  cases e <;> decide

/-! ### Frame sync and the highway -/

theorem witness_FramePulsesJudged :
    ready.resetLow = false ∧ (syncAt (.inSync 1000 0)).hwi.sync = .inSync 1000 0 ∧ (1001 : Nat) ≠ 1000 ∧
      (syncAt (.inSync 1000 1)).hwi.sync = .inSync 1000 1 ∧ (syncAt (.inSync 1000 2)).hwi.sync = .inSync 1000 2 ∧
      (syncAt (.lost none 0)).hwi.sync = .lost none 0 ∧ (none : Option Nat).map (· + 125) ≠ some 0 ∧
      (some 200 : Option Nat).map (· + 125) ≠ some 324 ∧
      (syncAt (.lost (some 200) 6)).hwi.sync = .lost (some 200) 6 ∧
      (syncAt (.lost (some 200) 7)).hwi.sync = .lost (some 200) 7 := by decide

theorem witness_SyncRestoredEffect :
    (syncAt (.lost (some 200) 7)).resetLow = false ∧ (syncAt (.lost (some 200) 7)).hwi.sync = .lost (some 200) 7 := by
  decide

/-- E0 dialing on trunk 0, with two frame starts missed. -/
def missing : State :=
  { calling .dialing .none with hwi := { ready.hwi with sync := .inSync 1000 2 } }

theorem missing_events_sound : EventsSound missing := by
  refine ⟨fun k => ?_, fun m h => by cases h⟩
  have h : vget missing.evr.records k = EventRecord.reset := by revert k; decide
  rw [h]
  exact ⟨by decide, by decide, fun d hd => by cases hd⟩

theorem witness_SyncLostEffect :
    missing.resetLow = false ∧ missing.hwi.sync = .inSync 1000 2 ∧ (missing.trunk 0).state = .taken ∧
      (missing.trunk 1).state = .idleReserved ∧ (missing.engine .e0).work ≠ .nothing ∧
      (missing.engine .e0).phase ≠ .closing ∧ takes ⟨true, true⟩ .e0 = true ∧ takes ⟨false, true⟩ .e0 = false ∧
      missing.ccp.emitter = .idle := by decide

/-- The same part with its HIGHWAY event in emission, three words of the cell left. -/
def emittingEvent : State :=
  { missing with
    ccp := { missing.ccp with emitter := .emitting .event [1, 2, 3] }
    evr := { missing.evr with emission := some { entries := [⟨15, 2, some (.highway true)⟩], restore := [15] } } }

theorem witness_SyncLostEffect_emission :
    EventsSound emittingEvent ∧ QueueSound missing ∧ emittingEvent.ccp.emitter = .emitting .event [1, 2, 3] ∧
      emittingEvent.evr.emission = some { entries := [⟨15, 2, some (.highway true)⟩], restore := [15] } ∧
      (0 : EventKind) ∉ ([8, 9, 12, 15] : List EventKind) := by
  refine ⟨⟨missing_events_sound.1, fun m h => ?_⟩, ⟨by decide, by decide, by decide⟩, rfl, rfl, by decide⟩
  cases h
  refine ⟨by decide, fun n hn => ?_⟩
  simp only [List.mem_cons, List.not_mem_nil, or_false] at hn
  subst hn
  exact ⟨by decide, by decide, fun d hd => by cases hd; rfl⟩

/-- R157, R158, R72: E0 running this line test or test call, with two frame starts missed. -/
def testing (work : Work) : State := { engaged .dialing .none work with hwi := missing.hwi }

theorem witness_TestsAborted :
    let c : CallRecord := { call with blocks := [⟨none, .queued⟩] }
    let d : CallRecord := { call with blocks := [⟨none, .acked⟩] }
    (∀ w ∈ [Work.lineTest lineTest, .testCall c, .testCall d],
      ((testing w).engine .e0).work = w ∧ ((testing w).engine .e0).phase ≠ .closing ∧
        ((testing w).engine (other .e0)).work = .nothing ∧ (testing w).hwi.sync = .inSync 1000 2 ∧
        takes ⟨true, false⟩ .e0 = true ∧ takes ⟨false, true⟩ .e0 = false) ∧
      (c.blocks.any fun b => b.state == .acked) = false ∧ (d.blocks.any fun b => b.state == .acked) = true ∧
      (Work.testCall c).call.isSome = true ∧ (Work.lineTest lineTest).call.isSome = false ∧
      (missing.engine .e0).work.isAlertCall = true ∧ (missing.engine .e1).work = .nothing := by decide

/-- R167, R170: sync lost in the middle of a cell: a DELIVERED event is pending again with its counts added, and a STATUS
cell's sticky flags are set again. -/
theorem test_cell_lost_with_sync :
    let s : State := { missing with
      ccp := { missing.ccp with emitter := .emitting .event [1, 2, 3] }
      evr := { missing.evr with emission := some { entries := [⟨0, 2, some (.delivered 3 key 0)⟩], restore := [0] } } }
    let f : State := { missing with ccp := { missing.ccp with
      emitter := .emitting (.answer (some { StickyFlags.clear with overrun := true })) [7] } }
    (vget (after (.syncLost ⟨false, false⟩) s).evr.records 0).count = 2 ∧
      (after (.syncLost ⟨false, false⟩) f).ccp.flags = { StickyFlags.clear with overrun := true } := by decide +kernel

/-- Trunk 0 OFFICE_BUSY since an earlier moment, with office use by the line. -/
def officeBusy : State :=
  withLine (ready.setTrunk 0 { Trunk.reset with state := .officeBusy, busySince := some 100 }) 0 .l true

/-- Trunk 0 in WARNING, held by E0 in ACQUIRE with a call from the office, its warning timer run out. -/
def warned : State :=
  (withE0 (calling .acquire .none) fun x => { x with work := .alertCall { call with fromOffice := true } }).setTrunk 0
    { Trunk.reset with state := .warning, holder := some .e0, warnTimer := some 0, busySince := some 100 }

theorem witness_HighwayFrameAudio :
    ready.resetLow = false ∧ ready.inSync = true ∧ SlotsDistinct ready ∧
      (∀ u, ready.managed u = true → ready.trunkSlot u ≠ some 28) ∧
      ready.managed 0 = true ∧ ready.trunkSlot 0 = some 5 ∧ pathOf (ready.trunk 0).state = .through ∧
      ready.managed 1 = true ∧ ready.trunkSlot 1 = some 6 ∧ pathOf (ready.trunk 1).state = .blocked ∧
      pathOf ((calling .seize .none).trunk 0).state = .taken ∧ pathOf (warned.trunk 0).state = .warnMix :=
  ⟨by decide, by decide, tables_slots_distinct ready rfl, by decide, by decide, by decide, by decide, by decide, by decide,
    by decide, by decide, by decide⟩

theorem witness_HighwayFrameMovesOn :
    let s : State := { ready with hwi := { ready.hwi with grid := 79 } }
    s.resetLow = false ∧ s.inSync = true ∧ s.ccp.emitter = .idle ∧ s.hwi.grid < 80 ∧ s.ccp.assembler = .hunt ∧
      slotWord (quiet.set 31 0xFFFF) 31 = 0xFFFF := by decide

/-- R125, R61: the fifteenth disagreeing frame and the sixteenth; the last frame of an ON part of 50 ms and the first after it. -/
theorem witness_HighwayFrameMovesOn_bits :
    (true = (⟨true, 14⟩ : Debounced).value ∧ false ≠ (⟨true, 14⟩ : Debounced).value) ∧
      ((⟨true, 14⟩ : Debounced).count < 15 ∧ (⟨true, 15⟩ : Debounced).count = 15) ∧
      (0 < site.symbolOn ∧ 400 = (site.symbolOn + 9) / 10 * 80 ∧ 400 = (site.symbolOff + 9) / 10 * 80) ∧
      ((399 : Nat) < 400 ∧ (400 : Nat) ≤ 400) ∧ (15 : Nat) ≤ 15 ∧ Generator.silent.symbol = .none := by decide

theorem witness_AssemblerTakesWord :
    ready.ccp.assembler = .hunt ∧ (bitsOf 0xA100 15 12 = 10 ∧ headerLength 0xA100 = 0) ∧
      (bitsOf 0xA101 15 12 = 10 ∧ headerLength 0xA101 = 1) ∧ (bitsOf 0xA128 15 12 = 10 ∧ headerLength 0xA128 = 40) ∧
      (bitsOf 0xA129 15 12 = 10 ∧ headerLength 0xA129 = 41) ∧ ((0x1234 : Word) ≠ 0xFFFF ∧ bitsOf 0x1234 15 12 ≠ 10) ∧
      (ready.setAssembler (.body 0xA102 [] 2)).ccp.assembler = .body 0xA102 [] 2 ∧
      (ready.setAssembler (.body 0xA101 [] 1)).ccp.assembler = .body 0xA101 [] 1 ∧
      (ready.setAssembler (.check 0xA143 [1000, 30000, 12345])).ccp.assembler = .check 0xA143 [1000, 30000, 12345] ∧
      (0x080D : Word).toNat =
        ((65535 - (0xA143 : Word).toNat) + (([1000, 30000, 12345] : List Word).map BitVec.toNat).sum) % 65536 ∧
      (ready.setAssembler .skip).ccp.assembler = .skip := by decide

theorem witness_AssemblerTakesWord_valid_cell :
    let full : State := { ready with
      ccp := { ready.ccp with inbound := List.replicate 4 ⟨0xA700, []⟩ }, cmu := { ready.cmu with silent := true } }
    ready.tables.site = some site ∧ ready.ccp.inbound.length < 4 ∧ ready.cmu.silent = false ∧
      full.tables.site = some site ∧ 4 ≤ full.ccp.inbound.length ∧ full.cmu.silent = true := by decide

theorem witness_DetectionFrameEndEffect :
    let s : State := { ready with hwi := { ready.hwi with grid := 80 } }
    s.resetLow = false ∧ s.hwi.grid = 80 := by decide

/-- R79, R80: a RUNNING loading on two bins, one that stops, and a STARTING one that needs two: the kept ones need four of
the six. -/
theorem witness_DetectionFrameEndEffect_loadings :
    let l (n : Nat) (st : LoadingStatus) (bins : List (Fin 6)) : Loading :=
      { tone := 0, copy := { tone with components := n }, cadence := 0, cadenceCopy := cadence, status := st,
        classifier := Classifier.initial, absence := none, levelWatch := false, bins := bins }
    let kept := [l 2 .running [0, 5], l 1 .stopping [1], l 2 .starting []].filter Loading.live
    kept = [l 2 .running [0, 5], l 2 .starting []] ∧ (∀ x ∈ kept, x.status = .starting → x.bins = []) ∧
      (kept.flatMap Loading.bins).Nodup ∧
      (kept.map fun x => if x.status = .running then x.bins.length
        else if x.copy.components = 2 then 2 else 1).sum ≤ 6 := by decide

/-- A RUNNING loading of a tone of this many components on these bins. -/
def runningLoading (n : Nat) (bins : List (Fin 6)) : Loading :=
  { tone := 0, copy := { tone with components := n }, cadence := 0, cadenceCopy := cadence, status := .running,
    classifier := Classifier.initial, absence := none, levelWatch := false, bins := bins }

theorem witness_DetectorArithmetic :
    let d : Detector := { Detector.reset with loadings := [runningLoading 1 [5]] }
    d.loadings = [runningLoading 1 [5]] ∧ (runningLoading 1 [5]).status = .running ∧
      (runningLoading 1 [5]).copy.components = 1 ∧ (runningLoading 1 [5]).bins = [5] ∧
      (runningLoading 2 [0, 5]).status = .running ∧ (runningLoading 2 [0, 5]).bins = [0, 5] ∧
      (runningLoading 2 [0, 5]).copy.components = 2 ∧ cadence.offMax ≠ 0 ∧ { cadence with offMax := 0 }.offMax = 0 ∧
      Classifier.initial.disagree = false ∧ { Classifier.initial with disagree := true }.disagree = true ∧
      cadence.offMin ≤ 4 ∧ 6 ≤ cadence.offMax ∧ 0 + 1 < cadence.cyclesRequired ∧ cadence.cyclesRequired ≤ 1 + 1 := by decide

/-- 3.7: S is 44 for the first worked block. -/
theorem witness_CheckSymbolClosesBlock :
    44 = (15 - (4 : Fin 16).val) + (([1, 7, 2, 0, 9, 1, 1, 1, 1, 0, 0, 2, 3, 0, 5] : List (Fin 16)).map Fin.val).sum := by
  decide

/-! ### Lines and trunks -/

/-- The hypotheses that the statements about a delivered change share. -/
def delivered (s : State) (u : TrunkId) (sig : LineSignal) (v : Bool) : Prop :=
  s.resetLow = false ∧ s.takeDelivery u sig = some (v, taken s) ∧ s.managed u = true

/-- The hypotheses that the statements about the holder of a TAKEN trunk share. -/
def heldTaken (s : State) (u : TrunkId) (e : EngineId) : Prop :=
  (s.trunk u).state = .taken ∧ (s.trunk u).holder = some e ∧ (s.engine e).acts = true

theorem witness_LoopCurrentAtHolder_supervised :
    delivered (changed (calling .dialing .none) 0 .l false) 0 .l false ∧
      heldTaken (changed (calling .dialing .none) 0 .l false) 0 .e0 ∧
      ((changed (calling .dialing .none) 0 .l false).engine .e0).phase.supervised = true := by
  unfold delivered heldTaken
  decide

theorem witness_LoopCurrentAtHolder_seize :
    (∀ v, delivered (changed (calling .seize .none) 0 .l v) 0 .l v ∧
      heldTaken (changed (calling .seize .none) 0 .l v) 0 .e0) ∧
      ((changed (calling .seize .none) 0 .l true).engine .e0).phase = .seize ∧
      (changed (calling .seize .none) 0 .l true).debounced 0 .f = false ∧
      ((changed (calling .seize .none) 0 .l true).engine .e0).work.call = some call ∧
      ((changed (calling .seize .none) 0 .l true).routeOr 0).dialToneMode = .wait ∧
      ((changed (calling .seize .none) 0 .l true).routeOr 7).dialToneMode = .blind := by
  unfold delivered heldTaken
  decide

theorem witness_LoopCurrentAtHolder_blind_and_test :
    let s := changed (engaged .seize .none (.alertCall { call with route := 7 })) 0 .l true
    let t := changed (engaged .seize .none (.lineTest lineTest)) 0 .l true
    delivered s 0 .l true ∧ heldTaken s 0 .e0 ∧ (s.engine .e0).phase = .seize ∧ s.debounced 0 .f = false ∧
      (s.engine .e0).work.call = some { call with route := 7 } ∧ delivered t 0 .l true ∧ heldTaken t 0 .e0 ∧
      (t.engine .e0).phase = .seize ∧ t.debounced 0 .f = false ∧ (t.engine .e0).work = .lineTest lineTest := by
  unfold delivered heldTaken
  decide

/-- R52: L, V and F at a holder in CLEAR. -/
theorem witness_changes_in_clear :
    ∀ v, (delivered (changed (calling .clear .none) 0 .l v) 0 .l v ∧
        heldTaken (changed (calling .clear .none) 0 .l v) 0 .e0 ∧
        ((changed (calling .clear .none) 0 .l v).engine .e0).phase = .clear) ∧
      (delivered (changed (calling .clear .none) 0 .v v) 0 .v v ∧
        ((changed (calling .clear .none) 0 .v v).trunk 0).holder = some .e0 ∧
        ((changed (calling .clear .none) 0 .v v).engine .e0).polRef = none) ∧
      delivered (changed (calling .clear .none) 0 .f v) 0 .f v ∧
        heldTaken (changed (calling .clear .none) 0 .f v) 0 .e0 := by
  unfold delivered heldTaken
  decide

theorem witness_OfficeUseFollowsSignals :
    (∀ v, delivered (changed ready 0 .l v) 0 .l v ∧ (changed ready 0 .l v).trunkRole 0 = .shared ∧
      ((changed ready 0 .l v).trunk 0).state = .idleOffice ∧ (changed ready 0 .l v).officeUse 0 = v) ∧
    ∀ v, delivered (changed (withLine officeBusy 0 .l false) 0 .s v) 0 .s v ∧
      (changed (withLine officeBusy 0 .l false) 0 .s v).trunkRole 0 = .shared ∧
      ((changed (withLine officeBusy 0 .l false) 0 .s v).trunk 0).state = .officeBusy ∧
      (changed (withLine officeBusy 0 .l false) 0 .s v).officeUse 0 = v := by
  unfold delivered
  decide

/-- The hypotheses that the clauses on a trunk in WARNING share. -/
def warning (s : State) (u : TrunkId) (e : EngineId) : Prop :=
  (s.trunk u).state = .warning ∧ (s.trunk u).holder = some e ∧ (s.engine e).phase = .acquire ∧ (s.engine e).abort = none ∧
    (s.engine e).work.call = some { call with fromOffice := true }

theorem witness_OfficeUseFollowsSignals_warning :
    ∀ v, delivered (changed warned 0 .l v) 0 .l v ∧ (changed warned 0 .l v).trunkRole 0 = .shared ∧
      warning (changed warned 0 .l v) 0 .e0 ∧ (changed warned 0 .l v).officeUse 0 = v := by
  unfold delivered warning
  decide

/-- R101, R108, R111: L and S on a RESERVED and on a COOLDOWN trunk, S on a TAKEN one. -/
theorem witness_OfficeUseFollowsSignals_not_acted_on :
    let cold := ready.setTrunk 0 { Trunk.reset with state := .cooldown, guard := .running 50 }
    ∀ v, (delivered (changed ready 1 .l v) 1 .l v ∧ delivered (changed ready 1 .s v) 1 .s v ∧
        ((changed ready 1 .l v).trunk 1).state = .idleReserved ∧ ((changed ready 1 .s v).trunk 1).state = .idleReserved) ∧
      (delivered (changed cold 0 .l v) 0 .l v ∧ delivered (changed cold 0 .s v) 0 .s v ∧
        ((changed cold 0 .l v).trunk 0).state = .cooldown ∧ ((changed cold 0 .s v).trunk 0).state = .cooldown) ∧
      delivered (changed (calling .dialing .none) 0 .s v) 0 .s v ∧
        ((changed (calling .dialing .none) 0 .s v).trunk 0).state = .taken := by
  unfold delivered
  decide

/-- Trunk `u` in state `st` with its ring-recent timer run out. -/
def ringing (u : TrunkId) (st : TrunkState) : State :=
  ready.setTrunk u { Trunk.reset with state := st, ringTimer := some 0, busySince := some 100 }

theorem witness_RingFollowsG :
    (∀ v, delivered (changed (ringing 0 .officeBusy) 0 .g v) 0 .g v ∧
      (changed (ringing 0 .officeBusy) 0 .g v).debounced 0 .g = v ∧
      ((changed (ringing 0 .officeBusy) 0 .g v).trunk 0).state = .officeBusy ∧
      delivered (changed ready 0 .g v) 0 .g v ∧ (changed ready 0 .g v).debounced 0 .g = v ∧
      ((changed ready 0 .g v).trunk 0).state = .idleOffice ∧ (changed ready 0 .g v).trunkRole 0 = .shared ∧
      delivered (changed ready 1 .g v) 1 .g v ∧ ((changed ready 1 .g v).trunk 1).state = .idleReserved) ∧
    ((ringing 1 .idleReserved).trunk 1).ringTimer = some 0 ∧ (ringing 1 .idleReserved).debounced 1 .g = false ∧
      (ringing 1 .idleReserved).trunkRole 1 = .reserved ∧ ((ringing 1 .idleReserved).trunk 1).state = .idleReserved ∧
      ((ringing 0 .officeBusy).trunk 0).ringTimer = some 0 ∧ (ringing 0 .officeBusy).debounced 0 .g = false ∧
      (ringing 0 .officeBusy).trunkRole 0 = .shared ∧ ((ringing 0 .officeBusy).trunk 0).state = .officeBusy ∧
      (ringing 0 .officeBusy).debounced 0 .l = false ∧ (ringing 0 .officeBusy).debounced 0 .s = false ∧
      (ringing 0 .officeBusy).hwi.deliveries = [] ∧
      (⟨1, .g, false⟩ : Delivery) ∈ (changed (ringing 1 .idleReserved) 1 .g false).hwi.deliveries := by
  unfold delivered
  decide

theorem witness_RingFollowsG_warning :
    let s := warned.setTrunk 0 { warned.trunk 0 with ringTimer := some 0 }
    (∀ v, delivered (changed warned 0 .g v) 0 .g v ∧ (changed warned 0 .g v).debounced 0 .g = v ∧
      warning (changed warned 0 .g v) 0 .e0) ∧
      s.resetLow = false ∧ (s.trunk 0).ringTimer = some 0 ∧ warning s 0 .e0 ∧ s.debounced 0 .g = false ∧
      s.debounced 0 .l = false ∧ s.debounced 0 .s = false ∧ s.hwi.deliveries = [] ∧
      (withLine s 0 .s true).debounced 0 .s = true ∧ (⟨0, .g, false⟩ : Delivery) ∈ (changed s 0 .g false).hwi.deliveries := by
  unfold delivered warning
  decide

/-- R99, R100: the ring-recent timer run out on a busy trunk that L or S keeps in use, in TAKEN and in COOLDOWN; a timer that
has not run out. -/
theorem witness_RingFollowsG_timer :
    (∀ sig ∈ [LineSignal.l, .s], let s := withLine (ringing 0 .officeBusy) 0 sig true
      s.resetLow = false ∧ (s.trunk 0).ringTimer = some 0 ∧ s.trunkRole 0 = .shared ∧ (s.trunk 0).state = .officeBusy ∧
        s.debounced 0 sig = true) ∧
      (∀ st ∈ [TrunkState.taken, .cooldown], ((ringing 0 st).trunk 0).ringTimer = some 0 ∧
        ((ringing 0 st).trunk 0).state = st) ∧
      (ready.trunk 0).ringTimer ≠ some 0 := by decide

theorem witness_CardFaultRises :
    (∀ v, delivered (changed ready 0 .f v) 0 .f v ∧ ((changed ready 0 .f v).trunk 0).state ≠ .taken) ∧
      delivered (changed (calling .seize .none) 0 .f true) 0 .f true ∧
      heldTaken (changed (calling .seize .none) 0 .f true) 0 .e0 ∧
      ((changed (calling .seize .none) 0 .f true).engine .e0).phase = .seize ∧
      ((changed (calling .seize .none) 0 .f true).engine .e0).work.trunk = some 0 := by
  unfold delivered heldTaken
  decide

/-- E0 awaiting an acknowledgement with this polarity reference. -/
def referenced (p : Option Bool) : State := withE0 (calling .awaitAck .listen) fun x => { x with polRef := p }

theorem witness_PolarityLossClearsCall :
    delivered (changed (referenced (some true)) 0 .v false) 0 .v false ∧
      heldTaken (changed (referenced (some true)) 0 .v false) 0 .e0 ∧
      ((changed (referenced (some true)) 0 .v false).engine .e0).polRef = some (!false) ∧
      ((changed (referenced (some true)) 0 .v false).engine .e0).work.call.isSome = true ∧
      delivered (changed (referenced none) 0 .v false) 0 .v false ∧
      heldTaken (changed (referenced none) 0 .v false) 0 .e0 ∧
      ((changed (referenced none) 0 .v false).engine .e0).polRef = none := by
  unfold delivered heldTaken
  decide

theorem witness_PolarityLossClearsCall_not_taken :
    ∀ v, delivered (changed ready 0 .v v) 0 .v v ∧ ((changed ready 0 .v v).trunk 0).state ≠ .taken := by
  unfold delivered
  decide

/-- Trunk `u` in COOLDOWN with its guard run out. -/
def cooled (u : TrunkId) : State := ready.setTrunk u { Trunk.reset with state := .cooldown, guard := .running 0 }

theorem witness_TrunkTimersEnd :
    let sounding (w : WarnSource) : State := { warned with hwi := { warned.hwi with warnings := vput warned.hwi.warnings 0 w } }
    (sounding (.on 0 1600 1400 6)).resetLow = false ∧ vget (sounding (.on 0 1600 1400 6)).hwi.warnings 0 = .on 0 1600 1400 6 ∧
      vget (sounding (.off 0)).hwi.warnings 0 = .off 0 ∧
      (warned.trunk 0).state = .warning ∧ (warned.trunk 0).warnTimer = some 0 ∧ (warned.trunk 0).holder = some .e0 ∧
      (warned.engine .e0).phase = .acquire ∧ (warned.engine .e0).abort = none ∧
      (warned.engine .e0).work.call = some { call with fromOffice := true } ∧
      ((cooled 1).trunk 1).state = .cooldown ∧ ((cooled 1).trunk 1).guard = .running 0 ∧
      (vget (cooled 1).tables.trunks 1).staged = none ∧ (cooled 1).trunkRole 1 = .reserved ∧
      ((cooled 0).trunk 0).state = .cooldown ∧ ((cooled 0).trunk 0).guard = .running 0 ∧
      (vget (cooled 0).tables.trunks 0).staged = none ∧ (cooled 0).trunkRole 0 = .shared := by decide

theorem witness_TrunkTimersEnd_staged :
    ∀ role ∈ ([.unused, .office, .shared, .reserved] : List TrunkRole),
      let w : Tables := { tables with trunks := vput tables.trunks 1 ⟨some ⟨.reserved, 6⟩, some ⟨role, 7⟩⟩ }
      let s : State := { cooled 1 with tables := w }
      s.resetLow = false ∧ (s.trunk 1).state = .cooldown ∧ (s.trunk 1).guard = .running 0 ∧
        (vget s.tables.trunks 1).staged = some ⟨role, 7⟩ ∧ s.managed 1 = true := by decide

theorem witness_GrantOrder :
    ready.chooseTrunk .none = some 1 ∧ (ready.trunk 1).state = .idleReserved ∧
      (ready.setTrunk 1 { Trunk.reset with state := .taken }).chooseTrunk .none = some 0 ∧
      (requests.setTrunk 1 { Trunk.reset with state := .taken }).chooseTrunk .immediate = some 3 ∧
      (requests.trunk 3).state = .officeBusy ∧ (ready.trunk 0).state ≠ .officeBusy := by decide

/-- R102, R104: each of the three ways in which a trunk has ring recently, and none. -/
theorem witness_GrantOrder_ring :
    (withLine ready 1 .g true).debounced 1 .g = true ∧ ((ringing 1 .idleReserved).trunk 1).ringTimer ≠ none ∧
      (⟨1, .g, false⟩ : Delivery) ∈ (changed ready 1 .g false).hwi.deliveries ∧ ready.grantable .none 1 = true ∧
      (withLine ready 1 .g true).grantable .immediate 1 = false ∧ (ringing 1 .idleReserved).lineTestGrantable 1 = false ∧
      requests.grantable .none 0 = false ∧ requests.grantable .afterWarning 0 = true ∧
      requests.lineTestGrantable 0 = false ∧ requests.lineTestGrantable 4 = true := by decide

/-! ### Reports, timers and symbols -/

/-- E0 in a phase and step, listening for this entry in this role, with a MATCHED of it not yet taken. -/
def heard (phase : Phase) (work : Work) (role : ToneRole) (t : ToneId) : State :=
  withE0 (engaged phase .listen work) fun x => { x with listening := [(role, t)], reports := [.matched t] }

/-- The hypotheses that the statements about a MATCHED share. -/
def matchedAt (s : State) (e : EngineId) (t : ToneId) (role : Option ToneRole) : Prop :=
  s.resetLow = false ∧ (s.engine e).acts = true ∧ Report.matched t ∈ (s.engine e).reports ∧
    (s.engine e).step = .listen ∧ (s.engine e).roleOf t = role

theorem witness_DialToneTaken :
    (matchedAt (heard .dialTone (.alertCall call) .dialTone 0) .e0 0 (some .dialTone) ∧
      matchedAt (heard .dialTone (.alertCall call) .reorder 2) .e0 2 (some .reorder)) ∧
      ((heard .dialTone (.alertCall call) .dialTone 0).engine .e0).phase = .dialTone ∧
      ((heard .dialTone (.alertCall call) .dialTone 0).engine .e0).work.call = some call := by
  unfold matchedAt
  decide

theorem witness_AnswerToneTaken :
    (matchedAt (heard .awaitAnswer (.alertCall call) .busy 1) .e0 1 (some .busy) ∧
      matchedAt (heard .awaitAnswer (.alertCall call) .reorder 2) .e0 2 (some .reorder) ∧
      matchedAt (heard .awaitAnswer (.alertCall call) .handshake 3) .e0 3 (some .handshake)) ∧
      ((heard .awaitAnswer (.alertCall call) .busy 1).engine .e0).phase = .awaitAnswer ∧
      ((heard .awaitAnswer (.alertCall call) .busy 1).engine .e0).work.call = some call := by
  unfold matchedAt
  decide

/-- E0 in a phase awaiting an acknowledgement that has come, with this call and the record of its current block. -/
def acknowledged (c : CallRecord) : State := heard .awaitAck (.alertCall c) .ack 4

theorem witness_AcknowledgementTaken :
    let s := acknowledged call
    let t := heard .awaitAck (.testCall { call with blocks := [⟨none, .awaitAck⟩] }) .ack 4
    matchedAt s .e0 4 (some .ack) ∧ (s.engine .e0).phase = .awaitAck ∧ (s.engine .e0).work.call = some call ∧
      (s.engine (other .e0)).phase = .idle ∧ call.preempt = false ∧ call.blocks[call.current]? = some ⟨some 3, .queued⟩ ∧
      s.findRecord 3 = some (alert 3 (.inCall .e0)) ∧ (alert 3 (.inCall .e0)).state = .inCall .e0 ∧
      matchedAt t .e0 4 (some .ack) ∧ (t.engine (other .e0)).phase = .idle ∧
      (t.engine .e0).work.call = some { call with blocks := [⟨none, .awaitAck⟩] } ∧
      matchedAt (acknowledged { call with preempt := true }) .e0 4 (some .ack) ∧
      (∀ z ∈ s.queue.filter fun r => r.handle != 3, z.state ≠ .waiting) := by
  unfold matchedAt
  decide

/-- The call of E0 in `answered`: one block acknowledged now and one still to send. -/
def pairCall : CallRecord := { call with route := 4, trunk := 2, blocks := [⟨some 8, .awaitAck⟩, ⟨some 7, .queued⟩] }

/-- Both engines in calls, E0's current block acknowledged, with a FIRE record waiting on route 0. -/
def answered (order : List EngineId) : State :=
  { ready with
    queue := [alert 3 .waiting, { alert 7 (.inCall .e0) with cls := 4 }, { alert 8 (.inCall .e0) with cls := 2 },
      { alert 9 (.inCall .e1) with cls := 4 }]
    engines :=
      { e0 := { Engine.reset with
          phase := .awaitAck, step := .listen, work := .alertCall pairCall, listening := [(.ack, 4)], reports := [.matched 4] }
        e1 := { Engine.reset with
          phase := .dialing, work := .alertCall { call with route := 5, trunk := 3, blocks := [⟨some 9, .queued⟩] } } }
    dsc := { Dsc.reset with startOrder := order } }

/-- The same part once the record of the block has left the queue (R44, R21). -/
def answeredTaken (order : List EngineId) : State :=
  (({ answered order with queue := (answered order).queue.filter fun r => r.handle != 8 } : State).raise
    (.delivered 8 key 4)).setEngine .e0 { (answered order).engine .e0 with
      phaseTimer := none, reports := []
      work := .alertCall { pairCall with blocks := [⟨some 8, .acked⟩, ⟨some 7, .queued⟩] } }

/-- R39: of two calls with one head class the one that started later is marked: E1's in one order, E0's own in the other. -/
theorem witness_AcknowledgementTaken_both :
    (∀ order ∈ [[EngineId.e0, .e1], [.e1, .e0]],
      matchedAt (answered order) .e0 4 (some .ack) ∧ ((answered order).engine .e0).phase = .awaitAck ∧
      ((answered order).engine .e0).work.call = some pairCall ∧ ((answered order).engine (other .e0)).phase ≠ .idle ∧
      (answered order).findRecord 8 = some { alert 8 (.inCall .e0) with cls := 2 } ∧
      (answered order).dsc.marked = none ∧ (answered order).dsc.hold = none ∧ (answered order).ready = true ∧
      (answered order).inSync = true ∧ (answeredTaken order).headClass .e0 = some 4 ∧
      (answeredTaken order).headClass .e1 = some 4 ∧ ((answeredTaken order).queue.map Record.handle).Nodup ∧
      (answeredTaken order).queue.head? = some (alert 3 .waiting) ∧ (answered order).classEntry 0 = some cls ∧
      cls.routes[0]? = some 0 ∧ (answered order).routeValid 0 = true ∧ (answered order).callOn 0 = none) ∧
    pairCall.preempt = false ∧ pairCall.blocks[pairCall.current]? = some ⟨some 8, .awaitAck⟩ ∧
      (if (4 : Nat) < 4 then EngineId.e0 else .e1) = .e1 ∧ (if (4 : Nat) < 4 then EngineId.e1 else .e0) = .e0 := by
  unfold matchedAt
  decide

theorem witness_LineTestMeasures :
    let s := heard .dialTone (.lineTest lineTest) .dialTone 0
    let t := withE0 (engaged .dialTone .toneHeard (.lineTest lineTest)) fun x => { x with reports := [.level 0 7, .level 0 9] }
    matchedAt s .e0 0 (some .dialTone) ∧ (s.engine .e0).work = .lineTest lineTest ∧ (s.engine .e0).phase = .dialTone ∧
      t.resetLow = false ∧ (t.engine .e0).acts = true ∧ (t.engine .e0).work = .lineTest lineTest ∧
      (t.engine .e0).phase = .dialTone ∧ oldestLevel (t.engine .e0).reports = some (.level 0 7, 7) ∧
      (t.engine .e0).step = .toneHeard ∧ (t.engine .e0).phaseTimer = some 0 := by
  unfold matchedAt
  decide +kernel

/-- R115: a faulted trunk at the end of a level window: with F absent and with F present, and the four ways of the code. -/
theorem witness_LineTestMeasures_codes :
    let s := engaged .dialTone .toneHeard (.lineTest lineTest)
    let f := s.setTrunk 0 { s.trunk 0 with faulted := true, failures := 2 }
    (f.trunk 0).state = .taken ∧ (f.trunk 0).holder = some .e0 ∧ (f.trunk 0).faulted = true ∧ f.debounced 0 .f = false ∧
      (withLine f 0 .f true).debounced 0 .f = true ∧ (s.trunk 0).faulted = false ∧ (f.engine .e0).work.isAlertCall = false ∧
      ¬lineTest.peak < s.siteOr.goodLevel * 256 ∧ 511999 < s.siteOr.goodLevel * 256 := by decide +kernel

/-- R115, R12: PASS on a faulted trunk with F absent clears its flag and its count, with TRUNK_CLEARED and the RESTORE alert. -/
theorem test_trunk_cleared :
    let s := { engaged .dialTone .toneHeard (.lineTest lineTest) with queue := [] }
    let t := after (.levelWindowExpiry .e0) (s.setTrunk 0 { s.trunk 0 with faulted := true, failures := 2 })
    (t.trunk 0).faulted = false ∧ (t.trunk 0).failures = 0 ∧
      (vget t.evr.records 6).latest = some (.trunkCleared 0) ∧ t.queue.map Record.key = [⟨0, 1, 351, .restore⟩] := by
  decide +kernel

/-- R115: a line test that finds no loop faults the trunk with cause TEST. -/
theorem test_trunk_faulted_by_test :
    let t := after (.loopTimeoutExpiry .e0) (engaged .seize .none (.lineTest lineTest))
    (t.trunk 0).faulted = true ∧ (t.trunk 0).failures = 0 ∧
      (vget t.evr.records 5).latest = some (.trunkFault 0 .test) := by decide

theorem witness_ToneEndsAndForeignMatches :
    let s := withE0 (heard .dialTone (.alertCall call) .dialTone 0) fun x => { x with reports := [.matched 9] }
    let t := withE0 (calling .awaitAck .toneHeard) fun x => { x with reports := [.absent 4] }
    matchedAt s .e0 9 none ∧ t.resetLow = false ∧ (t.engine .e0).acts = true ∧ (t.engine .e0).step = .toneHeard ∧
      Report.absent 4 ∈ (t.engine .e0).reports ∧ (t.engine .e0).phase = .awaitAck ∧
      (t.engine .e0).phaseTimer = some 0 ∧ ((calling .awaitAnswer .toneHeard).engine .e0).phase = .awaitAnswer := by
  unfold matchedAt
  decide

/-- The hypotheses that the statements about an engine's phase timer share. -/
def timedOut (s : State) (e : EngineId) (phase : Phase) (step : Step) : Prop :=
  s.resetLow = false ∧ (s.engine e).acts = true ∧ (s.engine e).phaseTimer = some 0 ∧ (s.engine e).phase = phase ∧
    (s.engine e).step = step

theorem witness_ClearEndsInSeize :
    timedOut (calling .clear .none) .e0 .clear .none ∧ ((calling .clear .none).engine .e0).work.trunk = some 0 ∧
      (calling .clear .none).debounced 0 .f = false ∧ (calling .clear .none).debounced 0 .l = false ∧
      (withLine (calling .clear .none) 0 .l true).debounced 0 .l = true ∧
      (withLine (calling .clear .none) 0 .f true).debounced 0 .f = true ∧
      ((calling .clear .none).routeOr 0).dialToneMode = .wait ∧
      ((calling .clear .none).routeOr 7).dialToneMode = .blind ∧
      timedOut (engaged .clear .none (.lineTest lineTest)) .e0 .clear .none := by
  unfold timedOut
  decide

theorem witness_LineFailuresEndWork :
    let lost := withE0 (calling .dialing .none) fun x => { x with lossTimer := some 0 }
    timedOut (calling .seize .none) .e0 .seize .none ∧ timedOut (calling .dialTone .listen) .e0 .dialTone .listen ∧
      (lost.engine .e0).acts = true ∧ (lost.engine .e0).lossTimer = some 0 ∧ (lost.engine .e0).phase.supervised = true ∧
      (lost.engine .e0).work ≠ .nothing ∧ (lost.engine .e0).work.call = some call ∧
      (lost.trunk call.trunk).state = .taken ∧ (lost.trunk call.trunk).holder = some .e0 ∧
      1 ≤ ((lost.setTrunk 0 { lost.trunk 0 with failures := 1 }).trunk call.trunk).failures := by
  unfold timedOut
  decide

/-- R113: the trunk's first line failure, its second, and one on a trunk already faulted; an engine with a line test. -/
theorem witness_LineFailuresEndWork_second :
    let s := calling .seize .none
    let second := s.setTrunk 0 { s.trunk 0 with failures := 1 }
    (s.trunk 0).failures = 0 ∧ 1 ≤ (second.trunk 0).failures ∧ (second.trunk 0).faulted = false ∧
      ((second.setTrunk 0 { second.trunk 0 with faulted := true }).trunk 0).faulted = true ∧
      (second.engine .e0).work.call = some call ∧ QueueSound second ∧
      ((second.internalAlert ⟨0, 1, 351, .new⟩ 4).engine .e0).work.isAlertCall = true ∧
      ((engaged .seize .none (.lineTest lineTest)).engine .e0).work = .lineTest lineTest :=
  ⟨by decide, by decide, by decide, by decide, by decide, ⟨by decide, by decide, by decide⟩, by decide, by decide⟩

theorem witness_TimeoutsOfTheCentre :
    timedOut (calling .awaitAnswer .listen) .e0 .awaitAnswer .listen ∧
      timedOut (calling .awaitAnswer .toneHeard) .e0 .awaitAnswer .toneHeard ∧
      timedOut (calling .awaitAck .listen) .e0 .awaitAck .listen ∧
      ((calling .awaitAck .listen).engine .e0).work.call = some call ∧ call.preempt = false ∧
      call.tries < ((calling .awaitAck .listen).routeOr call.route).blockTries ∧
      (engaged .awaitAck .listen (.alertCall { call with tries := 2 })).routeOr call.route = route ∧ route.blockTries ≤ 2 ∧
      timedOut (engaged .awaitAck .listen (.alertCall { call with preempt := true })) .e0 .awaitAck .listen := by
  unfold timedOut
  decide

/-- E0 with a symbol that has ended. -/
def symbolOver (phase : Phase) (sending : List (Fin 16)) : State :=
  withE0 (calling phase .none) fun x =>
    { x with generator := { Generator.silent with symbol := .tone 5 }, sending := sending }

theorem witness_SymbolsGoOn :
    timedOut (calling .dialTone .blind) .e0 .dialTone .blind ∧ ((calling .dialTone .blind).engine .e0).work.call = some call ∧
      ((symbolOver .dialing []).engine .e0).generator.ended = true ∧ ((symbolOver .dialing []).engine .e0).acts = true ∧
      ((symbolOver .dialing []).engine .e0).phase = .dialing ∧
      ((symbolOver .sendBlock [4]).engine .e0).generator.ended = true ∧
      ((symbolOver .sendBlock [4]).engine .e0).phase = .sendBlock ∧ ((symbolOver .sendBlock [4]).engine .e0).sending = [4] ∧
      ((symbolOver .sendBlock []).engine .e0).sending = [] := by
  unfold timedOut
  decide

theorem witness_GuardEndsSend :
    let two : CallRecord := { call with blocks := [⟨some 3, .acked⟩, ⟨some 3, .queued⟩] }
    timedOut (calling .awaitAnswer .guard) .e0 .awaitAnswer .guard ∧
      timedOut (calling .awaitAck .resendGuard) .e0 .awaitAck .resendGuard ∧
      ((calling .awaitAnswer .guard).engine .e0).work = .alertCall call ∧
      call.blocks[call.current]? = some ⟨some 3, .queued⟩ ∧
      (calling .awaitAnswer .guard).findRecord 3 = some (alert 3 (.inCall .e0)) ∧
      timedOut (engaged .awaitAnswer .guard (.testCall call)) .e0 .awaitAnswer .guard ∧
      timedOut (engaged .awaitAck .guard (.alertCall two)) .e0 .awaitAck .guard ∧
      two.blocks[two.current + 1]? = some ⟨some 3, .queued⟩ ∧ call.blocks[call.current + 1]? = none := by
  unfold timedOut
  decide

theorem witness_AbortAndMarkTaken :
    let s := withE0 (calling .dialing .none) fun x => { x with abort := some .abortCalls }
    let m := engaged .dialing .none (.alertCall { call with preempt := true })
    let n := engaged .sendBlock .none (.alertCall { call with preempt := true })
    s.resetLow = false ∧ (s.engine .e0).abort = some .abortCalls ∧ (s.engine .e0).work ≠ .nothing ∧
      (ready.engine .e0).abort = none ∧ (m.engine .e0).acts = true ∧
      (m.engine .e0).work.call = some { call with preempt := true } ∧ (m.engine .e0).safePoint = true ∧
      (n.engine .e0).acts = true ∧ (n.engine .e0).phase = .sendBlock := by decide

/-! ### The alert queue -/

/-- A queue of one record, handle 3. -/
def queued (st : RecordState) : State := { ready with queue := [alert 3 st] }

theorem witness_SecondsAndBackoffs :
    (queued (.held 0 37)).resetLow = false ∧ (queued (.held 0 37)).findRecord 3 = some (alert 3 (.held 0 37)) ∧
      (alert 3 (.held 0 37)).state = .held 0 37 := by decide

/-- R4, R20: 99 units after its admission a record's age is 0 and 99 units after its failure its backoff is whole; one unit
later a second takes effect on both, and on no record whose own second has not passed. -/
theorem test_own_seconds :
    let q (age backoff : Nat) : State :=
      { ready with queue := [{ alert 3 .waiting with agePart := age }, { alert 4 (.held 5 backoff) with agePart := 12 }] }
    ((after .secondTick (q 99 100)).queue.map fun r => (r.age, r.state)) = [(0, .waiting), (0, .held 4 0)] ∧
      ((after .secondTick (q 100 99)).queue.map fun r => (r.age, r.state)) = [(1, .waiting), (0, .held 5 99)] := by decide

/-- A record that has become WAITING on route 0, with E0 in a call on that route for another one. -/
def joining : State :=
  { calling .dialing .none with queue := [alert 3 (.inCall .e0), { alert 4 .waiting with key := ⟨6, 23, 110, .new⟩ }] }

theorem witness_LateJoinMade :
    (queued .waiting).findRecord 3 = some (alert 3 .waiting) ∧ (alert 3 .waiting).state = .waiting ∧
      (queued .waiting).currentRoute (alert 3 .waiting) = some 0 ∧ (queued .waiting).callOn 0 = none ∧
      (joining.findRecord 4).map Record.state = some .waiting ∧ joining.callOn 0 = some .e0 ∧
      (joining.engine .e0).work = .alertCall call ∧ (joining.engine .e0).phase ≠ .idle ∧
      (joining.engine .e0).phase ≠ .closing ∧ call.preempt = false ∧
      call.blocks.length < (joining.routeOr 0).blocksPerCall ∧ joining.dsc.hold = none ∧
      (joining.routeOr 0).blocksPerCall ≤ [(⟨some 3, .queued⟩ : BlockEntry), ⟨some 4, .queued⟩].length ∧
      ((engaged .dialing .none (.testCall call)).engine .e0).work.isAlertCall = false := by decide

/-- A record has no current route with its class entry not loaded, or with its position just past the end of the list. -/
theorem witness_LateJoinMade_no_route :
    let bare : State := { queued .waiting with tables := { tables with classes := Vector.replicate 6 none } }
    let past : Record := { alert 3 .waiting with routePos := 2 }
    bare.findRecord 3 = some (alert 3 .waiting) ∧ bare.classEntry (alert 3 .waiting).cls = none ∧
      ((queued .waiting).classEntry past.cls).map ClassEntry.routes = some [0, 1] ∧ [(0 : RouteId), 1].length ≤ past.routePos ∧
      ({ queued .waiting with queue := [past] } : State).findRecord 3 = some past := by decide

/-- The body of the ALERT cell of `key` in class `c` (R182). -/
def alertBody (c : Nat) : List Word := [wordOf (c * 256 + 64 + 5), 23, 110]

/-- A queue of 32 HELD records of class 4, none with the key of the ALERT. -/
def full : State :=
  { ready with queue := (List.finRange 32).map fun h => { newRecord h ⟨0, h.val, 1, .new⟩ 4 with state := .held 9 0 } }

theorem witness_AlertAdmission :
    (holding ready 1 (alertBody 7)).held 1 = some ⟨0xA143, alertBody 7⟩ ∧
      (⟨0xA143, alertBody 7⟩ : InCell).alertArrival = none ∧
      (⟨0xA143, alertBody 0⟩ : InCell).alertArrival = some (key, 0) ∧
      (∀ r ∈ (queued .waiting).queue, r.key = { key with zone := 1 } → r.state.isInCall = true) ∧
      ready.cancelTarget key = none ∧ ready.queue.length < 32 ∧ ready.lowestFree = some 0 := by decide

set_option maxRecDepth 8000 in
theorem witness_AlertAdmission_full :
    let r : Record := { newRecord 31 ⟨0, 31, 1, .new⟩ 4 with state := .held 9 0 }
    32 ≤ full.queue.length ∧ full.queue = full.queue.take 31 ++ r :: [] ∧ r.state.isInCall = false ∧ (0 : ClassId) < r.cls ∧
      r.cls ≤ (5 : ClassId) ∧
      (({ full with queue := full.queue.filter fun x => x.handle != r.handle } : State).raise
        (.evicted r.handle r.key)).lowestFree = some 31 := by decide +kernel

theorem witness_AlertMeetsRecord :
    (holding (queued .waiting) 1 (alertBody 0)).held 1 = some ⟨0xA143, alertBody 0⟩ ∧
      QueueSound (holding (queued .waiting) 1 (alertBody 0)) ∧
      (alert 3 .waiting ∈ (queued .waiting).queue ∧ (alert 3 .waiting).key = key ∧
        (alert 3 .waiting).state.coalesces = true) ∧
      (alert 3 .stranded ∈ (queued .stranded).queue ∧ (alert 3 .stranded).state = .stranded) :=
  ⟨by decide, ⟨by decide, by decide, by decide⟩, by decide, by decide⟩

/-- R182: word 1 of a RESTORE has qualifier 2 in bits 7 and 6. -/
theorem witness_AlertMeetsRecord_cancel :
    let k : Key := { key with qualifier := .restore }
    (⟨0xA143, [wordOf (128 + 5), 23, 110]⟩ : InCell).alertArrival = some (k, 0) ∧ k.qualifier = .restore ∧
      (∀ x ∈ (queued .waiting).queue, x.key = k → x.state.isInCall = true) ∧ alert 3 .waiting ∈ (queued .waiting).queue ∧
      (alert 3 .waiting).key = { k with qualifier := .new } ∧ (alert 3 .waiting).isProtected = false ∧
      (queued .waiting).classEntry (alert 3 .waiting).cls = some cls ∧ (alert 3 .waiting).age < cls.cancelWindow := by
  decide

/-- R9: each way in which a RESTORE finds nothing to cancel. -/
theorem witness_AlertMeetsRecord_not_cancelled :
    let k : Key := { key with qualifier := .restore }
    let old : Record := { alert 3 .waiting with age := 60 }
    let held : Record := { alert 3 .waiting with isProtected := true }
    (key.qualifier ≠ .restore ∧ (alert 3 (.held 5 0)).state ≠ .waiting ∧ held.isProtected = true ∧
      State.reset.classEntry 0 = none ∧ cls.cancelWindow ≤ old.age) ∧
      (∀ r ∈ [alert 3 .waiting, alert 3 (.held 5 0), held, old],
        r.key = { k with qualifier := .new } ∧ r.state.isInCall = false) ∧
      (∀ r ∈ (queued (.inCall .e0)).queue, r.key = { k with qualifier := .new } → r.state.isInCall = true) := by decide

/-- R6: the edges of the ranges of an ALERT's fields, and the qualifiers. -/
theorem test_alert_ranges :
    let a (q c zone event : Nat) : Option (Key × ClassId) := InCell.alertArrival ⟨0xA143, [wordOf (c * 256 + q * 64 + 63), wordOf zone, wordOf event]⟩
    a 1 5 999 999 = some (⟨63, 999, 999, .new⟩, 5) ∧ a 2 0 0 0 = some (⟨63, 0, 0, .restore⟩, 0) ∧ a 0 0 0 0 = none ∧
      a 3 0 0 0 = none ∧ a 1 6 0 0 = none ∧ a 1 0 1000 0 = none ∧ a 1 0 0 1000 = none := by decide

/-- 1.7: the route failures at the fallback after, and one below it; the last position of the list, and the one before. -/
theorem witness_FarEndFailureCounted :
    (failed 0 0 0 0).routeFailures + 1 < 2 ∧ 2 ≤ (failed 1 1 0 0).routeFailures + 1 ∧
      ((failed 1 1 0 0).routePos + 1 < fallbackClass.routes.length ∧ fallbackClass.routes[(failed 1 1 0 0).routePos]? = some 2 ∧
        fallbackClass.routes[(failed 1 1 0 0).routePos + 1]? = some 5 ∧ (failed 1 1 0 0).cycles < fallbackClass.maxCycles) ∧
      ((failed 4 2 1 0).routePos + 1 = fallbackClass.routes.length ∧ fallbackClass.routes[0]? = some 2 ∧
        (failed 4 2 1 0).cycles + 1 < fallbackClass.maxCycles ∧ fallbackClass.maxCycles ≤ (failed 9 2 1 1).cycles + 1) := by
  decide

/-- What the clauses on one ending share: an alert call with one record still to settle, no other record of its key. -/
def settles (s : State) (cmd : Instr) : Prop :=
  s.resetLow = false ∧ QueueSound s ∧ call.unsettled.Nodup ∧ (∃ t, exec cmd s = .next t) ∧ (3 : Handle) ∈ call.unsettled ∧
    s.findRecord 3 = some (alert 3 (.inCall .e0)) ∧ (∀ v ∈ s.queue, v.key = key → v.handle = 3)

theorem witness_EndedCallSettlesRecords_line :
    settles (calling .seize .none) (.loopTimeoutExpiry .e0) ∧
      ((calling .seize .none).engine .e0).work = .alertCall call ∧
      LineFails (calling .seize .none) .e0 call (.loopTimeoutExpiry .e0) ∧
      ((calling .seize .none).trunk call.trunk).failures = 0 ∧
      (∀ k, ((calling .seize .none).engine (other .e0)).work ≠ .alertCall k) :=
  ⟨⟨by decide, ⟨by decide, by decide, by decide⟩, by decide, ⟨_, rfl⟩, by decide, by decide, by decide⟩, by decide,
    ⟨by decide, .inl (by decide)⟩, by decide, fun _ h => by cases h⟩

theorem witness_EndedCallSettlesRecords_stop :
    let s := withE0 (calling .dialing .none) fun x => { x with abort := some .abortCalls }
    settles s (.engineAbort .e0) ∧ (s.engine .e0).work = .alertCall call ∧ CallStops s .e0 call (.engineAbort .e0) :=
  ⟨⟨by decide, ⟨by decide, by decide, by decide⟩, by decide, ⟨_, rfl⟩, by decide, by decide, by decide⟩, by decide,
    .inl (by decide)⟩

theorem witness_EndedCallSettlesRecords_far :
    settles (calling .awaitAnswer .listen) (.answerTimeout .e0) ∧
      ((calling .awaitAnswer .listen).engine .e0).work = .alertCall call ∧
      FarEndFails (calling .awaitAnswer .listen) .e0 call (.answerTimeout .e0) ∧
      (alert 3 (.inCall .e0)).fail cls 2 0 =
        ({ alert 3 (.held 5 0) with failures := 1, routeFailures := 1 }, []) :=
  ⟨⟨by decide, ⟨by decide, by decide, by decide⟩, by decide, ⟨_, rfl⟩, by decide, by decide, by decide⟩, by decide,
    ⟨by decide, .inr (.inl (by decide))⟩, by decide⟩

/-- R16: a record that returns to the queue is merged into the one of its key that came while it was in the call. -/
theorem test_merged_return :
    let s : State := { calling .seize .none with queue := [alert 3 (.inCall .e0), { alert 4 .waiting with repeats := 2 }] }
    (after (.loopTimeoutExpiry .e0) s).queue = [{ alert 4 .waiting with repeats := 3, isProtected := true }] := by
  decide +kernel

/-! ### Dispatch -/

/-- A selection due with one WAITING record on route 0, E1 in a call on route 5. -/
def dispatching : State :=
  { ready.setEngine .e1 { Engine.reset with phase := .dialing, work := .alertCall { call with
      route := 5, trunk := 2, blocks := [⟨some 8, .queued⟩] } } with
    queue := [alert 3 .waiting]
    dsc := { Dsc.reset with selectionsDue := 1, startOrder := [.e1] } }

/-- What a selection that starts a call meets, apart from the two clauses on how the walk went on. -/
def starts (s : State) (r : Record) (ce : ClassEntry) (rt : RouteId) (u : TrunkId) (took : List Handle) : Prop :=
  s.resetLow = false ∧ s.dsc.selectionsDue ≠ 0 ∧ s.dsc.hold = none ∧ s.ready = true ∧ s.inSync = true ∧
    s.firstIdle = some .e0 ∧ (s.engine (other .e0)).phase ≠ .idle ∧ r ∈ s.queue ∧ r.state = .waiting ∧
    s.classEntry r.cls = some ce ∧ s.callOn rt = none ∧ 0 < (s.routeOr rt).blocksPerCall ∧
    s.chooseTrunk ce.preemptMode = some u ∧ took = s.blockHandles r rt

/-- R29: a record whose own route is valid stands where it is. -/
theorem nextRoute_own {s : State} {r : Record} {ce : ClassEntry} {rt : RouteId} (h : ce.routes[r.routePos]? = some rt)
    (hv : s.routeValid rt = true) : s.nextRoute r ce r.routePos rt :=
  ⟨h, hv, fun i _ _ hi => by omega⟩

theorem idle_engines_empty {s : State} (h0 : s.engines.e0 = Engine.reset) (h1 : s.engines.e1.phase ≠ .idle) :
    IdleEnginesEmpty s := by
  intro e h
  cases e with
  | e0 =>
    have : s.engine .e0 = Engine.reset := h0
    rw [this]
    exact ⟨rfl, by decide⟩
  | e1 => exact absurd h h1

/-- R53: neither L nor F at the free trunk, L there with a WAIT route, and F there. -/
theorem witness_SelectionStartsCall :
    (∀ sig ∈ [LineSignal.l, .f, .v], starts (withLine dispatching 1 sig true) (alert 3 .waiting) cls 0 1 [3] ∧
        (withLine dispatching 1 sig true).debounced 1 sig = true) ∧
      IdleEnginesEmpty dispatching ∧ QueueSound dispatching ∧ dispatching.queue = [] ++ alert 3 .waiting :: [] ∧
      dispatching.nextRoute (alert 3 .waiting) cls 0 0 ∧ (dispatching.trunk 1).state ≠ .officeBusy ∧
      dispatching.debounced 1 .f = false ∧ dispatching.debounced 1 .l = false ∧ (dispatching.trunk 1).failures = 0 ∧
      1 ≤ ((dispatching.setTrunk 1 { dispatching.trunk 1 with failures := 1 }).trunk 1).failures ∧
      dispatching.queue.length < 32 ∧ (∀ x ∈ dispatching.queue, x.key ≠ ⟨0, 2, 351, .new⟩) ∧
      (dispatching.routeOr 0).dialToneMode = .wait :=
  ⟨by unfold starts; decide, idle_engines_empty rfl (by decide), ⟨by decide, by decide, by decide⟩, rfl,
    nextRoute_own (by decide) (by decide), by decide, by decide, by decide, by decide, by decide, by decide, by decide, by decide⟩

/-- R29, R33, R53: route 0 not valid, so that the record moves to route 7, which is BLIND, with another record of handle 5
standing there that joins and one of handle 6 that finds the list full. -/
def moving : State :=
  let on7 (h : Handle) : Record := { alert h .waiting with key := ⟨6, h.val, 110, .new⟩, routePos := 1 }
  { withLine dispatching 1 .l true with
    tables := { tables with
      classes := Vector.replicate 6 (some { cls with routes := [0, 7] })
      routes := vput tables.routes 0 ⟨some { route with valid := false }, none⟩ }
    queue := [alert 3 .waiting, on7 5, on7 6] }

theorem witness_SelectionStartsCall_moved :
    starts moving (alert 3 .waiting) { cls with routes := [0, 7] } 7 1 [3, 5] ∧ QueueSound moving ∧ IdleEnginesEmpty moving ∧
      moving.nextRoute (alert 3 .waiting) { cls with routes := [0, 7] } 1 7 ∧ moving.debounced 1 .l = true ∧
      moving.debounced 1 .f = false ∧ (moving.routeOr 7).dialToneMode = .blind := by
  refine ⟨by unfold starts; decide, ⟨by decide, by decide, by decide⟩, idle_engines_empty rfl (by decide),
    ⟨rfl, by decide, fun i ri h hi => ?_⟩, by decide, by decide, by decide⟩
  have h0 : i = 0 := by simp only [newRecord, alert] at hi; omega
  subst h0
  cases h
  decide

/-- R31, R35, R105: every free trunk taken and trunk 0 OFFICE_BUSY: a BOILER record of a class of mode NONE on route 4 is refused
a trunk, one on the busy route 5 is passed over, and the record behind them, of a class of this mode and warning time, is
granted the office's trunk. -/
def officeTaken (mode : PreemptMode) (warningTime : Nat) : State :=
  let behind (h : Handle) (c : ClassId) : Record := { alert h .waiting with key := ⟨6, h.val, 110, .new⟩, cls := c }
  { (dispatching.setTrunk 1 { Trunk.reset with state := .cooldown, guard := .running 50 }).setTrunk 0
      { Trunk.reset with state := .officeBusy, busySince := some 100 } with
    tables := { tables with classes := #v[some { cls with routes := [4], preemptMode := .none }, some { cls with routes := [5] },
      some { cls with preemptMode := mode, warningTime := warningTime }, some cls, some cls, some cls] }
    queue := [behind 1 0, behind 2 1, behind 4 2] }

theorem witness_SelectionStartsCall_office :
    ∀ p ∈ [(PreemptMode.afterWarning, 8), (.afterWarning, 0), (.immediate, 8)],
      starts (officeTaken p.1 p.2) { alert 4 .waiting with key := ⟨6, 4, 110, .new⟩, cls := 2 }
          { cls with preemptMode := p.1, warningTime := p.2 } 0 0 [4] ∧
        ((officeTaken p.1 p.2).trunk 0).state = .officeBusy ∧ (officeTaken p.1 p.2).routeValid 0 = true := by
  unfold starts
  decide

theorem witness_SelectionStartsCall_passed_over :
    let s := officeTaken .immediate 8
    ∃ x y r, s.queue = [x, y] ++ r :: [] ∧ s.refusedTrunk x ∧ s.passedOver x ∧ ¬s.refusedTrunk y ∧ s.passedOver y ∧
      QueueSound s ∧ IdleEnginesEmpty s := by
  have hx : (officeTaken .immediate 8).refusedTrunk { alert 1 .waiting with key := ⟨6, 1, 110, .new⟩ } :=
    ⟨rfl, _, _, rfl, rfl, by decide, by decide, by decide⟩
  refine ⟨_, _, _, rfl, hx, .inr (.inr (.inr (.inr hx))), ?_, .inr (.inr (.inr (.inl ⟨_, _, rfl, rfl, by decide, by decide⟩))),
    ⟨by decide, by decide, by decide⟩, idle_engines_empty rfl (by decide)⟩
  rintro ⟨_, cx, rx, hc, hr, _, hn, _⟩
  cases hc
  cases hr
  revert hn
  decide

/-- R29, R33, R53: the moved record and its companion are in the call, which is in the blind wait. -/
theorem test_moved_call :
    let t := after .selection moving
    ((t.engine .e0).work.call.map fun c => c.blocks.filterMap BlockEntry.handle) = some [3, 5] ∧
      (t.engine .e0).step = .blind ∧ (t.findRecord 6).map Record.state = some .waiting ∧
      (t.findRecord 3).map Record.routePos = some 1 := by decide +kernel

/-- R35, R105: NO_TRUNK for the refused BOILER record, OFFICE_PREEMPTED and 8 s of warning for the one behind it. -/
theorem test_office_call :
    let t := after .selection (officeTaken .afterWarning 8)
    (vget t.evr.records 14).latest = some (.noTrunk 0) ∧ (vget t.evr.records 7).latest = some (.officePreempted 0 2) ∧
      (t.trunk 0).warnTimer = some 800 ∧ (t.engine .e0).phase = .acquire := by decide +kernel

/-- The part ready with a selection due. -/
def due : State := { ready with dsc := { Dsc.reset with selectionsDue := 1 } }

/-- The hypotheses that the clauses on a selection that is made share. -/
def selects (s : State) : Prop :=
  s.resetLow = false ∧ s.dsc.selectionsDue ≠ 0 ∧ s.dsc.hold = none ∧ s.ready = true ∧ s.inSync = true ∧
    s.firstIdle = some .e0

theorem witness_SelectionWithoutCall_refused :
    let s : State := { due with queue := [alert 3 .waiting], trunks := State.reset.trunks }
    let b : State := s.setEngine .e1 { Engine.reset with phase := .dialing, work := .alertCall { call with route := 0 } }
    selects s ∧ s.queue = [] ++ alert 3 .waiting :: [] ∧ (s.queue.map Record.handle).Nodup ∧
      s.classEntry (alert 3 .waiting).cls = some cls ∧ s.nextRoute (alert 3 .waiting) cls 0 0 ∧ s.callOn 0 = none ∧
      s.chooseTrunk cls.preemptMode = none ∧ selects b ∧ (b.callOn 0).isSome = true ∧ b.cmu.slot = .empty ∧
      ready.dsc.selectionsDue = 0 ∧ ({ due with dsc := { due.dsc with hold := some 1 } } : State).dsc.hold.isSome = true :=
  ⟨by unfold selects; decide, rfl, by decide, by decide, nextRoute_own (by decide) (by decide), by decide, by decide,
    by unfold selects; decide, by decide, by decide, by decide, by decide⟩

theorem witness_SelectionWithoutCall_slot :
    let t : State := { due with cmu := { due.cmu with slot := .held (.lineTest 1) 3000 } }
    let r : State := { due with cmu := { due.cmu with slot := .held (.testCall 2) 1 } }
    (selects t ∧ IdleEnginesEmpty t ∧ t.lineTestGrantable 1 = true ∧ t.debounced 1 .f = false ∧ t.debounced 1 .l = false ∧
      (∀ x ∈ t.queue, x.state ≠ .waiting)) ∧
      selects r ∧ IdleEnginesEmpty r ∧ r.routeValid 2 = true ∧ r.callOn 2 = none ∧ r.chooseTrunk .none = some 1 ∧
      selects due ∧ due.cmu.slot = .empty := by
  refine ⟨⟨by unfold selects; decide, fun e => by cases e <;> decide, by decide⟩, by unfold selects; decide,
    fun e => by cases e <;> decide, by decide, by decide, by decide, by unfold selects; decide, by decide⟩

/-- Both engines in calls, E0's first, with a FIRE record waiting on route 0. -/
def contended : State :=
  let busyOn (rt : RouteId) (t : TrunkId) (h : Handle) : Engine := { Engine.reset with
    phase := .dialing, work := .alertCall { call with route := rt, trunk := t, blocks := [⟨some h, .queued⟩] } }
  { due with
    queue := [alert 3 .waiting, { alert 8 (.inCall .e0) with cls := 4 }, { alert 9 (.inCall .e1) with cls := 4 }]
    engines := { e0 := busyOn 4 2 8, e1 := busyOn 5 3 9 }
    dsc := { due.dsc with startOrder := [.e0, .e1] } }

theorem witness_PreemptionMarks :
    contended.resetLow = false ∧ contended.dsc.selectionsDue ≠ 0 ∧ contended.dsc.hold = none ∧ contended.ready = true ∧
      contended.inSync = true ∧ contended.firstIdle = none ∧ contended.dsc.marked = none ∧
      contended.dsc.startOrder = [.e0, .e1] ∧ contended.headClass .e0 = some 4 ∧ contended.headClass .e1 = some 4 ∧
      (contended.queue.map Record.handle).Nodup ∧ contended.queue.head? = some (alert 3 .waiting) ∧
      contended.classEntry 0 = some cls ∧ cls.routes[0]? = some 0 ∧ contended.routeValid 0 = true ∧
      contended.callOn 0 = none := by decide

theorem witness_SchedulerTimersEnd :
    ({ ready with dsc := { ready.dsc with hold := some 0 } } : State).dsc.hold = some 0 ∧ ready.dsc.hold ≠ some 0 ∧
      ({ ready with cmu := { ready.cmu with slot := .held (.lineTest 1) 0 } } : State).cmu.slot = .held (.lineTest 1) 0 ∧
      ready.tables.site = some site ∧ ready.cmu.silent = false ∧ ready.resetLow = false ∧
      ({ ready with cmu := { ready.cmu with periodic := some 0, silenceTimer := some 0 } } : State).cmu.periodic = some 0 := by
  decide

/-- R152, R159, R160: the timers one unit before they run out, a running command, and a monitor that is SILENT already. -/
theorem witness_SchedulerTimersEnd_not_due :
    let s : State := { ready with cmu := { ready.cmu with
      slot := .held (.lineTest 1) 1, periodic := some 1, silenceTimer := some 1 } }
    (∀ c, s.cmu.slot ≠ .held c 0) ∧ s.cmu.periodic ≠ some 0 ∧ s.cmu.silenceTimer ≠ some 0 ∧
      (∀ c, ({ ready with cmu := { ready.cmu with slot := .running (.lineTest 1) .e0 } } : State).cmu.slot ≠ .held c 0) ∧
      ({ ready with cmu := { ready.cmu with silent := true } } : State).cmu.silent = true :=
  ⟨fun _ => by simp, by decide, by decide, fun _ => by simp, rfl⟩

/-! ### Cells and commands -/

/-- A cell of the station waiting at the head of the inbound queue. -/
def arriving (kind : Nat) (body : List Word) : State :=
  { ready with ccp := { ready.ccp with inbound := [⟨headerWord kind 1 body.length, body⟩] } }

theorem witness_CellsTakenAndRead_taken :
    (arriving 7 []).ccp.inHand = none ∧ (arriving 7 []).ccp.answers.length < 4 ∧ (arriving 7 []).ccp.initWait = false ∧
      (⟨headerWord 7 1 0, []⟩ : InCell).lengthOk = true ∧ (⟨headerWord 7 1 1, [0]⟩ : InCell).lengthOk = false ∧
      (holding ready 7 []).ccp.inHand.isSome = true := by decide

/-- R182: the codes at the edges of their ranges: command codes 0 and 15, handle 31, 32 and 32767, table codes 5 and 6. -/
theorem witness_CellsTakenAndRead_read :
    knownKind 2 = false ∧ (∀ k ∈ [0, 15], (⟨headerWord 5 1 3, [wordOf k, 0, 0]⟩ : InCell).code = k) ∧
      (∀ h ∈ [31, 32, 32767], (⟨headerWord 8 1 1, [wordOf h]⟩ : InCell).field 1 = h) ∧
      (⟨headerWord 8 1 1, [31]⟩ : InCell).kind = 8 ∧ addressRef 0x507 = some (.cadence 7) ∧ addressRef 0x600 = none ∧
      addressRef 0x508 = none := by decide

theorem witness_TableWriteDecided :
    (holding ready 3 [0x302, 1, 5]).held 3 = some ⟨headerWord 3 1 3, [0x302, 1, 5]⟩ ∧
      (⟨headerWord 3 1 3, [0x302, 1, 5]⟩ : InCell).parseWrite tables = .error .duplicateSlot ∧
      (⟨headerWord 3 1 3, [0x302, 1, 28]⟩ : InCell).parseWrite tables =
        .ok { write := .trunk 2 ⟨.shared, 28⟩, clamped := [] } ∧
      (⟨headerWord 3 1 3, [0x302, 1, 29]⟩ : InCell).parseWrite tables =
        .ok { write := .trunk 2 ⟨.shared, 28⟩, clamped := [3] } ∧
      (holding ready 3 [0x302, 1, 28]).inUse (.trunk 2) = false ∧ (calling .seize .none).inUse (.trunk 0) = true ∧
      (⟨headerWord 3 1 3, [0x302, 2, 28]⟩ : InCell).parseWrite tables = .ok { write := .trunk 2 ⟨.reserved, 28⟩, clamped := [] } ∧
      (⟨headerWord 3 1 3, [0x302, 3, 28]⟩ : InCell).parseWrite tables =
        .ok { write := .trunk 2 ⟨.office, 28⟩, clamped := [] } ∧
      (⟨headerWord 3 1 13, wordOf 0x104 :: cls.words⟩ : InCell).parseWrite tables =
        .ok { write := .cls 4 cls, clamped := [] } := by
  decide

/-- R145, R159, R160: a site record written with its tables ready; a staged route entry with a user left, and with none. -/
theorem witness_TableWriteDecided_site_and_staged :
    let w : Tables := { tables with routes := vput tables.routes 0 ⟨some route, some { route with ackTimeout := 20 }⟩ }
    (⟨headerWord 3 1 26, wordOf 0 :: site.words⟩ : InCell).parseWrite tables = .ok { write := .site site, clamped := [] } ∧
      ready.inUse .site = false ∧ ready.ready = true ∧ ready.cmu.silent = false ∧
      ({ ready with tables := w } : State).tables.stagedWrite (.route 0) = some (.route 0 { route with ackTimeout := 20 }) ∧
      ({ ready with tables := w } : State).inUse (.route 0) = false ∧
      ({ calling .dialing .none with tables := w } : State).inUse (.route 0) = true ∧
      tables.stagedWrite (.route 0) = none := by decide

theorem witness_WrittenFieldsClamped :
    (10 ≤ 90 ∧ 10 ≤ 10 ∧ 90 ≤ 90 ∧ 9 < 10 ∧ 90 < 91) ∧ (9 : Nat) ≠ 0 := by decide

/-- A TABLE_WRITE cell of these words. -/
def written (body : List Word) : InCell := ⟨headerWord 3 1 body.length, body⟩

/-- A route entry's words with this valid code, length, first symbols, tones and dial tone mode. -/
def routeWords (valid length symbols handshake mode : Word) : List Word :=
  [0x203, valid, length, symbols, 0, 0, 0, 0, 0, 0, 0, handshake, 4, 2, 2, 2, mode, 45, 15]

/-- R135: for each table, words at the edges of what its reasons refuse. -/
theorem witness_WrittenFieldsClamped_reasons :
    (addressRef 0x100 = some (.cls 0) ∧ addressRef 0x107 = none) ∧
      ((written (0 :: site.words)).field 2 = 6 ∧ (written [0, 3]).field 2 = 3 ∧ (written [0, 9]).field 2 = 9 ∧
        (written [0, 4, 0, 0, 0, 15, 15, 16]).field 8 = 16) ∧
      ((written [0x105, 0, 0, 0, 0, 0, 3]).field 7 = 3 ∧ (written [0x105, 0, 0, 0, 0, 0, 2]).field 2 = 0 ∧
        (written [0x105, 5, 7, 7, 7, 8, 2]).field (3 + 3) = 8 ∧ (3 : Nat) < min 4 5 ∧
        (written [0x105, 1, 7, 8, 8, 8, 2]).field (3 + 0) = 7) ∧
      ((written (routeWords 2 1 0 3 0)).field 2 = 2 ∧ (written (routeWords 1 1 0 3 2)).field 17 = 2 ∧
        (written (routeWords 1 25 0 3 1)).field 3 = 25 ∧ ((written (routeWords 1 3 0xDE 3 1)).word (4 + 2 / 3)).toNat /
          16 ^ (2 - 2 % 3) % 16 = 14 ∧
        ((written (routeWords 1 2 0xDE 3 1)).word (4 + 1 / 3)).toNat / 16 ^ (2 - 1 % 3) % 16 = 13 ∧
        (written (routeWords 1 1 0 16 1)).field 12 = 16) ∧
      ((written [0x302, 4, 5]).field 2 = 4 ∧ (written [0x302, 1, 5]).field 2 = 1 ∧
        ((vget tables.trunks 0).applied = some ⟨.shared, 5⟩ ∧ (5 : Nat) = min 28 ((written [0x302, 1, 5]).field 3))) ∧
      ((written [0x40F, 1, 0, 0, 0, 0, 0, 0, 0, 0, 0, 0, 8]).field 13 = 8 ∧ addressRef 0x40F = some (.tone 15)) := by decide

/-- R135 to R141: for each table, words that no reason refuses, at the edges of the fields. -/
theorem witness_WrittenFieldsClamped_stored :
    let x := written (0 :: site.words)
    let k := written [0x105, 9, 7, 7, 7, 7, 2, 10, 121, 0, 901, 8, 16]
    let r := written (routeWords 1 2 0xCD 15 1)
    let t := written [0x40F, 3, 0, 0, 0, 0, 64, 0, 0, 0, 0, 0, 7]
    (addressRef (x.word 1) = some .site ∧ x.field 2 = 6 ∧ x.field 6 < 16 ∧ x.field 7 < 16 ∧ x.field 8 < 16) ∧
      (addressRef (k.word 1) = some (.cls 5) ∧ k.field 7 < 3 ∧ 0 < k.field 2 ∧ ∀ i, i < min 4 (k.field 2) → k.field (3 + i) < 8) ∧
      (addressRef (r.word 1) = some (.route 3) ∧ r.field 2 < 2 ∧ r.field 17 < 2 ∧ 0 < r.field 3 ∧ r.field 3 ≤ 24 ∧
        (∀ i, i < r.field 3 → r.symbolAt 4 i < 14) ∧ r.field 12 < 16 ∧ r.field 13 < 16) ∧
      (addressRef (t.word 1) = some (.tone 15) ∧ t.field 13 < 8) := by decide

/-- R138, R136: a class entry with each of its fields beyond its range, by hand from the table of R138. -/
theorem test_class_write_clamped :
    (written [0x105, 9, 7, 6, 5, 4, 2, 11, 121, 0, 901, 8, 16]).parseWrite tables =
      .ok { write := .cls 5 { routes := [7, 6, 5, 4], preemptMode := .immediate, warningTime := 10, cancelWindow := 120,
                              backoffBase := 1, backoffCap := 900, maxCycles := 7, classSymbol := 15 }
            clamped := [2, 8, 9, 10, 11, 12, 13] } := by decide

theorem witness_SlotCommandsDecided :
    (∀ n : Fin 8, (commanded ready 1 n.val 0).heldCommand 1 = some ⟨headerWord 5 1 3, [1, wordOf n.val, 0]⟩ ∧
      (⟨headerWord 5 1 3, [1, wordOf n.val, 0]⟩ : InCell).field 2 = n.val) ∧
      ready.cmu.slot = .empty ∧ (⟨headerWord 5 1 3, [2, 8, 0]⟩ : InCell).field 2 = 8 ∧
      (commanded ready 2 8 0).heldCommand 2 = some ⟨headerWord 5 1 3, [2, 8, 0]⟩ ∧
      (holding ready 6 []).held 6 = some ⟨headerWord 6 1 0, []⟩ := by decide

theorem witness_BarringCommands :
    (∀ n : Fin 8, (commanded ready 3 n.val 0).heldCommand 3 = some ⟨headerWord 5 1 3, [3, wordOf n.val, 0]⟩ ∧
      (commanded ready 4 n.val 0).heldCommand 4 = some ⟨headerWord 5 1 3, [4, wordOf n.val, 0]⟩) ∧
      (commanded ready 5 0 0).heldCommand 5 = some ⟨headerWord 5 1 3, [5, 0, 0]⟩ ∧
      (commanded ready 6 0 0).heldCommand 6 = some ⟨headerWord 5 1 3, [6, 0, 0]⟩ ∧
      (commanded (ready.setTrunk 0 { ready.trunk 0 with barred := true }) 4 0 0).grantable .none 0 = false ∧
      (commanded ready 4 0 0).grantable .none 0 = true ∧ (⟨headerWord 5 1 3, [3, 8, 0]⟩ : InCell).field 2 = 8 := by decide

theorem witness_HoldAndEventCommands :
    (∀ k ∈ [7, 8, 12, 13], (commanded ready k 0 0).heldCommand k = some ⟨headerWord 5 1 3, [wordOf k, 0, 0]⟩) ∧
      ready.dsc.hold = none ∧ ({ ready with dsc := { ready.dsc with hold := some 1 } } : State).dsc.hold.isSome = true ∧
      (⟨headerWord 5 1 3, [13, 128, 1]⟩ : InCell).maskBit 7 = true ∧ (⟨headerWord 5 1 3, [13, 128, 1]⟩ : InCell).maskBit 8 = true ∧
      (⟨headerWord 5 1 3, [13, 128, 1]⟩ : InCell).maskBit 15 = false := by decide

theorem witness_AbortCallsAndInit_queue :
    QueueSound (commanded busy 9 0 0) ∧ (∀ r ∈ (queued (.held 5 0)).queue, r.state.isInCall = false) ∧
      (busy.engine .e0).work = .alertCall call ∧ (busy.engine .e0).phase ≠ .closing ∧ (3 : Handle) ∈ call.unsettled ∧
      busy.findRecord 3 = some (alert 3 (.inCall .e0)) ∧ TrunksSound busy :=
  ⟨⟨by decide, by decide, by decide⟩, by decide, by decide, by decide, by decide, by decide, witness_StepKeepsTrunksHeld.1⟩

theorem witness_AbortCallsAndInit :
    (∀ k ∈ [9, 14], (commanded (calling .dialing .none) k 0 0).heldCommand k = some ⟨headerWord 5 1 3, [wordOf k, 0, 0]⟩) ∧
      ((calling .dialing .none).engine .e0).work.call.isSome = true ∧ ((calling .dialing .none).engine .e0).phase ≠ .closing ∧
      ((calling .dialing .none).engine .e1).work.call = none ∧ ((calling .dialing .none).engine .e0).work ≠ .nothing ∧
      takes ⟨true, false⟩ .e0 = true ∧ takes ⟨false, true⟩ .e0 = false := by decide

theorem witness_ReleaseAndPurge :
    (commanded (queued .stranded) 10 0 0).heldCommand 10 = some ⟨headerWord 5 1 3, [10, 0, 0]⟩ ∧
      (commanded (queued .waiting) 11 3 0).heldCommand 11 = some ⟨headerWord 5 1 3, [11, 3, 0]⟩ ∧
      (⟨headerWord 5 1 3, [11, 3, 0]⟩ : InCell).field 2 = (3 : Handle).val ∧
      (queued .waiting).findRecord 3 = some (alert 3 .waiting) ∧ (alert 3 .waiting).state.isInCall = false ∧
      (alert 3 (.inCall .e0)).state.isInCall = true ∧ (queued .waiting).findRecord 31 = none ∧
      (⟨headerWord 5 1 3, [11, 32, 0]⟩ : InCell).field 2 = 32 := by decide

theorem witness_CellsEmitted :
    let a : AnswerEntry := ⟨1, .status, false⟩
    let s : State := { ready with ccp := { ready.ccp with answers := [a] } }
    let r : State := ready.raise (.highway false)
    let e : State := { s with ccp := { s.ccp with emitter := .emitting (.answer none) [] } }
    let d : State := { e with ccp := { e.ccp with answers := [⟨1, .answer 5 .done [], true⟩] } }
    s.ccp.emitter = .idle ∧ s.ccp.answers = [a] ∧ s.inSync = true ∧ a.content = .status ∧
      r.ccp.emitter = .idle ∧ r.ccp.answers = [] ∧ r.snapshot ≠ [] ∧
      e.ccp.emitter = .emitting (.answer none) [] ∧ a.initDone = false ∧ d.ccp.answers.map AnswerEntry.initDone = [true] ∧
      ({ r with ccp := { r.ccp with emitter := .emitting .event [] } } : State).ccp.emitter = .emitting .event [] ∧
      r.hwi.grid < 80 ∧ ({ r with ccp := { r.ccp with emitter := .emitting .event [1, 2] } } : State).ccp.emitter =
        .emitting .event (1 :: [2]) := by decide

theorem witness_CellsEmitted_answers :
    let s (x : AnswerContent) : State := { queued .waiting with ccp := { ready.ccp with answers := [⟨1, x, false⟩] } }
    (s (.queueRecord 3)).findRecord 3 = some (alert 3 .waiting) ∧ (s (.queueRecord 31)).findRecord 31 = none ∧ (s .queueSummary).ccp.answers = [⟨1, .queueSummary, false⟩] ∧
      (s (.answer 5 .done [])).inSync = true ∧ (s (.tableData (.cadence 0))).ccp.emitter = .idle ∧
      (0xA143 : Word) = BitVec.ofNat 16 (0xA000 + 1 * 256 + 1 * 64 + 3) := by decide

/-- R146: loaded tables with the ranges and the slots that every step keeps, and an entry of each. -/
theorem witness_TableBodies :
    TablesInRange busy ∧ SlotsDistinct busy ∧ busy.tables.site = some site ∧ vget busy.tables.classes 0 = some cls ∧
      (vget busy.tables.routes 7).applied = some { route with dialToneMode := .blind } ∧
      (vget busy.tables.trunks 1).applied = some ⟨.reserved, 6⟩ ∧ (vget busy.tables.tones 15).applied = some tone ∧
      (vget busy.tables.cadences 7).applied = some cadence :=
  ⟨witness_StepKeepsTablesSound.1, witness_StepKeepsTablesSound.2, by decide, by decide, by decide, by decide, by decide, by decide⟩

/-- R183, by hand: trunk 1's entry, RESERVED on slot 6, and trunk 5's, which is not loaded; the QUEUE_DATA words of the HELD
record of handle 4 and class 2. -/
theorem test_bodies :
    tables.tableBody (.trunk 1) = [0x8301, 2, 6] ∧ tables.tableBody (.trunk 5) = [0x305, 0, 0] ∧
      ({ alert 4 (.held 9 0) with cls := 2 } : Record).words = [0x2280, 0x1417, 0x046E, 0, 9, 0] := by decide


end Sys2Proof.Tests
end

namespace Sys2Proof.Machine

/-! ### What a counted far-end failure makes of a record (R17 to R19) -/

/-- R19's delay of a failure count that saturates at 15: the exponent is bounded by 10 first. -/
theorem backoffDelay_saturated (base cap failures : Nat) :
    backoffDelay base cap (min failures 15) = min (base * 2 ^ (min failures 10 - 1)) cap := by
  have hm : min (min failures 15) 10 = min failures 10 := by omega
  rw [backoffDelay, hm]

/-- R17: the route position and the cycles that a fallback leaves: the next position of the list, or, from its last one,
position 0 with one more cycle. -/
def Record.nextPlace (r : Record) (ce : ClassEntry) : Nat × Nat :=
  if r.routePos + 1 = ce.routes.length then (0, r.cycles + 1) else (r.routePos + 1, r.cycles)

theorem Record.nextPlace_within {r : Record} {ce : ClassEntry} (h : r.routePos + 1 < ce.routes.length) :
    r.nextPlace ce = (r.routePos + 1, r.cycles) := if_neg h.ne

theorem Record.nextPlace_last {r : Record} {ce : ClassEntry} (h : r.routePos + 1 = ce.routes.length) :
    r.nextPlace ce = (0, r.cycles + 1) := if_pos h

/-- R17, R19: below the route's fallback after, the record stays on its route. -/
theorem Record.fail_below_fallback {r : Record} {after : Nat} (ce : ClassEntry) (rt : RouteId)
    (h : r.routeFailures + 1 < after) :
    r.fail ce after rt = ({ r with
      failures := min (r.failures + 1) 15, routeFailures := r.routeFailures + 1
      state := .held (min (ce.backoffBase * 2 ^ (min (r.failures + 1) 10 - 1)) ce.backoffCap) 0 }, []) := by
  have hbelow : ¬ r.routeFailures + 1 ≥ after := by omega
  simp only [Record.fail, if_neg hbelow, backoffDelay_saturated]

/-- R17, R18, R19: at the route's fallback after, the record moves on, and is STRANDED or HELD by the cycles it then has. -/
theorem Record.fail_at_fallback {r : Record} {ce : ClassEntry} {after pos cycles : Nat} {a b : RouteId} (rt : RouteId)
    (h : after ≤ r.routeFailures + 1) (hplace : r.nextPlace ce = (pos, cycles))
    (ha : ce.routes[r.routePos]? = some a) (hb : ce.routes[pos]? = some b) :
    r.fail ce after rt =
      if ce.maxCycles ≤ cycles then
        ({ r with failures := min (r.failures + 1) 15, routeFailures := 0, routePos := pos, cycles := cycles
                  state := .stranded }, [.fallback r.handle a b, .stranded r.handle r.key])
      else
        ({ r with failures := min (r.failures + 1) 15, routeFailures := 0, routePos := pos, cycles := cycles
                  state := .held (min ce.backoffBase ce.backoffCap) 0 }, [.fallback r.handle a b]) := by
  unfold Record.nextPlace at hplace
  split at hplace
  all_goals
    next hlast =>
      obtain ⟨rfl, rfl⟩ := Prod.mk.inj hplace
      simp [Record.fail, h, hlast, ha, hb]

/-! ### Commands and the records they name (R22, R154) -/

theorem onCommand_of_heldCommand {s : State} {code : Nat} {c : InCell} (h : s.heldCommand code = some c)
    (f : State → InCell → State) : s.onCommand code f = f s c := by
  rw [State.onCommand, h]

@[simp] theorem finOf_val {n : Nat} (i : Fin n) : finOf n i.val = some i := dif_pos i.isLt

theorem finOf_eq_none {n k : Nat} (h : n ≤ k) : finOf n k = none := dif_neg (Nat.not_lt.mpr h)

/-- R2: a record is found by its own handle. -/
theorem handle_of_findRecord {s : State} {h : Handle} {r : Record} (hr : s.findRecord h = some r) : r.handle = h := by
  simpa using List.find?_some hr

theorem purgeCommand_found {s : State} {c : InCell} {h : Handle} {r : Record} (hc : c.field 2 = h.val)
    (hr : s.findRecord h = some r) :
    s.purgeCommand c = if r.state.isInCall then s.answer .busy [] else (s.removeRecord h).answer .done [] := by
  simp [State.purgeCommand, hc, hr, handle_of_findRecord hr]

theorem purgeCommand_notFound {s : State} {c : InCell} {h : Handle} (hc : c.field 2 = h.val)
    (hr : s.findRecord h = none) : s.purgeCommand c = s.answer .badArgument [] := by
  simp [State.purgeCommand, hc, hr]

theorem purgeCommand_noHandle {s : State} {c : InCell} (hc : 32 ≤ c.field 2) :
    s.purgeCommand c = s.answer .badArgument [] := by
  simp [State.purgeCommand, finOf_eq_none hc]

theorem exec_purge {s : State} {c : InCell} (hlive : s.resetLow = false) (hc : s.heldCommand 11 = some c) :
    exec .purge s = .next (s.purgeCommand c) := by
  have hexec : exec .purge s = execPurge s := rfl
  rw [hexec, execPurge, running_live _ hlive, onCommand_of_heldCommand hc]

theorem exec_releaseStranded {s : State} {c : InCell} (hlive : s.resetLow = false) (hc : s.heldCommand 10 = some c) :
    exec .releaseStranded s = .next (s.releaseStranded.answer .done []) := by
  have hexec : exec .releaseStranded s = execReleaseStranded s := rfl
  rw [hexec, execReleaseStranded, running_live _ hlive, onCommand_of_heldCommand hc]

end Sys2Proof.Machine

namespace Sys2Proof.Proofs

open Sys2Proof Sys2Proof.Machine

/-- Settles O46: below the fallback after the record stays on its route; at it, `Record.nextPlace` says where the record
goes, and the cycles there whether it is HELD or STRANDED. -/
theorem farEndFailureCounted : Obligations.FarEndFailureCounted := by
  intro r ce after rt a b
  refine ⟨Record.fail_below_fallback ce rt, fun hafter hwithin ha hb hcycles => ?within,
    fun hafter hlast ha hb => ⟨fun hcycles => ?held, fun hcycles => ?stranded⟩⟩
  case within =>
    rw [Record.fail_at_fallback rt hafter (Record.nextPlace_within hwithin) ha hb, if_neg (Nat.not_le.mpr hcycles)]
  case held =>
    rw [Record.fail_at_fallback rt hafter (Record.nextPlace_last hlast) ha hb, if_neg (Nat.not_le.mpr hcycles)]
  case stranded =>
    rw [Record.fail_at_fallback rt hafter (Record.nextPlace_last hlast) ha hb, if_pos hcycles]

/-- Settles O59: RELEASE_STRANDED is R23's release as the model writes it; PURGE goes by what its argument names, a record
in a call, another record, a free handle, or no handle. -/
theorem releaseAndPurge : Obligations.ReleaseAndPurge := by
  intro s c hlive
  refine ⟨exec_releaseStranded hlive, fun hc => ?_⟩
  rw [exec_purge hlive hc]
  refine ⟨fun h r hfield hr => ⟨fun hfree => ?free, fun hbusy => ?busy⟩, fun h hfield hr => ?notFound,
    fun hfield => ?noHandle⟩
  case free => simp [purgeCommand_found hfield hr, hfree, State.removeRecord]
  case busy => simp [purgeCommand_found hfield hr, hbusy]
  case notFound => rw [purgeCommand_notFound hfield hr]
  case noHandle => rw [purgeCommand_noHandle hfield]

end Sys2Proof.Proofs

namespace Sys2Proof.Machine

/-! ### The check symbol of a report block (R66) -/

theorem blockSum_cons (q : Fin 16) (qs : List (Fin 16)) :
    blockSum (q :: qs) = (15 - q.val) + (qs.map Fin.val).sum := rfl

/-- The reduction of R66 leaves a value below 16, so the symbol holds it unchanged. -/
theorem checkSymbol_val (symbols : List (Fin 16)) :
    (checkSymbol symbols).val = (16 - blockSum symbols % 16) % 16 :=
  Nat.mod_mod _ _

/-- The check symbol brings S up to the next multiple of 16. -/
theorem blockSum_add_checkSymbol_mod (symbols : List (Fin 16)) :
    (blockSum symbols + (checkSymbol symbols).val) % 16 = 0 := by
  rw [checkSymbol_val]
  omega

end Sys2Proof.Machine

namespace Sys2Proof.Proofs

open Sys2Proof Sys2Proof.Machine

/-- Settles O23: the total named there is the model's `blockSum`, which the check symbol closes for any symbols. -/
theorem checkSymbolClosesBlock : Obligations.CheckSymbolClosesBlock := by
  intro q qs total htotal
  rw [← blockSum_cons] at htotal
  subst htotal
  exact ⟨checkSymbol_val (q :: qs), blockSum_add_checkSymbol_mod (q :: qs)⟩

end Sys2Proof.Proofs

namespace Sys2Proof.Machine

/-! ### The invariants part by part: what an update must satisfy to keep them -/

/-- One engine's share of `IdleEnginesEmpty`. -/
def Engine.IdleEmpty (x : Engine) : Prop :=
  x.phase = .idle → x = { Engine.reset with detector := x.detector } ∧ ∀ l ∈ x.detector.loadings, l.status = .stopping

/-- A call's route is one the engine had before. -/
def Engine.RouteKept (x y : Engine) : Prop := ∀ c, y.work.call = some c → ∃ c', x.work.call = some c' ∧ c'.route = c.route

/-- An update of one engine that keeps its detector sound, its emptiness while IDLE and its call's route. -/
structure EngineKept (x y : Engine) : Prop where
  sound : x.detector.Sound → y.detector.Sound
  idle : x.IdleEmpty → y.IdleEmpty
  route : x.RouteKept y

theorem EngineKept.refl (x : Engine) : EngineKept x x := ⟨id, id, fun c h => ⟨c, h, rfl⟩⟩

theorem EngineKept.trans {x y z : Engine} (h : EngineKept x y) (k : EngineKept y z) : EngineKept x z where
  sound := k.sound ∘ h.sound
  idle := k.idle ∘ h.idle
  route c hc := by
    obtain ⟨d, hd, hr⟩ := k.route c hc
    obtain ⟨d', hd', hr'⟩ := h.route d hd
    exact ⟨d', hd', hr'.trans hr⟩

/-- The invariants that each operation keeps by itself, whatever the operations around it. -/
structure LocalKept (s t : State) : Prop where
  queue : QueueSound s → QueueSound t
  records : RecordsInRange s → RecordsInRange t
  events : EventsSound s → EventsSound t
  ranges : TablesInRange s → TablesInRange t
  slots : SlotsDistinct s → SlotsDistinct t
  debounce : DebounceSound s → DebounceSound t
  channel : ChannelSound s → ChannelSound t
  detectors : ∀ e, (s.engine e).detector.Sound → (t.engine e).detector.Sound
  idle : ∀ e, (s.engine e).IdleEmpty → (t.engine e).IdleEmpty
  routes : RoutesDistinct s → RoutesDistinct t

theorem LocalKept.refl (s : State) : LocalKept s s := ⟨id, id, id, id, id, id, id, fun _ => id, fun _ => id, id⟩

theorem LocalKept.trans {s m t : State} (h : LocalKept s m) (k : LocalKept m t) : LocalKept s t :=
  ⟨k.queue ∘ h.queue, k.records ∘ h.records, k.events ∘ h.events, k.ranges ∘ h.ranges, k.slots ∘ h.slots,
    k.debounce ∘ h.debounce, k.channel ∘ h.channel, fun e => k.detectors e ∘ h.detectors e, fun e => k.idle e ∘ h.idle e,
    k.routes ∘ h.routes⟩

theorem foldl_localKept {α : Type} {g : State → α → State} (hg : ∀ s x, LocalKept s (g s x)) (l : List α) (s : State) :
    LocalKept s (l.foldl g s) := by
  induction l generalizing s with
  | nil => exact LocalKept.refl s
  | cons x xs ih => exact (hg s x).trans (ih _)

theorem queueSound_congr {s t : State} (h : t.queue = s.queue) (k : QueueSound s) : QueueSound t := by
  unfold QueueSound at *; rwa [h]

theorem recordsInRange_congr {s t : State} (h : t.queue = s.queue) (k : RecordsInRange s) : RecordsInRange t := by
  unfold RecordsInRange at *; rwa [h]

theorem eventsSound_congr {s t : State} (h : t.evr = s.evr) (k : EventsSound s) : EventsSound t := by
  unfold EventsSound at *; rwa [h]

theorem tablesInRange_congr {s t : State} (h : t.tables = s.tables) (k : TablesInRange s) : TablesInRange t := by
  unfold TablesInRange at *; rwa [h]

theorem slotsDistinct_congr {s t : State} (h : t.tables = s.tables) (k : SlotsDistinct s) : SlotsDistinct t := by
  unfold SlotsDistinct at *; rwa [h]

theorem debounceSound_congr {s t : State} (h : t.hwi.lines = s.hwi.lines) (k : DebounceSound s) : DebounceSound t := by
  unfold DebounceSound at *; rwa [h]

theorem channelSound_congr {s t : State} (h : t.ccp = s.ccp) (k : ChannelSound s) : ChannelSound t := by
  unfold ChannelSound at *; rwa [h]

/-- R30 asks for distinct routes of the two engines alone. -/
theorem routesDistinct_of_kept {s t : State} (h : ∀ e, (s.engine e).RouteKept (t.engine e)) (k : RoutesDistinct s) :
    RoutesDistinct t := by
  intro c0 c1 h0 h1 heq
  obtain ⟨d0, hd0, hr0⟩ := h .e0 c0 h0
  obtain ⟨d1, hd1, hr1⟩ := h .e1 c1 h1
  exact k d0 d1 hd0 hd1 (hr0.trans (heq.trans hr1.symm))

/-- An operation that changes nothing of the invariants' parts but the engines. -/
theorem LocalKept.of_engines' {s t : State} (hd : ∀ e, (s.engine e).detector.Sound → (t.engine e).detector.Sound)
    (hi : ∀ e, (s.engine e).IdleEmpty → (t.engine e).IdleEmpty) (hr : RoutesDistinct s → RoutesDistinct t)
    (hq : t.queue = s.queue := by simp) (hv : t.evr = s.evr := by simp) (ht : t.tables = s.tables := by simp)
    (hl : t.hwi.lines = s.hwi.lines := by simp) (hc : t.ccp = s.ccp := by simp) : LocalKept s t where
  queue := queueSound_congr hq
  records := recordsInRange_congr hq
  events := eventsSound_congr hv
  ranges := tablesInRange_congr ht
  slots := slotsDistinct_congr ht
  debounce := debounceSound_congr hl
  channel := channelSound_congr hc
  detectors := hd
  idle := hi
  routes := hr

theorem LocalKept.of_engines {s t : State} (he : ∀ e, EngineKept (s.engine e) (t.engine e))
    (hq : t.queue = s.queue := by simp) (hv : t.evr = s.evr := by simp) (ht : t.tables = s.tables := by simp)
    (hl : t.hwi.lines = s.hwi.lines := by simp) (hc : t.ccp = s.ccp := by simp) : LocalKept s t :=
  .of_engines' (fun e => (he e).sound) (fun e => (he e).idle) (routesDistinct_of_kept fun e => (he e).route) hq hv ht hl hc

/-- An operation that changes nothing of the invariants' parts. -/
theorem LocalKept.of_quiet {s t : State} (he : t.engines = s.engines := by simp)
    (hq : t.queue = s.queue := by simp) (hv : t.evr = s.evr := by simp) (ht : t.tables = s.tables := by simp)
    (hl : t.hwi.lines = s.hwi.lines := by simp) (hc : t.ccp = s.ccp := by simp) : LocalKept s t :=
  LocalKept.of_engines (fun e => by rw [engine_of_engines he]; exact EngineKept.refl _) hq hv ht hl hc

theorem localKept_modEngine (s : State) (e : EngineId) (f : Engine → Engine) (h : EngineKept (s.engine e) (f (s.engine e))) :
    LocalKept s (s.modEngine e f) :=
  LocalKept.of_engines fun g => by
    rw [engine_modEngine]
    split
    · next hg => rw [hg]; exact h
    · exact EngineKept.refl _

theorem localKept_setTrunk (s : State) (t : TrunkId) (x : Trunk) : LocalKept s (s.setTrunk t x) := .of_quiet

theorem localKept_cause (s : State) : LocalKept s s.cause := .of_quiet

theorem localKept_reportGrantable (b s : State) (t : TrunkId) : LocalKept s (b.reportGrantable s t) := by
  unfold State.reportGrantable
  split
  · exact localKept_cause s
  · exact .refl s

theorem LocalKept.of_queue {s t : State} (hq : QueueSound s → QueueSound t) (hr : RecordsInRange s → RecordsInRange t)
    (he : t.engines = s.engines := by simp) (hv : t.evr = s.evr := by simp) (ht : t.tables = s.tables := by simp)
    (hl : t.hwi.lines = s.hwi.lines := by simp) (hc : t.ccp = s.ccp := by simp) : LocalKept s t where
  queue := hq
  records := hr
  events := eventsSound_congr hv
  ranges := tablesInRange_congr ht
  slots := slotsDistinct_congr ht
  debounce := debounceSound_congr hl
  channel := channelSound_congr hc
  detectors e := by rw [engine_of_engines he]; exact id
  idle e := by rw [engine_of_engines he]; exact id
  routes := routesDistinct_of_kept fun e => by rw [engine_of_engines he]; exact (EngineKept.refl _).route

theorem LocalKept.of_evr {s t : State} (h : EventsSound s → EventsSound t)
    (he : t.engines = s.engines := by simp) (hq : t.queue = s.queue := by simp) (ht : t.tables = s.tables := by simp)
    (hl : t.hwi.lines = s.hwi.lines := by simp) (hc : t.ccp = s.ccp := by simp) : LocalKept s t where
  queue := queueSound_congr hq
  records := recordsInRange_congr hq
  events := h
  ranges := tablesInRange_congr ht
  slots := slotsDistinct_congr ht
  debounce := debounceSound_congr hl
  channel := channelSound_congr hc
  detectors e := by rw [engine_of_engines he]; exact id
  idle e := by rw [engine_of_engines he]; exact id
  routes := routesDistinct_of_kept fun e => by rw [engine_of_engines he]; exact (EngineKept.refl _).route

theorem LocalKept.of_tables {s t : State} (h : TablesInRange s → TablesInRange t) (hd : SlotsDistinct s → SlotsDistinct t)
    (he : t.engines = s.engines := by simp) (hq : t.queue = s.queue := by simp) (hv : t.evr = s.evr := by simp)
    (hl : t.hwi.lines = s.hwi.lines := by simp) (hc : t.ccp = s.ccp := by simp) : LocalKept s t where
  queue := queueSound_congr hq
  records := recordsInRange_congr hq
  events := eventsSound_congr hv
  ranges := h
  slots := hd
  debounce := debounceSound_congr hl
  channel := channelSound_congr hc
  detectors e := by rw [engine_of_engines he]; exact id
  idle e := by rw [engine_of_engines he]; exact id
  routes := routesDistinct_of_kept fun e => by rw [engine_of_engines he]; exact (EngineKept.refl _).route

theorem LocalKept.of_channel {s t : State} (h : ChannelSound s → ChannelSound t)
    (he : t.engines = s.engines := by simp) (hq : t.queue = s.queue := by simp) (hv : t.evr = s.evr := by simp)
    (ht : t.tables = s.tables := by simp) (hl : t.hwi.lines = s.hwi.lines := by simp) : LocalKept s t where
  queue := queueSound_congr hq
  records := recordsInRange_congr hq
  events := eventsSound_congr hv
  ranges := tablesInRange_congr ht
  slots := slotsDistinct_congr ht
  debounce := debounceSound_congr hl
  channel := h
  detectors e := by rw [engine_of_engines he]; exact id
  idle e := by rw [engine_of_engines he]; exact id
  routes := routesDistinct_of_kept fun e => by rw [engine_of_engines he]; exact (EngineKept.refl _).route

/-! ### Events (R163 to R168) -/

/-- One event record's share of `EventsSound`. -/
def EventRecord.Sound (k : EventKind) (r : EventRecord) : Prop :=
  (r.pending = true ↔ 0 < r.count) ∧ r.count ≤ 255 ∧ ∀ d, r.latest = some d → d.kind = k

/-- A snapshot's share of `EventsSound`. -/
def Emission.Sound (m : Emission) : Prop :=
  (m.entries.map SnapEntry.kind).Nodup ∧ ∀ n ∈ m.entries, 0 < n.count ∧ n.count ≤ 255 ∧ ∀ d, n.latest = some d → d.kind = n.kind

theorem eventsSound_iff (s : State) :
    EventsSound s ↔ (∀ k, (vget s.evr.records k).Sound k) ∧ ∀ m, s.evr.emission = some m → m.Sound := Iff.rfl

theorem EventRecord.Sound.occur {r : EventRecord} {k : EventKind} (h : r.Sound k) {d : Detail} (hd : d.kind = k) :
    (r.occur d).Sound k := by
  obtain ⟨-, hc, -⟩ := h
  refine ⟨⟨fun _ => ?_, fun _ => rfl⟩, Nat.min_le_right _ _, ?_⟩
  · show 0 < min (r.count + 1) 255
    omega
  · intro d' h'
    obtain rfl : d = d' := Option.some.inj h'
    exact hd

theorem EventRecord.Sound.clear {r : EventRecord} {k : EventKind} (h : r.Sound k) : r.clear.Sound k :=
  ⟨by simp [EventRecord.clear], Nat.zero_le _, h.2.2⟩

theorem EventRecord.Sound.restore {r : EventRecord} {k : EventKind} (h : r.Sound k) {n : Nat} (hn : 0 < n) :
    (r.restore n).Sound k := by
  refine ⟨⟨fun _ => ?_, fun _ => rfl⟩, Nat.min_le_right _ _, h.2.2⟩
  show 0 < min (r.count + n) 255
  omega

theorem EventRecord.reset_sound (k : EventKind) : EventRecord.reset.Sound k :=
  ⟨by simp [EventRecord.reset], Nat.zero_le _, by simp [EventRecord.reset]⟩

theorem localKept_raise (s : State) (d : Detail) : LocalKept s (s.raise d) := by
  refine .of_evr fun ⟨hr, hm⟩ => (eventsSound_iff _).2 ⟨fun k => ?_, fun m hm' => hm m (by simpa using hm')⟩
  by_cases hk : k = d.kind
  · subst hk
    rw [raise_record_same]
    exact EventRecord.Sound.occur (hr _) rfl
  · rw [raise_record_other s d hk]
    exact hr k

theorem localKept_setNotify (s : State) (p : EventKind → Bool) : LocalKept s (s.setNotify p) := by
  refine .of_evr fun ⟨hr, hm⟩ => (eventsSound_iff _).2 ⟨fun k => ?_, hm⟩
  simp only [State.setNotify, vget_vmap]
  exact hr k

theorem localKept_clearEvents (s : State) (p : EventKind → Bool) : LocalKept s (s.clearEvents p) := by
  refine .of_evr fun ⟨hr, hm⟩ => (eventsSound_iff _).2 ⟨fun k => ?_, fun m h => ?_⟩
  · simp only [State.clearEvents, vget_vmap]
    split
    · exact EventRecord.Sound.clear (hr k)
    · exact hr k
  · obtain ⟨n, hn, rfl⟩ : ∃ n, s.evr.emission = some n ∧ _ = m := by simpa [State.clearEvents] using h
    exact hm n hn

theorem localKept_initEvents (s : State) : LocalKept s s.initEvents := by
  refine .of_evr (fun _ => (eventsSound_iff _).2 ⟨fun k => ?_, fun m h => by cases h⟩) rfl rfl rfl rfl rfl
  simpa [State.initEvents, Evr.reset] using EventRecord.reset_sound k

theorem mem_snapshot {s : State} {n : SnapEntry} (h : n ∈ s.snapshot) :
    (vget s.evr.records n.kind).due = true ∧ n.count = (vget s.evr.records n.kind).count ∧
      n.latest = (vget s.evr.records n.kind).latest := by
  obtain ⟨k, hk, rfl⟩ : ∃ k, (k ∈ eventKinds ∧ (vget s.evr.records k).due = true) ∧ _ = n := by
    simpa [State.snapshot] using h
  exact ⟨hk.2, rfl, rfl⟩

theorem snapshot_kinds (s : State) :
    s.snapshot.map SnapEntry.kind = eventKinds.filter fun k => (vget s.evr.records k).due := by
  simp [State.snapshot, Function.comp_def]

theorem localKept_takeSnapshot (s : State) : LocalKept s s.takeSnapshot := by
  refine .of_evr fun ⟨hr, hm⟩ => (eventsSound_iff _).2 ⟨fun k => ?_, fun m h => ?_⟩
  · simp only [State.takeSnapshot, vget_vmap]
    split
    · exact EventRecord.Sound.clear (hr k)
    · exact hr k
  · obtain rfl : _ = m := Option.some.inj h
    refine ⟨?_, fun n hn => ?_⟩
    · show (s.snapshot.map SnapEntry.kind).Nodup
      rw [snapshot_kinds]
      exact (List.nodup_finRange 16).filter _
    · obtain ⟨hd, hc, hl⟩ := mem_snapshot hn
      obtain ⟨hp, hle, hk⟩ := hr n.kind
      rw [hc, hl]
      exact ⟨hp.1 (by simp [EventRecord.due] at hd; exact hd.1), hle, hk⟩

/-- R178: the kinds given back to the records, one entry after another. -/
theorem foldl_restore_sound {entries : List SnapEntry} (h : ∀ n ∈ entries, 0 < n.count) (rs : Vector EventRecord 16)
    (hr : ∀ k, (vget rs k).Sound k) (k : EventKind) :
    (vget (entries.foldl (fun rs n => vput rs n.kind ((vget rs n.kind).restore n.count)) rs) k).Sound k := by
  induction entries generalizing rs with
  | nil => exact hr k
  | cons n ns ih =>
    refine ih (fun m hm => h m (List.mem_cons_of_mem _ hm)) _ fun j => ?_
    rw [vget_vput]
    split
    · next hj => subst hj; exact EventRecord.Sound.restore (hr _) (h n List.mem_cons_self)
    · exact hr j

theorem localKept_restored (s : State) : LocalKept s { s with evr := s.evr.restored } := by
  refine .of_evr fun ⟨hr, hm⟩ => ?_
  unfold Evr.restored
  split
  · exact ⟨hr, hm⟩
  · next m hs =>
    refine (eventsSound_iff _).2 ⟨fun k => foldl_restore_sound (fun n hn => ?_) _ hr k, fun _ h => by cases h⟩
    exact ((hm m hs).2 n (List.mem_of_mem_filter hn)).1

theorem localKept_emissionSent (s : State) : LocalKept s { s with evr := { s.evr with emission := none } } :=
  .of_evr fun ⟨hr, _⟩ => ⟨hr, fun _ h => by cases h⟩

end Sys2Proof.Machine

namespace Sys2Proof.Machine

/-! ### The alert queue (R2, R3, R7, R11) -/

/-- The keys of the records outside calls, in queue order. -/
def openKeys (q : List Record) : List Key := (q.filter fun r => !r.state.isInCall).map Record.key

theorem queueSound_iff (s : State) : QueueSound s ↔ (s.queue.map Record.handle).Nodup ∧
    s.queue.Pairwise (fun a b => a.cls ≤ b.cls) ∧ (openKeys s.queue).Nodup := Iff.rfl

/-- With distinct handles, R11 says that two records outside calls of one key are one record. -/
theorem openKeys_nodup_iff {q : List Record} (hn : (q.map Record.handle).Nodup) : (openKeys q).Nodup ↔
    ∀ a ∈ q, ∀ b ∈ q, a.state.isInCall = false → b.state.isInCall = false → a.key = b.key → a.handle = b.handle := by
  unfold openKeys
  rw [List.nodup_map_iff_inj_on (hn.of_map.filter _)]
  constructor
  · intro h a ha b hb hac hbc hk
    rw [h a (List.mem_filter.2 ⟨ha, by simp [hac]⟩) b (List.mem_filter.2 ⟨hb, by simp [hbc]⟩) hk]
  · intro h a ha b hb hk
    obtain ⟨ha, hac⟩ := List.mem_filter.1 ha
    obtain ⟨hb, hbc⟩ := List.mem_filter.1 hb
    exact List.inj_on_of_nodup_map hn ha hb (h a ha b hb (by simpa using hac) (by simpa using hbc) hk)

/-- A change of records that keeps what a record is known by. -/
structure RecordMap (f : Record → Record) : Prop where
  handle : ∀ r, (f r).handle = r.handle
  key : ∀ r, (f r).key = r.key
  cls : ∀ r, (f r).cls = r.cls

theorem RecordMap.ite {f : Record → Record} (hf : RecordMap f) (p : Record → Prop) [DecidablePred p] :
    RecordMap fun r => if p r then f r else r where
  handle r := by split <;> simp [hf.handle]
  key r := by split <;> simp [hf.key]
  cls r := by split <;> simp [hf.cls]

theorem RecordMap.comp {f g : Record → Record} (hg : RecordMap g) (hf : RecordMap f) : RecordMap (g ∘ f) :=
  ⟨fun r => (hg.handle _).trans (hf.handle r), fun r => (hg.key _).trans (hf.key r), fun r => (hg.cls _).trans (hf.cls r)⟩

theorem RecordMap.map_handle {f : Record → Record} (hf : RecordMap f) (q : List Record) :
    (q.map f).map Record.handle = q.map Record.handle := by simp [Function.comp_def, hf.handle]

/-- A queue of some of the old records, changed, in which an open key still names one record. -/
theorem queueSound_of_sublist {s t : State} {f : Record → Record} (hf : RecordMap f) (hq : t.queue.Sublist (s.queue.map f))
    (h : QueueSound s) (hu : ∀ a ∈ t.queue, ∀ b ∈ t.queue, a.state.isInCall = false → b.state.isInCall = false →
      a.key = b.key → a.handle = b.handle) : QueueSound t := by
  obtain ⟨hn, hc, -⟩ := h
  have hn' : (t.queue.map Record.handle).Nodup := (hq.map _).nodup (by rwa [hf.map_handle])
  refine (queueSound_iff _).2 ⟨hn', .sublist hq ?_, (openKeys_nodup_iff hn').2 hu⟩
  rw [List.pairwise_map]
  simpa only [hf.cls] using hc

/-- Records changed, none of them brought out of a call, and some removed. -/
theorem queueSound_map {s t : State} {f : Record → Record} (hf : RecordMap f) (hq : t.queue.Sublist (s.queue.map f))
    (hs : ∀ r ∈ s.queue, r.state.isInCall = true → (f r).state.isInCall = true) (h : QueueSound s) : QueueSound t := by
  refine queueSound_of_sublist hf hq h fun a ha b hb hac hbc hk => ?_
  obtain ⟨x, hx, rfl⟩ := List.mem_map.1 (hq.subset ha)
  obtain ⟨y, hy, rfl⟩ := List.mem_map.1 (hq.subset hb)
  have out : ∀ r ∈ s.queue, (f r).state.isInCall = false → r.state.isInCall = false := fun r hr hc => by
    cases hrc : r.state.isInCall with
    | false => rfl
    | true => rw [hs r hr hrc] at hc; exact hc
  rw [hf.handle, hf.handle]
  exact (openKeys_nodup_iff h.1).1 h.2.2 x hx y hy (out x hx hac) (out y hy hbc) (by rwa [hf.key, hf.key] at hk)

theorem queueSound_filter {s t : State} {p : Record → Bool} (hq : t.queue = s.queue.filter p) (h : QueueSound s) :
    QueueSound t :=
  queueSound_map (f := id) ⟨fun _ => rfl, fun _ => rfl, fun _ => rfl⟩
    (by rw [hq, List.map_id]; exact List.filter_sublist) (fun _ _ h => h) h

/-- One record's share of `RecordsInRange`. -/
def Record.InRange (r : Record) : Prop := r.failures ≤ 15 ∧ r.repeats ≤ 15 ∧ r.age ≤ 65535 ∧ r.key.inRange = true

theorem recordsInRange_map {s t : State} {f : Record → Record} (hq : t.queue = s.queue.map f)
    (hf : ∀ r : Record, r.InRange → (f r).InRange) (h : RecordsInRange s) : RecordsInRange t := by
  intro r hr
  rw [hq] at hr
  obtain ⟨x, hx, rfl⟩ := List.mem_map.1 hr
  exact hf x (h x hx)

theorem recordsInRange_filter {s t : State} {p : Record → Bool} (hq : t.queue = s.queue.filter p) (h : RecordsInRange s) :
    RecordsInRange t := fun r hr => h r (List.mem_of_mem_filter (hq ▸ hr))

/-- The queue's records changed by a function that brings none out of a call. -/
theorem localKept_map (s : State) {f : Record → Record} (hf : RecordMap f)
    (hs : ∀ r ∈ s.queue, r.state.isInCall = true → (f r).state.isInCall = true) (hr : ∀ r : Record, r.InRange → (f r).InRange) :
    LocalKept s { s with queue := s.queue.map f } :=
  .of_queue (queueSound_map hf (List.Sublist.refl _) hs) (recordsInRange_map rfl hr)

theorem updateRecord_queue (s : State) (h : Handle) (f : Record → Record) :
    (s.updateRecord h f).queue = s.queue.map fun r => if r.handle == h then f r else r := rfl

theorem localKept_updateRecord (s : State) (h : Handle) {f : Record → Record} (hf : RecordMap f)
    (hs : ∀ r ∈ s.queue, r.handle = h → r.state.isInCall = true → (f r).state.isInCall = true)
    (hr : ∀ r : Record, r.InRange → (f r).InRange) : LocalKept s (s.updateRecord h f) := by
  refine localKept_map s (hf.ite _) (fun r hq hc => ?_) fun r hi => ?_
  · split
    · next hh => exact hs r hq (by simpa using hh) hc
    · exact hc
  · split
    · exact hr r hi
    · exact hi

theorem localKept_removeRecord (s : State) (h : Handle) : LocalKept s (s.removeRecord h) :=
  .of_queue (queueSound_filter rfl) (recordsInRange_filter rfl)

/-! ### Handles name one record -/

theorem findRecord_mem {s : State} {h : Handle} {r : Record} (hr : s.findRecord h = some r) : r ∈ s.queue :=
  List.mem_of_find?_eq_some hr

theorem QueueSound.eq_of_handle {s : State} (hs : QueueSound s) {a b : Record} (ha : a ∈ s.queue) (hb : b ∈ s.queue)
    (h : a.handle = b.handle) : a = b := List.inj_on_of_nodup_map hs.1 ha hb h

theorem QueueSound.findRecord_of_mem {s : State} (hs : QueueSound s) {r : Record} (hr : r ∈ s.queue) :
    s.findRecord r.handle = some r := by
  cases hf : s.findRecord r.handle with
  | none => simpa using List.find?_eq_none.1 hf r hr
  | some x => rw [hs.eq_of_handle (findRecord_mem hf) hr (handle_of_findRecord hf)]

/-- R2, R11: among the records outside calls a key names one. -/
theorem QueueSound.eq_of_key {s : State} (hs : QueueSound s) {a b : Record} (ha : a ∈ s.queue) (hb : b ∈ s.queue)
    (hac : a.state.isInCall = false) (hbc : b.state.isInCall = false) (h : a.key = b.key) : a = b :=
  List.inj_on_of_nodup_map hs.2.2 (List.mem_filter.2 ⟨ha, by simp [hac]⟩) (List.mem_filter.2 ⟨hb, by simp [hbc]⟩) h

/-! ### Reports, admissions and returns -/

theorem Engine.modCall_idleEmpty {x : Engine} (f : CallRecord → CallRecord) (h : x.IdleEmpty) : (x.modCall f).IdleEmpty := by
  intro hp
  obtain ⟨hx, hl⟩ := h hp
  have hw : x.work = .nothing := by rw [hx]; rfl
  have : x.modCall f = x := by rw [Engine.modCall, hw, Work.mapCall, ← hw]
  rw [this]
  exact ⟨hx, hl⟩

theorem Work.mapCall_call (w : Work) (f : CallRecord → CallRecord) : (w.mapCall f).call = w.call.map f := by cases w <;> rfl

/-- A change of an engine's call that keeps its route. -/
theorem engineKept_modCall (x : Engine) {f : CallRecord → CallRecord} (hf : ∀ c, (f c).route = c.route) :
    EngineKept x (x.modCall f) where
  sound := id
  idle := Engine.modCall_idleEmpty f
  route c hc := by
    obtain ⟨d, hd, rfl⟩ : ∃ d, x.work.call = some d ∧ f d = c := by
      simpa [Engine.modCall, Work.mapCall_call] using hc
    exact ⟨d, hd, (hf d).symm⟩

theorem localKept_appendBlock (s : State) (e : EngineId) (h : Handle) : LocalKept s (s.appendBlock e h) :=
  localKept_modEngine s e (Engine.modCall · fun c => { c with blocks := c.blocks ++ [⟨some h, .queued⟩] })
    (engineKept_modCall _ fun _ => rfl)

theorem recordMap_state (f : Record → RecordState) (b : Record → Bool) :
    RecordMap fun r => { r with state := f r, isProtected := b r } :=
  ⟨fun _ => rfl, fun _ => rfl, fun _ => rfl⟩

theorem localKept_takeRecord {s s' : State} {h : Handle} {e : EngineId} (hs : s.takeRecord h e = some s') : LocalKept s s' := by
  rw [(takeRecord_eq hs).2]
  exact localKept_updateRecord s h (recordMap_state (fun _ => .inCall e) fun _ => true) (fun _ _ _ _ => rfl) fun _ hr => hr

theorem localKept_lateJoin (s : State) (h : Handle) : LocalKept s (s.lateJoin h) := by
  unfold State.lateJoin
  split
  · exact .refl s
  split
  · exact .refl s
  split
  · exact .refl s
  split
  · next hs => exact (localKept_takeRecord hs).trans (localKept_appendBlock _ _ _)
  · exact .refl s

theorem localKept_reportWaiting (s : State) (h : Handle) : LocalKept s (s.reportWaiting h) :=
  (localKept_cause s).trans (localKept_lateJoin _ h)

theorem placeRecord_perm (r : Record) (q : List Record) : (placeRecord r q).Perm (r :: q) := by
  unfold placeRecord
  refine List.perm_middle.trans ?_
  rw [List.takeWhile_append_dropWhile]

theorem placeRecord_sorted {r : Record} {q : List Record} (h : q.Pairwise fun a b => a.cls ≤ b.cls) :
    (placeRecord r q).Pairwise fun a b => a.cls ≤ b.cls := by
  have key : ∀ x ∈ q.takeWhile (fun x => x.cls ≤ r.cls), x.cls ≤ r.cls := fun x hx => by
    simpa using List.mem_takeWhile_imp hx
  have drop : ∀ y ∈ q.dropWhile (fun x => x.cls ≤ r.cls), r.cls ≤ y.cls := by
    have hd := h.sublist (List.dropWhile_sublist fun x => decide (x.cls ≤ r.cls))
    cases hq : q.dropWhile (fun x => decide (x.cls ≤ r.cls)) with
    | nil => simp
    | cons z zs =>
      have hz : ¬ z.cls ≤ r.cls := by
        have := List.head?_dropWhile_not (fun x => decide (x.cls ≤ r.cls)) q
        simpa [hq] using this
      rw [hq] at hd
      intro y hy
      rcases List.mem_cons.1 hy with rfl | hy
      · exact (not_le.1 hz).le
      · exact (not_le.1 hz).le.trans ((List.pairwise_cons.1 hd).1 y hy)
  unfold placeRecord
  rw [← List.takeWhile_append_dropWhile (p := fun x => decide (x.cls ≤ r.cls)) (l := q)] at h
  obtain ⟨h1, h2, h3⟩ := List.pairwise_append.1 h
  refine List.pairwise_append.2 ⟨h1, List.pairwise_cons.2 ⟨drop, h2⟩, fun a ha b hb => ?_⟩
  rcases List.mem_cons.1 hb with rfl | hb
  · exact key a ha
  · exact h3 a ha b hb

theorem lowestFree_free {s : State} {h : Handle} (hs : s.lowestFree = some h) : ∀ r ∈ s.queue, r.handle ≠ h := by
  simpa using List.find?_some hs

/-- R10, R11: a new record under a free handle, of a key that no record outside a call has. -/
theorem localKept_place {s : State} {k : Key} (c : ClassId) {h : Handle} (hf : ∀ r ∈ s.queue, r.handle ≠ h)
    (hk : k.inRange = true) (hopen : ∀ r ∈ s.queue, r.state.isInCall = false → r.key ≠ k) :
    LocalKept s { s with queue := placeRecord (newRecord h k c) s.queue } := by
  have hp := placeRecord_perm (newRecord h k c) s.queue
  refine .of_queue (fun ⟨hn, hc, hu⟩ => (queueSound_iff _).2 ⟨?_, placeRecord_sorted hc, ?_⟩) fun hr r hm => ?_
  · refine (hp.map _).nodup_iff.2 (List.nodup_cons.2 ⟨fun hm => ?_, hn⟩)
    obtain ⟨r, hr, he⟩ := List.mem_map.1 hm
    exact hf r hr he
  · refine ((hp.filter _).map _).nodup_iff.2 (List.nodup_cons.2 ⟨fun hm => ?_, hu⟩)
    obtain ⟨r, hr, he⟩ := List.mem_map.1 hm
    exact hopen r (List.mem_of_mem_filter hr) (by simpa using (List.mem_filter.1 hr).2) he
  · rcases List.mem_cons.1 (hp.mem_iff.1 hm) with rfl | hm
    · exact ⟨Nat.zero_le _, Nat.zero_le _, Nat.zero_le _, hk⟩
    · exact hr r hm

theorem localKept_admit {s s' : State} {k : Key} {c : ClassId} {h : Handle} (hs : s.admitAlert k c = some (s', h))
    (hk : k.inRange = true) (hopen : ∀ r ∈ s.queue, r.state.isInCall = false → r.key ≠ k) : LocalKept s s' := by
  obtain ⟨hf, rfl⟩ := admit_eq hs
  exact (localKept_place c (lowestFree_free hf) hk hopen).trans (localKept_reportWaiting _ h)

/-- What an arrival that coalesces with nothing finds: no record of its key outside a call. -/
theorem no_open_record {q : List Record} {k : Key} (h1 : q.find? (fun r => r.key == k && r.state.coalesces) = none)
    (h2 : q.find? (fun r => r.key == k && r.state == .stranded) = none) : ∀ r ∈ q, r.state.isInCall = false → r.key ≠ k := by
  intro r hr hc hk
  have a := List.find?_eq_none.1 h1 r hr
  have b := List.find?_eq_none.1 h2 r hr
  cases hs : r.state <;> simp_all [RecordState.coalesces, RecordState.isInCall]

theorem recordMap_rearm : RecordMap Record.rearm := ⟨fun _ => rfl, fun _ => rfl, fun _ => rfl⟩

theorem Record.InRange.rearm {r : Record} (h : r.InRange) : r.rearm.InRange :=
  ⟨Nat.zero_le _, Nat.min_le_right _ _, h.2.2.1, h.2.2.2⟩

/-- A change of the record found by a handle has QueueSound's word that this record alone is changed. -/
theorem localKept_updateFound (s : State) {r : Record} (hm : r ∈ s.queue) {f : Record → Record} (hf : RecordMap f)
    (hs : r.state.isInCall = true → (f r).state.isInCall = true) (hr : ∀ r : Record, r.InRange → (f r).InRange) :
    LocalKept s (s.updateRecord r.handle f) := by
  refine .of_queue (fun hq => ?_) (recordsInRange_map rfl fun x hx => by split <;> simp_all)
  refine queueSound_map (hf.ite _) (List.Sublist.refl _) (fun x hx hc => ?_) hq
  split
  · next hh =>
    obtain rfl := hq.eq_of_handle hx hm (by simpa using hh)
    exact hs hc
  · exact hc

theorem localKept_offer (s : State) (k : Key) (c : ClassId) : LocalKept s (s.offer k c).1 := by
  unfold State.offer
  split
  · exact .refl s
  next hk =>
  have hk : k.inRange = true := by simpa using hk
  split
  · next r hr =>
    exact localKept_updateFound s (List.mem_of_find?_eq_some hr) (f := fun r => { r with repeats := min (r.repeats + 1) 15 })
      ⟨fun _ => rfl, fun _ => rfl, fun _ => rfl⟩ id fun x hx => ⟨hx.1, Nat.min_le_right _ _, hx.2.2⟩
  next hno =>
  split
  · next r hr =>
    have hst : r.state = .stranded := by
      have := List.find?_some hr
      simp only [Bool.and_eq_true, beq_iff_eq] at this
      exact this.2
    exact (localKept_updateFound s (List.mem_of_find?_eq_some hr) recordMap_rearm (by simp [hst, RecordState.isInCall])
      fun _ h => h.rearm).trans (localKept_reportWaiting _ _)
  next hno' =>
  have hopen := no_open_record hno hno'
  split
  · exact localKept_removeRecord s _
  split
  · split
    · next hs => exact localKept_admit hs hk hopen
    · exact .refl s
  split
  · next v hv =>
    split
    · split
      · next hs =>
        refine (localKept_removeRecord s v.handle).trans ((localKept_raise _ _).trans (localKept_admit hs hk fun r hr => ?_))
        exact hopen r (List.mem_of_mem_filter hr)
      · exact .refl s
    · exact .refl s
  · exact .refl s

theorem localKept_internalAlert (s : State) (k : Key) (c : ClassId) : LocalKept s (s.internalAlert k c) := localKept_offer s k c

/-- R15: a record has left its call, and no other record of its key stands outside one. -/
theorem queueSound_alone {s m : State} {h : Handle} {f : Record → Record} (hf : RecordMap f)
    (hm : m.queue = s.queue.map fun r => if r.handle == h then f r else r) (hs : QueueSound s)
    (halone : ∀ r ∈ m.queue, r.handle = h → m.mergeTarget r = none) : QueueSound m := by
  have hf' := hf.ite fun r => (r.handle == h) = true
  have others : ∀ x ∈ m.queue, x.handle ≠ h → x ∈ s.queue := fun x hx hne => by
    rw [hm] at hx
    obtain ⟨y, hy, rfl⟩ := List.mem_map.1 hx
    rw [hf'.handle] at hne
    simpa [hne] using hy
  refine queueSound_of_sublist hf' (hm ▸ .refl _) hs fun a ha b hb hac hbc hk => ?_
  have alone : ∀ r ∈ m.queue, r.handle = h → ∀ x ∈ m.queue, x.state.isInCall = false → x.key = r.key → x.handle = h :=
    fun r hr hrh x hx hc hk => by
      have := List.find?_eq_none.1 (halone r hr hrh) x hx
      simpa [hrh, hk, hc] using this
  by_cases hah : a.handle = h
  · rw [hah, alone a ha hah b hb hbc hk.symm]
  by_cases hbh : b.handle = h
  · exact absurd (alone b hb hbh a ha hac hk) hah
  · exact (openKeys_nodup_iff hs.1).1 hs.2.2 a (others a ha hah) b (others b hb hbh) hac hbc hk

/-- R15, R16: what `settleReturn` makes of a queue in which one record has just left its call. -/
theorem settleReturn_queueSound {s m : State} {h : Handle} {f : Record → Record} (hf : RecordMap f)
    (hm : m.queue = s.queue.map fun r => if r.handle == h then f r else r) (hs : QueueSound s) : QueueSound (m.settleReturn h) := by
  have hf' := hf.ite fun r => (r.handle == h) = true
  have others : ∀ x ∈ m.queue, x.handle ≠ h → x ∈ s.queue := fun x hx hne => by
    rw [hm] at hx
    obtain ⟨y, hy, rfl⟩ := List.mem_map.1 hx
    rw [hf'.handle] at hne
    simpa [hne] using hy
  have unique := (openKeys_nodup_iff hs.1).1 hs.2.2
  unfold State.settleReturn
  split
  · next hnone =>
    refine queueSound_of_sublist hf' (hm ▸ .refl _) hs fun a ha b hb hac hbc hk => ?_
    have hne : ∀ x ∈ m.queue, x.handle ≠ h := fun x hx => by simpa using List.find?_eq_none.1 hnone x hx
    exact unique a (others a ha (hne a ha)) b (others b hb (hne b hb)) hac hbc hk
  · next r hr =>
    have hrh := handle_of_findRecord hr
    split
    · next v hv =>
      have hg : RecordMap fun x => if (x.handle == v.handle) = true then
          { x with repeats := min (x.repeats + 1 + r.repeats) 15, isProtected := true } else x :=
        RecordMap.ite (f := fun x => { x with repeats := min (x.repeats + 1 + r.repeats) 15, isProtected := true })
          ⟨fun _ => rfl, fun _ => rfl, fun _ => rfl⟩ _
      have back : ∀ a ∈ (m.queue.map fun x => if (x.handle == v.handle) = true then
          { x with repeats := min (x.repeats + 1 + r.repeats) 15, isProtected := true } else x).filter fun x => x.handle != h,
            a.state.isInCall = false →
          ∃ x ∈ s.queue, x.state.isInCall = false ∧ x.key = a.key ∧ x.handle = a.handle := fun a ha hac => by
        obtain ⟨ha, hne⟩ := List.mem_filter.1 ha
        obtain ⟨x, hx, rfl⟩ := List.mem_map.1 ha
        rw [hg.handle] at hne
        refine ⟨x, others x hx (by simpa using hne), ?_, (hg.key x).symm, (hg.handle x).symm⟩
        split at hac <;> exact hac
      refine queueSound_of_sublist (hg.comp hf') ?_ hs fun a ha b hb hac hbc hk => ?_
      · rw [← List.map_map, ← hm]
        exact List.filter_sublist
      · obtain ⟨x, hx, hxc, hxk, hxh⟩ := back a ha hac
        obtain ⟨y, hy, hyc, hyk, hyh⟩ := back b hb hbc
        rw [← hxh, ← hyh]
        exact unique x hx y hy hxc hyc (hxk.trans (hk.trans hyk.symm))
    · next hnone =>
      have hms : QueueSound m := queueSound_alone hf hm hs fun x hx hxh => by
        have : x = r := List.inj_on_of_nodup_map (by rw [hm, hf'.map_handle]; exact hs.1) hx (findRecord_mem hr)
          (hxh.trans hrh.symm)
        rw [this, hnone]
      split
      · exact (localKept_reportWaiting m h).queue hms
      · exact hms

theorem settleReturn_recordsInRange (m : State) (h : Handle) (hr : RecordsInRange m) : RecordsInRange (m.settleReturn h) := by
  unfold State.settleReturn
  split
  · exact hr
  split
  · refine recordsInRange_filter rfl (recordsInRange_map (t := m.updateRecord _ _) rfl (fun x hx => ?_) hr)
    split
    · exact ⟨hx.1, Nat.min_le_right _ _, hx.2.2⟩
    · exact hx
  split
  · exact (localKept_reportWaiting m h).records hr
  · exact hr

theorem OnlyJoined.kept {x y : Engine} (h : OnlyJoined x y) : EngineKept x y := by
  obtain ⟨hs, rfl⟩ := h
  exact engineKept_modCall x fun _ => rfl

/-- R15, R16: a record leaves its call changed, and is settled. -/
theorem localKept_return {s m : State} {h : Handle} {f : Record → Record} (hf : RecordMap f)
    (hm : QueueSound s → m.queue = s.queue.map fun r => if r.handle == h then f r else r)
    (hr : RecordsInRange s → RecordsInRange m)
    (he : m.engines = s.engines) (hv : EventsSound s → EventsSound m) (ht : m.tables = s.tables) (hw : m.hwi = s.hwi)
    (hc : m.ccp = s.ccp) : LocalKept s (m.settleReturn h) := by
  have hj : ∀ e, EngineKept (s.engine e) ((m.settleReturn h).engine e) := fun e => by
    rw [← engine_of_engines he]
    exact (settleReturn_joined m h e).kept
  exact {
    queue := fun k => settleReturn_queueSound hf (hm k) k
    records := fun k => settleReturn_recordsInRange m h (hr k)
    events := fun k => eventsSound_congr (settleReturn_evr m h) (hv k)
    ranges := tablesInRange_congr ((settleReturn_tables m h).trans ht)
    slots := slotsDistinct_congr ((settleReturn_tables m h).trans ht)
    debounce := debounceSound_congr (by rw [settleReturn_hwi, hw])
    channel := channelSound_congr ((settleReturn_ccp m h).trans hc)
    detectors := fun e => (hj e).sound
    idle := fun e => (hj e).idle
    routes := routesDistinct_of_kept fun e => (hj e).route }

theorem localKept_uncountedReturn (s : State) (h : Handle) : LocalKept s (s.uncountedReturn h) := by
  unfold State.uncountedReturn
  split
  · split
    · exact localKept_return (f := fun r => { r with state := .waiting }) ⟨fun _ => rfl, fun _ => rfl, fun _ => rfl⟩
        (fun _ => rfl) (recordsInRange_map rfl fun r hi => by split <;> exact hi) rfl id rfl rfl rfl
    · exact .refl s
  · exact .refl s

theorem localKept_raiseAll (ds : List Detail) (s : State) : LocalKept s (ds.foldl State.raise s) :=
  foldl_localKept localKept_raise ds s

/-- R17 to R19: a counted failure keeps what a record is known by, and its failures within 15. -/
theorem Record.fail_keeps (r : Record) (ce : ClassEntry) (n : Nat) (route : RouteId) :
    (r.fail ce n route).1.handle = r.handle ∧ (r.fail ce n route).1.key = r.key ∧ (r.fail ce n route).1.cls = r.cls ∧
      (r.fail ce n route).1.failures ≤ 15 ∧ (r.fail ce n route).1.repeats = r.repeats ∧ (r.fail ce n route).1.age = r.age := by
  unfold Record.fail
  dsimp only
  repeat' split
  all_goals exact ⟨rfl, rfl, rfl, Nat.min_le_right _ _, rfl, rfl⟩

/-- One record replaced by another of its handle, key and class. -/
theorem recordMap_replace {r y : Record} (hh : y.handle = r.handle) (hk : y.key = r.key) (hc : y.cls = r.cls) :
    RecordMap fun x => if x = r then y else x where
  handle x := by split <;> simp_all
  key x := by split <;> simp_all
  cls x := by split <;> simp_all

theorem QueueSound.replace_queue {s : State} (hs : QueueSound s) {h : Handle} {r : Record} (hr : s.findRecord h = some r)
    (y : Record) : (s.updateRecord h fun _ => y).queue =
      s.queue.map fun x => if x.handle == h then (if x = r then y else x) else x := by
  refine List.map_congr_left fun x hx => ?_
  split
  · next hh =>
    rw [if_pos (hs.eq_of_handle hx (findRecord_mem hr) ((by simpa using hh : x.handle = h).trans (handle_of_findRecord hr).symm))]
  · rfl

theorem localKept_farEndFailure (s : State) (h : Handle) (route : RouteId) : LocalKept s (s.farEndFailure h route) := by
  unfold State.farEndFailure
  split
  · next r hr =>
    split
    · obtain ⟨hh, hk, hc, hf, hn, ha⟩ := r.fail_keeps (s.classOr r.cls) (s.routeOr route).fallbackAfter route
      refine localKept_return (recordMap_replace hh hk hc) (fun hs => ?_) (fun hi => ?_) ?_ (fun hv => ?_) ?_ ?_ ?_
      · rw [raiseAll_queue, hs.replace_queue hr]
      · refine recordsInRange_congr (raiseAll_queue _ _) fun x hx => ?_
        obtain ⟨y, hy, rfl⟩ := List.mem_map.1 hx
        obtain ⟨-, h2, h3, h4⟩ := hi r (findRecord_mem hr)
        split
        · exact ⟨hf, hn ▸ h2, ha ▸ h3, hk ▸ h4⟩
        · exact hi y hy
      · rw [raiseAll_engines, updateRecord_engines]
      · exact (localKept_raiseAll _ _).events (eventsSound_congr (updateRecord_evr s _ _) hv)
      · rw [raiseAll_tables, updateRecord_tables]
      · rw [raiseAll_hwi, updateRecord_hwi]
      · rw [raiseAll_ccp, updateRecord_ccp]
    · exact .refl s
  · exact .refl s

theorem localKept_deliverRecord (s : State) (h : Handle) (route : RouteId) : LocalKept s (s.deliverRecord h route) := by
  unfold State.deliverRecord
  split
  · split
    · exact (localKept_removeRecord s h).trans (localKept_raise _ _)
    · exact .refl s
  · exact .refl s

/-! ### Releases, adjustments and seconds -/

theorem localKept_releaseStranded (s : State) : LocalKept s s.releaseStranded := by
  unfold State.releaseStranded
  refine (localKept_map s (f := fun r => if r.state == .stranded then r.release else r)
    (RecordMap.ite (f := Record.release) ⟨fun _ => rfl, fun _ => rfl, fun _ => rfl⟩ _) (fun r _ hc => ?_) fun r hi => ?_).trans
      (foldl_localKept localKept_reportWaiting _ _)
  · cases hs : r.state <;> simp_all [RecordState.isInCall]
  · split
    · exact ⟨Nat.zero_le _, hi.2⟩
    · exact hi

theorem localKept_releaseHeld (s : State) : LocalKept s s.releaseHeld := by
  unfold State.releaseHeld
  refine (localKept_map s (f := fun r => if r.state.isHeld then { r with state := .waiting } else r)
    (RecordMap.ite (f := fun r => { r with state := .waiting }) ⟨fun _ => rfl, fun _ => rfl, fun _ => rfl⟩ _)
      (fun r _ hc => ?_) fun r hi => ?_).trans (foldl_localKept localKept_reportWaiting _ _)
  · cases hs : r.state <;> simp_all [RecordState.isInCall, RecordState.isHeld]
  · split <;> exact hi

/-- R24: what an applied class entry changes of a record. -/
theorem Record.adjust_keeps (ce : ClassEntry) (r : Record) : (r.adjust ce).handle = r.handle ∧ (r.adjust ce).key = r.key ∧
    (r.adjust ce).cls = r.cls ∧ (r.adjust ce).state = r.state ∧ (r.adjust ce).failures = r.failures ∧
    (r.adjust ce).repeats = r.repeats ∧ (r.adjust ce).age = r.age := by
  unfold Record.adjust
  dsimp only
  split <;> split <;> exact ⟨rfl, rfl, rfl, rfl, rfl, rfl, rfl⟩

theorem localKept_adjustClass (s : State) (c : ClassId) (ce : ClassEntry) : LocalKept s (s.adjustClass c ce) := by
  refine localKept_map s (f := fun r => if r.cls == c then r.adjust ce else r)
    (RecordMap.ite ⟨fun r => (r.adjust_keeps ce).1, fun r => (r.adjust_keeps ce).2.1, fun r => (r.adjust_keeps ce).2.2.1⟩ _)
    (fun r _ hc => ?_) fun r hi => ?_
  · obtain ⟨-, -, -, hs, -⟩ := r.adjust_keeps ce
    split <;> simp_all
  · obtain ⟨-, hk, -, -, hf, hn, ha⟩ := r.adjust_keeps ce
    unfold Record.InRange at *
    split <;> simp_all

theorem localKept_secondPasses (s : State) : LocalKept s s.secondPasses := by
  refine localKept_map s ⟨Record.second_handle, Record.second_key, Record.second_cls⟩ (fun r _ hc => by simpa using hc)
    fun r hi => ?_
  obtain ⟨hf, hn, ha, hk⟩ := hi
  refine ⟨by simpa using hf, by simpa using hn, ?_, by simpa using hk⟩
  rw [Record.second_age]
  split <;> omega

theorem localKept_backoffEnd (h : Handle) (s : State) : LocalKept s (s.backoffEnd h) := by
  unfold State.backoffEnd
  split
  · next r hr =>
    split
    · next hb =>
      rw [← handle_of_findRecord hr]
      refine (localKept_updateFound s (findRecord_mem hr) (f := fun r => { r with state := .waiting })
        ⟨fun _ => rfl, fun _ => rfl, fun _ => rfl⟩ (fun hc => ?_) fun _ hi => hi).trans (localKept_reportWaiting _ _)
      cases hs : r.state <;> simp_all [RecordState.isInCall, RecordState.backoffOver]
    · exact .refl s
  · exact .refl s

theorem Record.moveTo_keeps (r : Record) (p : Nat) : (r.moveTo p).handle = r.handle ∧ (r.moveTo p).key = r.key ∧
    (r.moveTo p).cls = r.cls ∧ (r.moveTo p).state = r.state ∧ (r.InRange → (r.moveTo p).InRange) := by
  unfold Record.moveTo
  split <;> exact ⟨rfl, rfl, rfl, rfl, id⟩

theorem localKept_placeOnRoute {s s' : State} {h : Handle} {r : Record} {route : RouteId}
    (hs : s.placeOnRoute h = some (s', r, route)) : LocalKept s s' := by
  obtain ⟨r0, p, -, -, -, -, rfl⟩ := placeOnRoute_eq hs
  exact localKept_updateRecord s h ⟨fun r => (r.moveTo_keeps p).1, fun r => (r.moveTo_keeps p).2.1, fun r => (r.moveTo_keeps p).2.2.1⟩
    (fun r _ _ hc => by rw [(r.moveTo_keeps p).2.2.2.1]; exact hc) fun r => (r.moveTo_keeps p).2.2.2.2

end Sys2Proof.Machine

namespace Sys2Proof.Machine

/-! ### Table entries in range (R136 to R142) -/

theorem within_iff (lo hi x : Nat) : within lo hi x = true ↔ lo ≤ x ∧ x ≤ hi := by simp [within]

theorem within_rangeField (word x : Nat) {lo hi : Nat} (h : lo ≤ hi) : within lo hi (rangeField word lo hi x).value = true := by
  simp only [within_iff, rangeField, clampTo]; omega

theorem within_defaultField (word x : Nat) {lo hi dflt : Nat} (h : lo ≤ dflt) (h' : dflt ≤ hi) :
    within lo hi (defaultField word lo hi dflt x).value = true := by
  unfold defaultField
  split
  · simp [within_iff, h, h']
  · exact within_rangeField word x (h.trans h')

theorem bitsOf_lt (w : Word) (hi lo : Nat) : bitsOf w hi lo < 2 ^ (hi + 1 - lo) := Nat.mod_lt _ (Nat.two_pow_pos _)

theorem field16_le (c : InCell) (k : Nat) : within 0 65535 (c.field16 k) = true := by
  have h1 := bitsOf_lt (c.word k) 7 0
  have h2 := bitsOf_lt (c.word (k + 1)) 7 0
  simp only [within_iff, InCell.field16]; omega

/-- What a write brings into the tables is within the ranges of its fields. -/
def Write.InRange : Write → Prop
  | .site e => e.inRange = true
  | .cls _ e => e.inRange = true
  | .route _ e => e.inRange = true
  | .trunk _ e => e.inRange = true
  | .tone _ e => e.inRange = true
  | .cadence _ e => e.inRange = true

theorem parseSite_inRange {c : InCell} {p : ParsedWrite} (h : c.parseSite = .ok p) : p.write.InRange := by
  unfold InCell.parseSite at h
  simp only [] at h
  split at h
  · cases h
  next hn =>
  split at h
  · obtain rfl := Except.ok.inj h
    have hs : (silenceTimeField 22 (c.field 22)).value = 0 ∨ within 10 600 (silenceTimeField 22 (c.field 22)).value = true := by
      unfold silenceTimeField
      split
      · exact .inl rfl
      · exact .inr (within_rangeField _ _ (by omega))
    simp only [Bool.or_eq_true, decide_eq_true_eq, not_or, not_lt] at hn
    have hacc : within 4 8 (c.field 2) = true := (within_iff _ _ _).2 hn
    simp only [Write.InRange, SiteRecord.inRange, List.length_map, List.length_range, Bool.and_eq_true, Bool.or_eq_true,
      beq_iff_eq, field16_le, hacc, hs]
    simp [within_rangeField, within_defaultField]
  · cases h

theorem allSome_length {α : Type} {l : List (Option α)} {r : List α} (h : allSome l = some r) : r.length = l.length := by
  induction l generalizing r with
  | nil => cases h; rfl
  | cons x xs ih =>
    cases x with
    | none => cases h
    | some x =>
      obtain ⟨ys, hy, rfl⟩ : ∃ ys, allSome xs = some ys ∧ x :: ys = r := by simpa [allSome] using h
      simp [ih hy]

theorem parseClass_inRange {c : InCell} {id : ClassId} {p : ParsedWrite} (h : c.parseClass id = .ok p) : p.write.InRange := by
  unfold InCell.parseClass at h
  split at h
  · cases h
  simp only [] at h
  split at h
  · cases h
  next hn =>
  split at h
  · cases h
  next routes hr =>
  obtain rfl := Except.ok.inj h
  have hlen := allSome_length hr
  have h4 := (within_iff _ _ _).1 (within_rangeField 2 (c.field 2) (Nat.zero_le 4))
  have hw : within 1 4 routes.length = true := (within_iff _ _ _).2 (by simp at hlen; omega)
  simp [Write.InRange, ClassEntry.inRange, hw, within_rangeField]

theorem parseRoute_inRange {c : InCell} {id : RouteId} {p : ParsedWrite} (h : c.parseRoute id = .ok p) : p.write.InRange := by
  unfold InCell.parseRoute at h
  split at h
  · simp only [] at h
    split at h
    · cases h
    next hn =>
    split at h
    · cases h
    next dial hd =>
    split at h
    · obtain rfl := Except.ok.inj h
      have hlen := allSome_length hd
      have hw : within 1 24 dial.length = true := (within_iff _ _ _).2 (by simp at hlen hn; omega)
      simp [Write.InRange, RouteEntry.inRange, hw, within_rangeField, within_defaultField]
    · cases h
  · cases h

theorem parseTrunk_inRange {c : InCell} {x : Tables} {id : TrunkId} {p : ParsedWrite} (h : c.parseTrunk x id = .ok p) :
    p.write.InRange := by
  unfold InCell.parseTrunk at h
  split at h
  · cases h
  simp only [] at h
  split at h
  · cases h
  · obtain rfl := Except.ok.inj h
    simp [Write.InRange, TrunkEntry.inRange, within_rangeField]

theorem coefficient_inRange (c : InCell) (k : Nat) : -32768 ≤ c.coefficient k ∧ c.coefficient k ≤ 32767 := by
  unfold InCell.coefficient
  have h1 := BitVec.le_toInt (BitVec.ofNat 16 (c.field16 k))
  have h2 := BitVec.toInt_lt (x := BitVec.ofNat 16 (c.field16 k))
  omega

theorem parseTone_inRange {c : InCell} {id : ToneId} {p : ParsedWrite} (h : c.parseTone id = .ok p) : p.write.InRange := by
  unfold InCell.parseTone at h
  split at h
  · cases h
  · obtain rfl := Except.ok.inj h
    simp [Write.InRange, ToneEntry.inRange, Component.inRange, within_rangeField, field16_le, coefficient_inRange]

theorem within_raiseTo {lo hi : Nat} {x : NumField} (h : lo ≤ hi) (hx : x.value ≤ hi) : within lo hi (raiseTo lo x).value = true := by
  unfold raiseTo
  split <;> simp only [within_iff] <;> omega

theorem parseCadence_inRange {c : InCell} {id : CadenceId} {p : ParsedWrite} (h : c.parseCadence id = .ok p) :
    p.write.InRange := by
  unfold InCell.parseCadence at h
  obtain rfl := Except.ok.inj h
  have on := (within_iff _ _ _).1 (within_rangeField 2 (c.field 2) (lo := 1) (hi := 255) (by omega))
  have on' := (within_iff _ _ _).1 (within_rangeField 3 (c.field 3) (lo := 1) (hi := 255) (by omega))
  have off := (within_iff _ _ _).1 (within_rangeField 4 (c.field 4) (lo := 1) (hi := 255) (by omega))
  have off' := (within_iff _ _ _).1 (within_rangeField 5 (c.field 5) (lo := 0) (hi := 255) (by omega))
  have hoff : (if (rangeField 5 0 255 (c.field 5)).value = 0 then rangeField 5 0 255 (c.field 5)
      else raiseTo (rangeField 4 1 255 (c.field 4)).value (rangeField 5 0 255 (c.field 5))).value = 0 ∨
      within (rangeField 4 1 255 (c.field 4)).value 255 (if (rangeField 5 0 255 (c.field 5)).value = 0 then
        rangeField 5 0 255 (c.field 5)
      else raiseTo (rangeField 4 1 255 (c.field 4)).value (rangeField 5 0 255 (c.field 5))).value = true := by
    split
    · next h0 => exact .inl h0
    · exact .inr (within_raiseTo off.2 off'.2)
  simp only [Write.InRange, CadenceEntry.inRange, Bool.and_eq_true, Bool.or_eq_true, beq_iff_eq]
  exact ⟨⟨⟨⟨within_rangeField _ _ (by omega), within_raiseTo on.2 on'.2⟩, within_rangeField _ _ (by omega)⟩, hoff⟩,
    within_rangeField _ _ (by omega)⟩

/-- R138: a trunk write names a slot that no other trunk's entry names. -/
def Write.SlotFree (x : Tables) : Write → Prop
  | .trunk t e => e.role ≠ .unused → x.slotHeld t e.slot = false
  | _ => True

theorem parseWrite_sound {c : InCell} {x : Tables} {p : ParsedWrite} (h : c.parseWrite x = .ok p) :
    p.write.InRange ∧ p.write.SlotFree x := by
  unfold InCell.parseWrite at h
  split at h
  · cases h
  · refine ⟨parseSite_inRange h, ?_⟩
    unfold InCell.parseSite at h
    simp only [] at h
    split at h
    · cases h
    split at h
    · obtain rfl := Except.ok.inj h; trivial
    · cases h
  · refine ⟨parseClass_inRange h, ?_⟩
    unfold InCell.parseClass at h
    split at h
    · cases h
    simp only [] at h
    split at h
    · cases h
    split at h
    · cases h
    · obtain rfl := Except.ok.inj h; trivial
  · refine ⟨parseRoute_inRange h, ?_⟩
    unfold InCell.parseRoute at h
    split at h
    · simp only [] at h
      split at h
      · cases h
      split at h
      · cases h
      split at h
      · obtain rfl := Except.ok.inj h; trivial
      · cases h
    · cases h
  · refine ⟨parseTrunk_inRange h, ?_⟩
    unfold InCell.parseTrunk at h
    split at h
    · cases h
    simp only [] at h
    split at h
    · cases h
    next hd =>
    obtain rfl := Except.ok.inj h
    intro hr
    simpa [show _ ≠ TrunkRole.unused from hr] using hd
  · refine ⟨parseTone_inRange h, ?_⟩
    unfold InCell.parseTone at h
    split at h
    · cases h
    · obtain rfl := Except.ok.inj h; trivial
  · exact ⟨parseCadence_inRange h, by obtain rfl := Except.ok.inj h; trivial⟩

/-! ### The tables as writes are staged and applied -/

/-- The range that both places of a staged entry keep. -/
def Staged.InRange {α : Type} (p : α → Bool) (x : Staged α) : Prop := ifPresent p x.applied = true ∧ ifPresent p x.staged = true

/-- `TablesInRange` of the tables alone. -/
def Tables.InRange (x : Tables) : Prop :=
  ifPresent SiteRecord.inRange x.site = true ∧ (∀ c, ifPresent ClassEntry.inRange (vget x.classes c) = true) ∧
  (∀ r, (vget x.routes r).InRange RouteEntry.inRange) ∧ (∀ t, (vget x.trunks t).InRange TrunkEntry.inRange) ∧
  (∀ t, (vget x.tones t).InRange ToneEntry.inRange) ∧ ∀ c, (vget x.cadences c).InRange CadenceEntry.inRange

theorem tablesInRange_iff (s : State) : TablesInRange s ↔ s.tables.InRange := Iff.rfl

theorem forall_vget_vput {α : Type} {n : Nat} {P : α → Prop} {v : Vector α n} (i : Fin n) {x : α} (h : ∀ j, P (vget v j))
    (hx : P x) (j : Fin n) : P (vget (vput v i x) j) := by
  rw [vget_vput]
  split
  · exact hx
  · exact h j

theorem Tables.InRange.apply {x : Tables} (h : x.InRange) {w : Write} (hw : w.InRange) : (x.apply w).InRange := by
  obtain ⟨h1, h2, h3, h4, h5, h6⟩ := h
  cases w with
  | site e => exact ⟨hw, h2, h3, h4, h5, h6⟩
  | cls c e => exact ⟨h1, forall_vget_vput (P := fun y => ifPresent ClassEntry.inRange y = true) c h2 hw, h3, h4, h5, h6⟩
  | route r e => exact ⟨h1, h2, forall_vget_vput (P := Staged.InRange RouteEntry.inRange) r h3 ⟨hw, rfl⟩, h4, h5, h6⟩
  | trunk t e => exact ⟨h1, h2, h3, forall_vget_vput (P := Staged.InRange TrunkEntry.inRange) t h4 ⟨hw, rfl⟩, h5, h6⟩
  | tone t e => exact ⟨h1, h2, h3, h4, forall_vget_vput (P := Staged.InRange ToneEntry.inRange) t h5 ⟨hw, rfl⟩, h6⟩
  | cadence c e => exact ⟨h1, h2, h3, h4, h5, forall_vget_vput (P := Staged.InRange CadenceEntry.inRange) c h6 ⟨hw, rfl⟩⟩

theorem Tables.InRange.stage {x : Tables} (h : x.InRange) {w : Write} (hw : w.InRange) : (x.stage w).InRange := by
  have hxs := h
  obtain ⟨h1, h2, h3, h4, h5, h6⟩ := h
  cases w with
  | site e => exact hxs.apply (w := .site e) hw
  | cls c e => exact hxs.apply (w := .cls c e) hw
  | route r e => exact ⟨h1, h2, forall_vget_vput (P := Staged.InRange RouteEntry.inRange) r h3 ⟨(h3 r).1, hw⟩, h4, h5, h6⟩
  | trunk t e => exact ⟨h1, h2, h3, forall_vget_vput (P := Staged.InRange TrunkEntry.inRange) t h4 ⟨(h4 t).1, hw⟩, h5, h6⟩
  | tone t e => exact ⟨h1, h2, h3, h4, forall_vget_vput (P := Staged.InRange ToneEntry.inRange) t h5 ⟨(h5 t).1, hw⟩, h6⟩
  | cadence c e =>
    exact ⟨h1, h2, h3, h4, h5, forall_vget_vput (P := Staged.InRange CadenceEntry.inRange) c h6 ⟨(h6 c).1, hw⟩⟩

theorem ifPresent_map_staged {α : Type} {p : α → Bool} {x : Option α} {a : α} (h : ifPresent p x = true) (hx : x = some a) :
    p a = true := by subst hx; exact h

theorem Tables.InRange.stagedWrite {x : Tables} (h : x.InRange) {ref : TableRef} {w : Write} (hw : x.stagedWrite ref = some w) :
    w.InRange := by
  obtain ⟨-, -, h3, h4, h5, h6⟩ := h
  cases ref with
  | site => cases hw
  | cls c => cases hw
  | route r => obtain ⟨e, he, rfl⟩ := Option.map_eq_some_iff.1 hw; exact ifPresent_map_staged (h3 r).2 he
  | trunk t => obtain ⟨e, he, rfl⟩ := Option.map_eq_some_iff.1 hw; exact ifPresent_map_staged (h4 t).2 he
  | tone t => obtain ⟨e, he, rfl⟩ := Option.map_eq_some_iff.1 hw; exact ifPresent_map_staged (h5 t).2 he
  | cadence c => obtain ⟨e, he, rfl⟩ := Option.map_eq_some_iff.1 hw; exact ifPresent_map_staged (h6 c).2 he

/-- The applied or the staged entry of a trunk is this one, and it names a slot. -/
def Tables.Names (x : Tables) (t : TrunkId) (e : TrunkEntry) : Prop :=
  ((vget x.trunks t).applied = some e ∨ (vget x.trunks t).staged = some e) ∧ e.role ≠ .unused

theorem slotsDistinct_iff (s : State) : SlotsDistinct s ↔
    ∀ t u, t ≠ u → ∀ x y, s.tables.Names t x → s.tables.Names u y → x.slot ≠ y.slot := by
  constructor
  · rintro h t u htu x y ⟨hx, hxr⟩ ⟨hy, hyr⟩
    exact h t u htu (some x) (by simpa [eq_comm] using hx) (some y) (by simpa [eq_comm] using hy) x y rfl rfl hxr hyr
  · intro h t u htu a ha b hb x y hx hy hxr hyr
    subst hx hy
    exact h t u htu x y ⟨by simpa [eq_comm] using ha, hxr⟩ ⟨by simpa [eq_comm] using hb, hyr⟩

/-- A trunk's slots renewed by entries that were there or are free of the other trunks' slots. -/
theorem slotsDistinct_of_names {s t : State} (i : TrunkId)
    (hi : ∀ x, t.tables.Names i x → s.tables.Names i x ∨ ∀ u, u ≠ i → ∀ y, s.tables.Names u y → x.slot ≠ y.slot)
    (ho : ∀ u, u ≠ i → ∀ y, t.tables.Names u y → s.tables.Names u y) (h : SlotsDistinct s) : SlotsDistinct t := by
  rw [slotsDistinct_iff] at h ⊢
  have key : ∀ u, u ≠ i → ∀ x y, t.tables.Names i x → t.tables.Names u y → x.slot ≠ y.slot := fun u hu x y hx hy => by
    rcases hi x hx with hx | hx
    · exact h i u (Ne.symm hu) x y hx (ho u hu y hy)
    · exact hx u hu y (ho u hu y hy)
  intro a b hab x y hx hy
  by_cases ha : a = i
  · subst ha; exact key b (Ne.symm hab) x y hx hy
  by_cases hb : b = i
  · subst hb; exact (key a ha y x hy hx).symm
  · exact h a b hab x y (ho a ha x hx) (ho b hb y hy)

theorem names_congr {x y : Tables} (h : x.trunks = y.trunks) (t : TrunkId) (e : TrunkEntry) : x.Names t e ↔ y.Names t e := by
  unfold Tables.Names; rw [h]

theorem slotsDistinct_of_trunks {s t : State} (h : t.tables.trunks = s.tables.trunks) (k : SlotsDistinct s) : SlotsDistinct t := by
  rw [slotsDistinct_iff] at k ⊢
  simpa only [names_congr h] using k

theorem slotHeld_false {x : Tables} {t : TrunkId} {n : Nat} (h : x.slotHeld t n = false) :
    ∀ u, u ≠ t → ∀ y, x.Names u y → n ≠ y.slot := by
  rintro u hu y ⟨hy, hr⟩ rfl
  unfold Tables.slotHeld at h
  have := List.any_eq_false.1 h u (List.mem_finRange u)
  rcases hy with hy | hy <;> simp [hu, hy, hr] at this

theorem names_vput (x : Tables) (i : TrunkId) (p : Staged TrunkEntry) (u : TrunkId) (y : TrunkEntry) :
    ({ x with trunks := vput x.trunks i p } : Tables).Names u y ↔
      if u = i then (p.applied = some y ∨ p.staged = some y) ∧ y.role ≠ .unused else x.Names u y := by
  unfold Tables.Names
  simp only [vget_vput]
  split <;> rfl

theorem SlotsDistinct.apply {s : State} (h : SlotsDistinct s) {w : Write}
    (hw : ∀ t e, w = .trunk t e → e.role ≠ .unused → s.tables.Names t e ∨ s.tables.slotHeld t e.slot = false) :
    SlotsDistinct { s with tables := s.tables.apply w } := by
  cases w with
  | trunk t e =>
    refine slotsDistinct_of_names t (fun x hx => ?_) (fun u hu y hy => ?_) h
    · rw [show ({ s with tables := s.tables.apply (.trunk t e) } : State).tables =
        { s.tables with trunks := vput s.tables.trunks t ⟨some e, none⟩ } from rfl, names_vput, if_pos rfl] at hx
      obtain ⟨hx, hr⟩ := hx
      obtain rfl : e = x := by simpa using hx
      exact (hw t e rfl hr).imp_right slotHeld_false
    · rwa [show ({ s with tables := s.tables.apply (.trunk t e) } : State).tables =
        { s.tables with trunks := vput s.tables.trunks t ⟨some e, none⟩ } from rfl, names_vput, if_neg hu] at hy
  | _ => exact slotsDistinct_of_trunks (by rfl) h

theorem SlotsDistinct.stage {s : State} (h : SlotsDistinct s) {w : Write} (hw : w.SlotFree s.tables) :
    SlotsDistinct { s with tables := s.tables.stage w } := by
  cases w with
  | trunk t e =>
    refine slotsDistinct_of_names t (fun x hx => ?_) (fun u hu y hy => ?_) h
    · rw [show ({ s with tables := s.tables.stage (.trunk t e) } : State).tables =
        { s.tables with trunks := vput s.tables.trunks t { vget s.tables.trunks t with staged := some e } } from rfl,
        names_vput, if_pos rfl] at hx
      obtain ⟨hx | hx, hr⟩ := hx
      · exact .inl ⟨.inl hx, hr⟩
      · obtain rfl : e = x := by simpa using hx
        exact .inr (slotHeld_false (hw hr))
    · rwa [show ({ s with tables := s.tables.stage (.trunk t e) } : State).tables =
        { s.tables with trunks := vput s.tables.trunks t { vget s.tables.trunks t with staged := some e } } from rfl,
        names_vput, if_neg hu] at hy
  | _ => exact slotsDistinct_of_trunks (by rfl) h

/-! ### The readers of an applied write, and the ends of uses -/

theorem localKept_cardFaultRise (s : State) (t : TrunkId) : LocalKept s (s.cardFaultRise t) := by
  unfold State.cardFaultRise
  split
  · exact (localKept_setTrunk _ _ _).trans (localKept_raise _ _)
  · exact .refl s

theorem localKept_trunkEntryApplied (s before : State) (t : TrunkId) (role : TrunkRole) :
    LocalKept s (s.trunkEntryApplied before t role) := by
  unfold State.trunkEntryApplied
  dsimp only
  refine .trans ?_ (localKept_reportGrantable _ _ _)
  split
  · exact (localKept_setTrunk s t _).trans (localKept_cardFaultRise _ _)
  · exact localKept_setTrunk s t _

theorem localKept_siteToMonitor (s : State) (e : SiteRecord) : LocalKept s (s.siteToMonitor e) := by
  unfold State.siteToMonitor
  split
  · exact .refl s
  · exact .of_quiet rfl rfl rfl rfl rfl rfl

theorem localKept_tellOwner (s before : State) (w : Write) : LocalKept s (s.tellOwner before w) := by
  cases w with
  | site e => exact localKept_siteToMonitor s e
  | cls c e => exact localKept_adjustClass s c e
  | trunk t e => exact localKept_trunkEntryApplied s before t e.role
  | _ => exact .refl s

theorem localKept_readinessCause (s before : State) : LocalKept s (s.readinessCause before) := by
  unfold State.readinessCause
  split
  · exact localKept_cause s
  · exact .refl s

theorem localKept_tellReaders (s before : State) (w : Write) : LocalKept s (s.tellReaders before w) := by
  unfold State.tellReaders
  refine .trans ?_ (localKept_readinessCause _ before)
  exact (localKept_cause s).trans ((localKept_tellOwner _ before w).trans (.of_quiet rfl rfl rfl rfl rfl rfl))

theorem localKept_apply (s : State) {w : Write} (hw : TablesInRange s → w.InRange)
    (hs : ∀ t e, w = .trunk t e → e.role ≠ .unused → s.tables.Names t e ∨ s.tables.slotHeld t e.slot = false) :
    LocalKept s { s with tables := s.tables.apply w } :=
  .of_tables (fun h => (tablesInRange_iff _).2 (((tablesInRange_iff s).1 h).apply (hw h))) fun h => SlotsDistinct.apply h hs

theorem localKept_applyWrite (s : State) {w : Write} (hw : w.InRange) (hs : w.SlotFree s.tables) :
    LocalKept s (s.applyWrite w) :=
  (localKept_apply s (fun _ => hw) fun t e he hr => .inr (by subst he; exact hs hr)).trans (localKept_tellReaders _ _ _)

theorem stagedWrite_trunk {x : Tables} {ref : TableRef} {t : TrunkId} {e : TrunkEntry}
    (h : x.stagedWrite ref = some (.trunk t e)) : (vget x.trunks t).staged = some e := by
  cases ref with
  | trunk u =>
    obtain ⟨e', he, hw⟩ := Option.map_eq_some_iff.1 h
    obtain ⟨rfl, rfl⟩ := Write.trunk.inj hw
    exact he
  | _ => simp [Tables.stagedWrite] at h

theorem localKept_endUse (s : State) (ref : TableRef) : LocalKept s (s.endUse ref) := by
  unfold State.endUse
  split
  · next w hw =>
    split
    · exact .refl s
    · refine (localKept_apply s (fun h => Tables.InRange.stagedWrite h hw) fun t e he hr => .inl ⟨.inr ?_, hr⟩).trans
        ((localKept_raise _ _).trans (localKept_tellReaders _ _ _))
      exact stagedWrite_trunk (he ▸ hw)
  · exact .refl s

theorem localKept_endUses (s : State) (refs : List TableRef) : LocalKept s (s.endUses refs) :=
  foldl_localKept localKept_endUse refs s

end Sys2Proof.Machine

namespace Sys2Proof.Machine

/-! ### Engines and detectors (R49, R76, R81, R87) -/

theorem EngineKept.of_busy {x y : Engine} (hp : y.phase ≠ .idle) (hw : x.RouteKept y)
    (hd : x.detector.Sound → y.detector.Sound) : EngineKept x y := ⟨hd, fun _ h => absurd h hp, hw⟩

theorem Engine.RouteKept.of_work {x y : Engine} (h : y.work = x.work) : x.RouteKept y := fun c hc => ⟨c, h ▸ hc, rfl⟩

theorem Detector.Sound.of_loadings {d d' : Detector} (h : d.Sound) (hb : d'.bins = d.bins)
    (hl : ∀ l ∈ d'.loadings, ∃ k ∈ d.loadings, l.classifier = k.classifier) : d'.Sound :=
  ⟨fun i => hb ▸ h.1 i, fun l hm => by
    obtain ⟨k, hk, he⟩ := hl l hm
    rw [he]
    exact h.2 k hk⟩

theorem Detector.Sound.release {d : Detector} (h : d.Sound) (p : Loading → Bool) : (d.release p).Sound :=
  h.of_loadings rfl fun l hl => by
    obtain ⟨k, hk, rfl⟩ := List.mem_map.1 hl
    exact ⟨k, hk, by split <;> rfl⟩

theorem Detector.Sound.watch {d : Detector} (h : d.Sound) (t : ToneId) {f : Loading → Loading}
    (hf : ∀ l, (f l).classifier = l.classifier) : (d.watch t f).Sound :=
  h.of_loadings rfl fun l hl => by
    obtain ⟨k, hk, rfl⟩ := List.mem_map.1 hl
    exact ⟨k, hk, by split <;> simp [hf]⟩

theorem Detector.Sound.load {d : Detector} (h : d.Sound) {new : List Loading} (hn : ∀ l ∈ new, l.classifier.length ≤ 255) :
    ({ d with loadings := d.loadings ++ new } : Detector).Sound :=
  ⟨h.1, fun l hl => (List.mem_append.1 hl).elim (h.2 l) (hn l)⟩

theorem Detector.reset_sound : Detector.reset.Sound := by
  refine ⟨fun i => ?_, fun l hl => by cases hl⟩
  simp [Detector.reset, binLimit]

theorem release_stopping {d : Detector} (h : ∀ l ∈ d.loadings, l.status = .stopping) (p : Loading → Bool) :
    d.release p = d := by
  have : d.loadings.map (fun l => if l.live && p l then { l with status := .stopping } else l) = d.loadings := by
    conv_rhs => rw [← List.map_id d.loadings]
    exact List.map_congr_left fun l hl => by simp [Loading.live, h l hl]
  rw [Detector.release, this]

theorem release_all_stopping (d : Detector) : ∀ l ∈ (d.release fun _ => true).loadings, l.status = .stopping := by
  intro l hl
  obtain ⟨k, -, rfl⟩ := List.mem_map.1 hl
  cases hk : k.status <;> simp [Loading.live, hk]

/-- What an IDLE engine holds does not change when what it holds is put away. -/
theorem Engine.IdleEmpty.of_eq {x y : Engine} (h : x.IdleEmpty) (hp : y.phase = .idle → x.phase = .idle)
    (he : x = { Engine.reset with detector := x.detector } → (∀ l ∈ x.detector.loadings, l.status = .stopping) → y = x) :
    y.IdleEmpty := fun hy => by
  obtain ⟨hx, hl⟩ := h (hp hy)
  rw [he hx hl]
  exact ⟨hx, hl⟩

/-- An engine some of whose loadings are released, their reports discarded. -/
def Engine.unloaded (x : Engine) (p : Loading → Bool) : Engine :=
  { x with
    detector := x.detector.release p
    reports := x.reports.filter fun r => !(x.detector.loadings.any fun l => l.live && p l && l.tone == r.tone) }

theorem engineKept_unloaded (x : Engine) (p : Loading → Bool) : EngineKept x (x.unloaded p) := by
  refine ⟨fun h => h.release p, fun h => h.of_eq id fun hx hl => ?_, .of_work rfl⟩
  have hr : x.reports = [] := by rw [hx]; rfl
  rw [Engine.unloaded, release_stopping hl, hr, List.filter_nil, ← hr]

/-- An update that an IDLE engine does not feel. -/
theorem EngineKept.of_idle {x y : Engine} (hw : y.work = x.work) (hd : y.detector = x.detector) (hp : y.phase = x.phase)
    (he : x = { Engine.reset with detector := x.detector } → y = x) : EngineKept x y :=
  ⟨by rw [hd]; exact id, fun h => h.of_eq (fun hy => hp ▸ hy) fun hx _ => he hx, .of_work hw⟩

theorem unload_eq (s : State) (e : EngineId) (p : Loading → Bool) : s.unload e p =
    (s.modEngine e (Engine.unloaded · p)).endUses ((s.engine e).detector.releasedRefs p) := rfl

theorem localKept_unload (s : State) (e : EngineId) (p : Loading → Bool) : LocalKept s (s.unload e p) :=
  (localKept_modEngine s e _ (engineKept_unloaded _ p)).trans (localKept_endUses _ _)

theorem localKept_stopListening (s : State) (e : EngineId) : LocalKept s (s.stopListening e) :=
  .trans (localKept_modEngine s e _ (.of_idle rfl rfl rfl fun hx => by rw [hx]; rfl)) (localKept_unload _ _ _)

theorem localKept_stopEngine (s : State) (e : EngineId) : LocalKept s (s.stopEngine e) :=
  .trans (localKept_modEngine s e _ (.of_idle rfl rfl rfl fun hx => by rw [hx]; rfl)) (localKept_stopListening _ _)

theorem localKept_releaseTrunk (s : State) (t : TrunkId) (e : EngineId) : LocalKept s (s.releaseTrunk t e) := by
  unfold State.releaseTrunk
  split
  · split
    · exact (localKept_setTrunk _ _ _).trans ((localKept_endUse _ _).trans (localKept_reportGrantable _ _ _))
    · exact localKept_setTrunk _ _ _
    · exact .refl s
  · exact .refl s

theorem localKept_idled (s : State) (e : EngineId) (h : ∀ l ∈ (s.engine e).detector.loadings, l.status = .stopping) :
    LocalKept s (s.modEngine e Engine.idled) :=
  localKept_modEngine s e _ ⟨id, fun _ _ => ⟨rfl, h⟩, fun _ hc => by cases hc⟩

theorem localKept_dsc (s : State) (d : Dsc) : LocalKept s { s with dsc := d } := .of_quiet

theorem localKept_cmu (s : State) (c : Cmu) : LocalKept s { s with cmu := c } := .of_quiet

/-- R73: an engine in CLOSING. -/
def Engine.atClosing (x : Engine) : Engine :=
  { x with phase := .closing, step := .none, seize := false, seizeStart := none, phaseTimer := none, lossTimer := none }

/-- R73: what the engine worked on gives its trunk back. -/
def State.trunkGivenBack (s : State) (e : EngineId) (w : Work) : State :=
  match w.trunk with
  | some t => s.releaseTrunk t e
  | none => s

/-- R73: everything an engine has loaded is released, and the uses that end with its work are told. -/
def State.allReleased (s : State) (e : EngineId) (refs : List TableRef) : State :=
  (s.modEngine e fun x => { x with detector := x.detector.release fun _ => true }).endUses refs

/-- R73: CLOSING, but for what the scheduler keeps of the engine's call. -/
def State.emptied (s : State) (e : EngineId) : State :=
  (((s.modEngine e Engine.atClosing).trunkGivenBack e (s.engine e).work).allReleased e (s.engine e).closingRefs).modEngine e
    Engine.idled

/-- R73: the scheduler forgets the call of an engine. -/
def State.callForgotten (s : State) (e : EngineId) : State :=
  { s with dsc := { s.dsc with
      startOrder := s.dsc.startOrder.filter fun i => i != e
      marked := if s.dsc.marked = some e then none else s.dsc.marked } }

theorem close_eq (s : State) (e : EngineId) : s.close e = ((s.emptied e).callForgotten e).cause := rfl

theorem localKept_trunkGivenBack (s : State) (e : EngineId) (w : Work) : LocalKept s (s.trunkGivenBack e w) := by
  unfold State.trunkGivenBack
  split
  · exact localKept_releaseTrunk _ _ _
  · exact .refl s

theorem localKept_allReleased (s : State) (e : EngineId) (refs : List TableRef) : LocalKept s (s.allReleased e refs) :=
  .trans (localKept_modEngine s e _ ⟨fun h => h.release _, fun h => h.of_eq id fun _ hl => by rw [release_stopping hl], .of_work rfl⟩)
    (localKept_endUses _ _)

theorem allReleased_stopping (s : State) (e : EngineId) (refs : List TableRef) :
    ∀ l ∈ ((s.allReleased e refs).engine e).detector.loadings, l.status = .stopping := by
  rw [State.allReleased, engine_of_engines (endUses_engines _ _), engine_modEngine_same]
  exact release_all_stopping _

theorem localKept_emptied (s : State) (e : EngineId) : LocalKept s (s.emptied e) :=
  .trans (localKept_modEngine s e _ (.of_busy Phase.noConfusion (.of_work rfl) id)) ((localKept_trunkGivenBack _ e _).trans
    ((localKept_allReleased _ e _).trans (localKept_idled _ e (allReleased_stopping _ e _))))

theorem localKept_close (s : State) (e : EngineId) : LocalKept s (s.close e) := by
  rw [close_eq]
  exact (localKept_emptied s e).trans ((localKept_dsc _ _).trans (localKept_cause _))

theorem localKept_applyToBlocks (s : State) (e : EngineId) {outcome : State → Handle → State}
    (ho : ∀ s h, LocalKept s (outcome s h)) : LocalKept s (s.applyToBlocks e outcome) := by
  unfold State.applyToBlocks
  split
  · exact .refl s
  · refine .trans (localKept_modEngine s e _ (.of_busy (by simp) (fun c hc => ?_) id)) (foldl_localKept ho _ _)
    obtain ⟨d, hd, rfl⟩ := by simpa [Engine.modCall, Work.mapCall_call] using hc
    exact ⟨d, hd, rfl⟩

theorem localKept_applyFailure (s : State) (e : EngineId) (c : CallRecord) (cause : CallOutcome) :
    LocalKept s (s.applyFailure e c cause) := by
  unfold State.applyFailure
  dsimp only
  refine .trans ?_ (localKept_raise _ _)
  split
  · exact localKept_applyToBlocks s e localKept_uncountedReturn
  · exact localKept_applyToBlocks s e fun s h => localKept_farEndFailure s h c.route

theorem localKept_testOutcome (s : State) (c : CallRecord) (outcome : CallOutcome) : LocalKept s (s.testOutcome c outcome) := by
  unfold State.testOutcome
  exact .trans (localKept_raise s _) (.of_quiet rfl rfl rfl rfl rfl rfl)

theorem localKept_countLineFailure (s : State) (t : TrunkId) : LocalKept s (s.countLineFailure t) := by
  unfold State.countLineFailure
  dsimp only
  split
  · exact (localKept_setTrunk s t _).trans ((localKept_setTrunk _ t _).trans ((localKept_raise _ _).trans
      (localKept_internalAlert _ _ _)))
  · exact localKept_setTrunk s t _

theorem localKept_testCodeReported (s : State) (t : TrunkId) (code : TestCode) : LocalKept s (s.testCodeReported t code) := by
  unfold State.testCodeReported
  have passed : LocalKept s (if (s.trunk t).faulted && !s.debounced t .f then
      (((s.clearLineFailures t).setTrunk t { (s.clearLineFailures t).trunk t with faulted := false }).raise
        (.trunkCleared t)).internalAlert (s.trunkKey t .restore) classTrouble
    else s.clearLineFailures t) := by
    split
    · exact (localKept_setTrunk s t _).trans ((localKept_setTrunk _ t _).trans ((localKept_raise _ _).trans
        (localKept_internalAlert _ _ _)))
    · exact localKept_setTrunk s t _
  have failed : LocalKept s (if (s.trunk t).faulted then s
      else (s.setTrunk t { s.trunk t with faulted := true }).raise (.trunkFault t .test)) := by
    split
    · exact .refl s
    · exact (localKept_setTrunk s t _).trans (localKept_raise _ _)
  cases code
  case aborted => exact .refl s
  case pass | passReversed => exact passed
  all_goals exact failed

/-- R70: the line failure of a call that has failed is counted on its trunk. -/
def State.lineCounted (s : State) (e : EngineId) (cause : CallOutcome) : State :=
  if cause.isLine then
    match (s.engine e).work.trunk with
    | some t => s.countLineFailure t
    | none => s
  else s

/-- R70: the records of a call that has failed, or its test, are told. -/
def State.failureTold (s : State) (e : EngineId) (cause : CallOutcome) : State :=
  match (s.engine e).work with
  | .alertCall c => s.applyFailure e c cause
  | .testCall c => s.testOutcome c cause
  | _ => s

theorem failCall_eq (s : State) (e : EngineId) (cause : CallOutcome) :
    s.failCall e cause = (((s.stopEngine e).lineCounted e cause).failureTold e cause).close e := rfl

theorem localKept_lineCounted (s : State) (e : EngineId) (cause : CallOutcome) : LocalKept s (s.lineCounted e cause) := by
  unfold State.lineCounted
  split
  · split
    · exact localKept_countLineFailure _ _
    · exact .refl _
  · exact .refl _

theorem localKept_failureTold (s : State) (e : EngineId) (cause : CallOutcome) : LocalKept s (s.failureTold e cause) := by
  unfold State.failureTold
  split
  · exact localKept_applyFailure _ _ _ _
  · exact localKept_testOutcome _ _ _
  · exact .refl _

theorem localKept_failCall (s : State) (e : EngineId) (cause : CallOutcome) : LocalKept s (s.failCall e cause) := by
  rw [failCall_eq]
  exact (localKept_stopEngine s e).trans ((localKept_lineCounted _ e cause).trans ((localKept_failureTold _ e cause).trans
    (localKept_close _ e)))

theorem localKept_endLineTest (s : State) (e : EngineId) (code : TestCode) : LocalKept s (s.endLineTest e code) := by
  unfold State.endLineTest
  split
  · dsimp only
    refine .trans ?_ (localKept_close _ e)
    refine .trans (.trans ?_ (localKept_testCodeReported _ _ _)) (localKept_cmu _ _)
    refine .trans ?_ (localKept_raise _ _)
    exact (localKept_stopEngine s e).trans (.of_quiet rfl rfl rfl rfl rfl rfl)
  · exact .refl s

theorem localKept_failWork (s : State) (e : EngineId) (cause : CallOutcome) (code : TestCode) :
    LocalKept s (s.failWork e cause code) := by
  unfold State.failWork
  split
  · exact localKept_endLineTest s e code
  · exact localKept_failCall s e cause

theorem localKept_preemptStop (s : State) (e : EngineId) : LocalKept s (s.preemptStop e) := by
  unfold State.preemptStop
  refine .trans ?_ (localKept_close _ e)
  refine (localKept_stopEngine s e).trans ?_
  split
  · exact localKept_applyToBlocks _ e localKept_uncountedReturn
  · exact localKept_testOutcome _ _ _
  · exact .refl _

theorem localKept_abortEngine (s : State) (e : EngineId) : LocalKept s (s.abortEngine e) := by
  unfold State.abortEngine
  split
  · exact .refl s
  · exact localKept_endLineTest s e .aborted
  · exact (localKept_stopEngine s e).trans ((localKept_applyToBlocks _ e localKept_uncountedReturn).trans (localKept_close _ e))
  · exact (localKept_stopEngine s e).trans ((localKept_testOutcome _ _ _).trans (localKept_close _ e))

theorem localKept_finishCall (s : State) (e : EngineId) : LocalKept s (s.finishCall e) := by
  unfold State.finishCall
  dsimp only
  split
  · exact (localKept_stopEngine s e).trans ((localKept_testOutcome _ _ _).trans (localKept_close _ e))
  · exact (localKept_stopEngine s e).trans (localKept_close _ e)

/-! ### The start of a call -/

theorem localKept_grantTrunk (s : State) (t : TrunkId) (e : EngineId) (m : PreemptMode) (n : Nat) (c : ClassId) :
    LocalKept s (s.grantTrunk t e m n c) := by
  have warned : LocalKept s (if ((s.trunk t).grant e m n).state = .warning then s.resetWarning t else s) := by
    split
    · exact .of_quiet (hl := rfl)
    · exact .refl s
  unfold State.grantTrunk
  dsimp only
  split
  · exact warned.trans ((localKept_setTrunk _ _ _).trans (localKept_raise _ _))
  · exact warned.trans (localKept_setTrunk _ _ _)

theorem localKept_takeAll (e : EngineId) (hs : List Handle) (room : Nat) (s : State) : LocalKept s (s.takeAll e hs room).1 := by
  induction hs generalizing s room with
  | nil => exact .refl s
  | cons h hs ih =>
    cases room with
    | zero => exact .refl s
    | succ n =>
      unfold State.takeAll
      split
      · next ht => exact (localKept_takeRecord ht).trans (ih _ _)
      · exact ih _ s

theorem callOn_eq_none {s : State} {r : RouteId} (h : s.callOn r = none) (e : EngineId) (c : CallRecord)
    (hc : (s.engine e).work.call = some c) : c.route ≠ r := by
  have := List.find?_eq_none.1 h e (by cases e <;> simp [engineIds])
  simpa [hc] using this

/-- R30: an engine is given a call on a route that the other engine's call has not. -/
theorem localKept_newWork (s : State) (e : EngineId) (f : Engine → Engine) (hd : (f (s.engine e)).detector = (s.engine e).detector)
    (hp : (f (s.engine e)).phase ≠ .idle)
    (hr : ∀ c, (f (s.engine e)).work.call = some c → s.callOn c.route = none) : LocalKept s (s.modEngine e f) := by
  refine .of_engines' (fun g => ?_) (fun g => ?_) fun hs c0 c1 h0 h1 => ?_
  · rw [engine_modEngine]
    split
    · next hg => rw [hd, hg]; exact id
    · exact id
  · rw [engine_modEngine]
    split
    · exact fun _ hi => absurd hi hp
    · exact id
  · cases e with
    | e0 => exact fun he => callOn_eq_none (hr c0 h0) .e1 c1 h1 he.symm
    | e1 => exact callOn_eq_none (hr c1 h1) .e0 c0 h0

theorem localKept_startCall (s : State) (e : EngineId) (w : Work)
    (hw : ∀ c, w.call = some c → s.callOn c.route = none) : LocalKept s (s.startCall e w) :=
  (localKept_newWork s e (fun x => { x with phase := .acquire, step := .none, work := w }) rfl (by simp) hw).trans
    (localKept_dsc _ _)

end Sys2Proof.Machine

namespace Sys2Proof.Machine

/-! ### Trunks with their holders, and calls with their records -/

/-- One trunk's share of `TrunksSound`. -/
def Trunk.Fits (x : Trunk) (role : TrunkRole) : Prop :=
  roleAllows role x.state = true ∧ (x.holder.isSome = true ↔ x.state = .warning ∨ x.state = .taken) ∧
    (x.warnTimer.isSome = true ↔ x.state = .warning) ∧ (x.guard = .absent ↔ x.state ≠ .cooldown)

theorem trunksSound_iff (s : State) : TrunksSound s ↔ ∀ t, (s.trunk t).Fits (s.trunkRole t) := Iff.rfl

/-- A record of this handle is in a call of this engine. -/
def State.Bound (s : State) (e : EngineId) (h : Handle) : Prop := ∃ r ∈ s.queue, r.handle = h ∧ r.state = .inCall e

/-- One engine's share of `CallsHoldRecords`. -/
def State.CallHolds (s : State) (e : EngineId) : Prop :=
  (∀ h, s.Bound e h ↔ ∃ c, (s.engine e).work = .alertCall c ∧ h ∈ c.unsettled) ∧
  (∀ c, (s.engine e).work = .alertCall c → c.unsettled.Nodup ∧ c.InOrder (s.engine e).acknowledged) ∧
  ∀ c, (s.engine e).work = .testCall c → ∀ b ∈ c.blocks, b.handle = none

theorem callsHoldRecords_iff (s : State) : CallsHoldRecords s ↔ ∀ e, s.CallHolds e := Iff.rfl

/-- An update of one engine that stays with its work: its trunk, and the records its call has still to settle. -/
structure WorkKept (x y : Engine) : Prop where
  busy : x.phase ≠ .idle → y.phase ≠ .idle
  trunk : y.work.trunk = x.work.trunk
  alert : ∀ c, x.work = .alertCall c → c.InOrder x.acknowledged → ∃ c', y.work = .alertCall c' ∧
    c'.unsettled = c.unsettled ∧ c'.InOrder y.acknowledged
  back : ∀ c', y.work = .alertCall c' → ∃ c, x.work = .alertCall c
  test : ∀ c', y.work = .testCall c' → ∃ c, x.work = .testCall c ∧
    ((∀ b ∈ c.blocks, b.handle = none) → ∀ b ∈ c'.blocks, b.handle = none)

theorem WorkKept.refl (x : Engine) : WorkKept x x :=
  ⟨id, rfl, fun c h k => ⟨c, h, rfl, k⟩, fun c h => ⟨c, h⟩, fun c h => ⟨c, h, id⟩⟩

theorem WorkKept.trans {x y z : Engine} (h : WorkKept x y) (k : WorkKept y z) : WorkKept x z where
  busy := k.busy ∘ h.busy
  trunk := k.trunk.trans h.trunk
  alert c hc ho := by
    obtain ⟨d, hd, hu, ho'⟩ := h.alert c hc ho
    obtain ⟨d', hd', hu', ho''⟩ := k.alert d hd ho'
    exact ⟨d', hd', hu'.trans hu, ho''⟩
  back c hc := by
    obtain ⟨d, hd⟩ := k.back c hc
    exact h.back d hd
  test c hc := by
    obtain ⟨d, hd, hb⟩ := k.test c hc
    obtain ⟨d', hd', hb'⟩ := h.test d hd
    exact ⟨d', hd', hb ∘ hb'⟩

/-- An engine whose work stays, and whose block stays as it is with the acknowledgement. -/
theorem WorkKept.of_work {x y : Engine} (hw : y.work = x.work) (hp : x.phase ≠ .idle → y.phase ≠ .idle)
    (ha : y.acknowledged = x.acknowledged) : WorkKept x y :=
  ⟨hp, by rw [hw], fun c hc ho => ⟨c, hw ▸ hc, rfl, ha ▸ ho⟩, fun c hc => ⟨c, hw ▸ hc⟩, fun c hc => ⟨c, hw ▸ hc, id⟩⟩

theorem State.CallHolds.kept {s t : State} {e : EngineId} (hb : ∀ h, t.Bound e h ↔ s.Bound e h)
    (hw : WorkKept (s.engine e) (t.engine e)) (h : s.CallHolds e) : t.CallHolds e := by
  obtain ⟨h1, h2, h3⟩ := h
  refine ⟨fun g => ?_, fun c' hc' => ?_, fun c' hc' => ?_⟩
  · rw [hb, h1]
    constructor
    · rintro ⟨c, hc, hg⟩
      obtain ⟨d, hd, hu, -⟩ := hw.alert c hc (h2 c hc).2
      exact ⟨d, hd, hu ▸ hg⟩
    · rintro ⟨d, hd, hg⟩
      obtain ⟨c, hc⟩ := hw.back d hd
      obtain ⟨d', hd', hu, -⟩ := hw.alert c hc (h2 c hc).2
      obtain rfl := Work.alertCall.inj (hd'.symm.trans hd)
      exact ⟨c, hc, hu ▸ hg⟩
  · obtain ⟨c, hc⟩ := hw.back c' hc'
    obtain ⟨d, hd, hu, ho⟩ := hw.alert c hc (h2 c hc).2
    obtain rfl := Work.alertCall.inj (hd.symm.trans hc')
    exact ⟨hu ▸ (h2 c hc).1, ho⟩
  · obtain ⟨c, hc, hb⟩ := hw.test c' hc'
    exact hb (h3 c hc)

theorem bound_congr {s t : State} (h : t.queue = s.queue) (e : EngineId) (g : Handle) : t.Bound e g ↔ s.Bound e g := by
  unfold State.Bound; rw [h]

/-- Records changed in nothing that says which call they are in. -/
theorem bound_map {s t : State} {f : Record → Record} (hf : RecordMap f) (hq : t.queue = s.queue.map f)
    (hs : ∀ r ∈ s.queue, ∀ e, (f r).state = .inCall e ↔ r.state = .inCall e) (e : EngineId) (g : Handle) :
    t.Bound e g ↔ s.Bound e g := by
  unfold State.Bound
  rw [hq]
  constructor
  · rintro ⟨_, hr, hg, he⟩
    obtain ⟨r, hr', rfl⟩ := List.mem_map.1 hr
    exact ⟨r, hr', (hf.handle r).symm.trans hg, (hs r hr' e).1 he⟩
  · rintro ⟨r, hr, hg, he⟩
    exact ⟨f r, List.mem_map_of_mem hr, (hf.handle r).trans hg, (hs r hr e).2 he⟩

/-- Every invariant of the part, kept by an operation. -/
structure Kept (s t : State) : Prop extends LocalKept s t where
  held : TrunksSound s → HoldersSound s → TrunksSound t ∧ HoldersSound t
  calls : QueueSound s → IdleEnginesEmpty s → CallsHoldRecords s → CallsHoldRecords t

theorem Kept.refl (s : State) : Kept s s := ⟨.refl s, fun h k => ⟨h, k⟩, fun _ _ h => h⟩

theorem Kept.trans {s m t : State} (h : Kept s m) (k : Kept m t) : Kept s t where
  toLocalKept := h.toLocalKept.trans k.toLocalKept
  held ht hh := k.held (h.held ht hh).1 (h.held ht hh).2
  calls hq hi hc := k.calls (h.queue hq) (fun e => h.idle e (hi e)) (h.calls hq hi hc)

theorem foldl_kept {α : Type} {g : State → α → State} (hg : ∀ s x, Kept s (g s x)) (l : List α) (s : State) :
    Kept s (l.foldl g s) := by
  induction l generalizing s with
  | nil => exact .refl s
  | cons x xs ih => exact (hg s x).trans (ih _)

theorem trunkRole_congr {s t : State} (h : t.tables.trunks = s.tables.trunks) (u : TrunkId) : t.trunkRole u = s.trunkRole u := by
  unfold State.trunkRole; rw [h]

/-- Trunks that keep what `Fits` says of them, under engines that stay with their work. -/
theorem held_of {s t : State} (hr : t.tables.trunks = s.tables.trunks)
    (ht : ∀ u, (s.trunk u).Fits (s.trunkRole u) → (t.trunk u).Fits (s.trunkRole u))
    (hh : ∀ u e, (t.trunk u).holder = some e → (s.trunk u).holder = some e)
    (hw : ∀ e, ((s.engine e).phase ≠ .idle → (t.engine e).phase ≠ .idle) ∧ (t.engine e).work.trunk = (s.engine e).work.trunk)
    (h : TrunksSound s) (k : HoldersSound s) : TrunksSound t ∧ HoldersSound t := by
  refine ⟨(trunksSound_iff t).2 fun u => ?_, fun u e he => ?_⟩
  · rw [trunkRole_congr hr]; exact ht u (h u)
  · obtain ⟨hp, hu⟩ := k u e (hh u e he)
    exact ⟨(hw e).1 hp, (hw e).2.trans hu⟩

/-- An operation that leaves the trunks and the records' places, under engines that stay with their work. -/
theorem Kept.of_local {s t : State} (hl : LocalKept s t) (hb : QueueSound s → ∀ e h, t.Bound e h ↔ s.Bound e h)
    (hw : ∀ e, WorkKept (s.engine e) (t.engine e)) (hr : t.tables.trunks = s.tables.trunks := by simp)
    (ht : t.trunks = s.trunks := by simp) : Kept s t where
  toLocalKept := hl
  held := held_of hr (fun u => by rw [trunk_of_trunks ht]; exact id) (fun u e => by rw [trunk_of_trunks ht]; exact id)
    fun e => ⟨(hw e).busy, (hw e).trunk⟩
  calls hq _ hc e := State.CallHolds.kept (hb hq e) (hw e) (hc e)

/-- An operation that leaves the engines, the trunks and the records' places. -/
theorem Kept.of_still {s t : State} (hl : LocalKept s t) (hq : t.queue = s.queue := by simp)
    (he : t.engines = s.engines := by simp) (hr : t.tables.trunks = s.tables.trunks := by simp)
    (ht : t.trunks = s.trunks := by simp) : Kept s t :=
  .of_local hl (fun _ => bound_congr hq) (fun e => by rw [engine_of_engines he]; exact .refl _) hr ht

/-- An operation of the trunks alone, or of what no invariant speaks of. -/
theorem Kept.of_trunks {s t : State} (hl : LocalKept s t)
    (hf : ∀ u, (s.trunk u).Fits (s.trunkRole u) → (t.trunk u).Fits (s.trunkRole u))
    (hh : ∀ u e, (t.trunk u).holder = some e → (s.trunk u).holder = some e)
    (hq : t.queue = s.queue := by simp) (he : t.engines = s.engines := by simp)
    (hr : t.tables.trunks = s.tables.trunks := by simp) : Kept s t where
  toLocalKept := hl
  held := held_of hr hf hh fun e => by rw [engine_of_engines he]; exact ⟨id, rfl⟩
  calls _ _ hc e := State.CallHolds.kept (bound_congr hq e) (by rw [engine_of_engines he]; exact .refl _) (hc e)

theorem kept_modEngine (s : State) (e : EngineId) (f : Engine → Engine) (h : EngineKept (s.engine e) (f (s.engine e)))
    (hw : WorkKept (s.engine e) (f (s.engine e))) : Kept s (s.modEngine e f) :=
  .of_local (localKept_modEngine s e f h) (fun _ => bound_congr (modEngine_queue s e f)) fun g => by
    rw [engine_modEngine]
    split
    · next hg => rw [hg]; exact hw
    · exact .refl _

/-- R97: a trunk changed in nothing that `Fits` speaks of. -/
theorem kept_setTrunk (s : State) (t : TrunkId) (x : Trunk) (hf : (s.trunk t).Fits (s.trunkRole t) → x.Fits (s.trunkRole t))
    (hh : ∀ e, x.holder = some e → (s.trunk t).holder = some e) : Kept s (s.setTrunk t x) :=
  .of_trunks (localKept_setTrunk s t x)
    (fun u => by
      rw [trunk_setTrunk]
      split
      · next hu => rw [hu]; exact hf
      · exact id)
    fun u e => by
      rw [trunk_setTrunk]
      split
      · next hu => rw [hu]; exact hh e
      · exact id

theorem kept_raise (s : State) (d : Detail) : Kept s (s.raise d) := .of_still (localKept_raise s d)

theorem kept_cause (s : State) : Kept s s.cause := .of_still (localKept_cause s)

theorem kept_dsc (s : State) (d : Dsc) : Kept s { s with dsc := d } := .of_still (localKept_dsc s d)

theorem kept_cmu (s : State) (c : Cmu) : Kept s { s with cmu := c } := .of_still (localKept_cmu s c)

theorem kept_reportGrantable (b s : State) (t : TrunkId) : Kept s (b.reportGrantable s t) :=
  .of_still (localKept_reportGrantable b s t)

/-! ### Records: what changes no call -/

/-- One change of records, in nothing that says which call they are in. -/
theorem Kept.of_map {s t : State} (hl : LocalKept s t) {f : Record → Record} (hf : RecordMap f)
    (hs : ∀ r ∈ s.queue, ∀ e, (f r).state = .inCall e ↔ r.state = .inCall e) (hq : t.queue = s.queue.map f := by rfl)
    (he : t.engines = s.engines := by simp) (hr : t.tables.trunks = s.tables.trunks := by simp)
    (ht : t.trunks = s.trunks := by simp) : Kept s t :=
  .of_local hl (fun _ => bound_map hf hq hs) (fun e => by rw [engine_of_engines he]; exact .refl _) hr ht

theorem notInCall_iff {x : RecordState} : x.isInCall = false ↔ ∀ e, x ≠ .inCall e := by
  cases x <;> simp [RecordState.isInCall]

/-- The record that a handle finds, changed outside any call. -/
theorem kept_updateFound (s : State) {r : Record} (hm : r ∈ s.queue) {f : Record → Record} (hf : RecordMap f)
    (hs : r.state.isInCall = false) (hs' : (f r).state.isInCall = false) (hr : ∀ r : Record, r.InRange → (f r).InRange) :
    Kept s (s.updateRecord r.handle f) := by
  refine .of_local (localKept_updateFound s hm hf (fun h => by rw [hs] at h; cases h) hr)
    (fun hq => bound_map (hf.ite fun x => (x.handle == r.handle) = true) rfl fun x hx g => ?_) fun e => .refl _
  split
  · next hh =>
    obtain rfl := hq.eq_of_handle hx hm (by simpa using hh)
    exact ⟨fun h => absurd h (notInCall_iff.1 hs' g), fun h => absurd h (notInCall_iff.1 hs g)⟩
  · rfl

theorem bound_filter {s t : State} {p : Record → Bool} (hq : t.queue = s.queue.filter p)
    (hs : ∀ r ∈ s.queue, r.state.isInCall = true → p r = true) (e : EngineId) (g : Handle) : t.Bound e g ↔ s.Bound e g := by
  unfold State.Bound
  rw [hq]
  constructor
  · rintro ⟨r, hr, h⟩
    exact ⟨r, List.mem_of_mem_filter hr, h⟩
  · rintro ⟨r, hr, hg, he⟩
    exact ⟨r, List.mem_filter.2 ⟨hr, hs r hr (by rw [he]; rfl)⟩, hg, he⟩

/-- A record outside calls leaves the queue. -/
theorem kept_removeFound (s : State) {r : Record} (hm : r ∈ s.queue) (hs : r.state.isInCall = false) :
    Kept s (s.removeRecord r.handle) := by
  refine .of_local (localKept_removeRecord s _) (fun hq => bound_filter rfl fun x hx hxc => ?_) fun e => .refl _
  rw [bne_iff_ne]
  intro hh
  rw [hq.eq_of_handle hx hm hh, hs] at hxc
  cases hxc

/-! ### The late join (R36) -/

theorem unsettled_append (c : CallRecord) (h : Handle) :
    ({ c with blocks := c.blocks ++ [⟨some h, .queued⟩] } : CallRecord).unsettled = c.unsettled ++ [h] := by
  simp only [CallRecord.unsettled, List.filter_append, List.filterMap_append]
  rfl

theorem inOrder_append {c : CallRecord} {a : Bool} (h : c.InOrder a) (g : Handle) :
    ({ c with blocks := c.blocks ++ [⟨some g, .queued⟩] } : CallRecord).InOrder a := by
  obtain ⟨hc, ho⟩ := h
  refine ⟨by simp; omega, fun i b hb => ?_⟩
  rcases Nat.lt_or_ge i c.blocks.length with hi | hi
  · exact ho i b (by simpa [List.getElem?_append_left hi] using hb)
  · have hb : b = ⟨some g, .queued⟩ := by
      rw [List.getElem?_append_right hi] at hb
      exact (List.mem_singleton.1 (List.mem_of_getElem? hb))
    exact ⟨fun h => by dsimp only at h; omega, fun h => by dsimp only at h; omega, fun _ => by rw [hb]⟩

theorem joinableCall_spec {s : State} {r : RouteId} {e : EngineId} (h : s.joinableCall r = some e) :
    ∃ c, (s.engine e).work = .alertCall c ∧ (s.engine e).phase ≠ .idle ∧ (s.engine e).phase ≠ .closing := by
  unfold State.joinableCall at h
  split at h
  · cases h
  · split at h
    · next c hc =>
      split at h
      · next hp =>
        obtain rfl := Option.some.inj h
        simp only [Bool.and_eq_true, bne_iff_ne] at hp
        exact ⟨c, hc, hp.1.1.1.1, hp.1.1.1.2⟩
      · cases h
    · cases h

/-- R13: a record taken into a call, and appended to its blocks. -/
def State.joined (s : State) (h : Handle) (e : EngineId) : State :=
  (s.updateRecord h fun r => { r with state := .inCall e, isProtected := true }).appendBlock e h

theorem lateJoin_cases (s : State) (h : Handle) : s.lateJoin h = s ∨
    ∃ r e c, s.findRecord h = some r ∧ r.state = .waiting ∧ (s.engine e).work = .alertCall c ∧ (s.engine e).phase ≠ .idle ∧
      (s.engine e).phase ≠ .closing ∧ s.lateJoin h = s.joined h e := by
  unfold State.lateJoin
  split
  · exact .inl rfl
  next r hr =>
  split
  · exact .inl rfl
  split
  · exact .inl rfl
  next e he =>
  obtain ⟨c, hc, hp, hp'⟩ := joinableCall_spec he
  split
  · next hs =>
    obtain ⟨⟨r', hr', hw⟩, rfl⟩ := takeRecord_eq hs
    exact .inr ⟨r', e, c, hr', hw, hc, hp, hp', rfl⟩
  · exact .inl rfl

/-- The handles bound to calls after a join: the joined one, and those before. -/
theorem bound_joined {s : State} (hs : QueueSound s) {h : Handle} {r : Record} (hr : s.findRecord h = some r)
    (hw : r.state = .waiting) (e f : EngineId) (g : Handle) :
    (s.joined h e).Bound f g ↔ s.Bound f g ∨ f = e ∧ g = h := by
  have hone : ∀ x ∈ s.queue, x.handle = h → x = r := fun x hx hxh =>
    hs.eq_of_handle hx (findRecord_mem hr) (hxh.trans (handle_of_findRecord hr).symm)
  have hq : (s.joined h e).queue = s.queue.map fun r => if r.handle == h then { r with state := .inCall e, isProtected := true }
      else r := by simp [State.joined, updateRecord_queue]
  unfold State.Bound
  rw [hq]
  constructor
  · rintro ⟨_, hx, hg, hf⟩
    obtain ⟨x, hx', rfl⟩ := List.mem_map.1 hx
    split at hg
    · next hxh =>
      refine .inr ⟨?_, ?_⟩
      · rw [if_pos hxh] at hf
        exact (RecordState.inCall.inj hf).symm
      · rw [← hg]; simpa using hxh
    · next hxh => exact .inl ⟨x, hx', hg, by rwa [if_neg hxh] at hf⟩
  · rintro (⟨x, hx, hg, hf⟩ | ⟨rfl, rfl⟩)
    · refine ⟨x, List.mem_map.2 ⟨x, hx, if_neg ?_⟩, hg, hf⟩
      intro hxh
      rw [hone x hx (by simpa using hxh), hw] at hf
      cases hf
    · exact ⟨_, List.mem_map.2 ⟨r, findRecord_mem hr, rfl⟩, by simp [handle_of_findRecord hr], by simp [handle_of_findRecord hr]⟩

theorem appendBlock_engine_same (s : State) (e : EngineId) (h : Handle) : (s.appendBlock e h).engine e =
    (s.engine e).modCall fun c => { c with blocks := c.blocks ++ [⟨some h, .queued⟩] } := by
  simp [State.appendBlock, Engine.modCall]

theorem joined_engine_same {s : State} {e : EngineId} {c : CallRecord} (hc : (s.engine e).work = .alertCall c) (h : Handle) :
    (s.joined h e).engine e = { s.engine e with work := .alertCall { c with blocks := c.blocks ++ [⟨some h, .queued⟩] } } := by
  rw [State.joined, appendBlock_engine_same, updateRecord_engine, Engine.modCall, hc, Work.mapCall]

theorem joined_engine_other (s : State) (h : Handle) {e f : EngineId} (hf : f ≠ e) : (s.joined h e).engine f = s.engine f := by
  simp [State.joined, State.appendBlock, hf]

/-- R13, R36: a join keeps calls and records in agreement. -/
theorem callHolds_joined {s : State} (hs : QueueSound s) {h : Handle} {r : Record} (hr : s.findRecord h = some r)
    (hw : r.state = .waiting) {e : EngineId} {c : CallRecord} (hc : (s.engine e).work = .alertCall c) {f : EngineId}
    (hf : s.CallHolds f) : (s.joined h e).CallHolds f := by
  by_cases hfe : f = e
  · subst hfe
    obtain ⟨h1, h2, -⟩ := hf
    have hx := joined_engine_same hc h
    have hfree : h ∉ c.unsettled := fun hm => by
      obtain ⟨x, hx, hxh, hxs⟩ := (h1 h).2 ⟨c, hc, hm⟩
      rw [hs.eq_of_handle hx (findRecord_mem hr) (hxh.trans (handle_of_findRecord hr).symm), hw] at hxs
      cases hxs
    refine ⟨fun g => ?_, fun c' hc' => ?_, fun c' hc' => ?_⟩
    · rw [bound_joined hs hr hw, h1, hx]
      simp [hc, unsettled_append]
    · rw [hx] at hc'
      obtain rfl := Work.alertCall.inj hc'
      refine ⟨?_, ?_⟩
      · rw [unsettled_append]
        exact (List.nodup_append.2 ⟨(h2 c hc).1, List.nodup_singleton _, fun a ha b hb hab => hfree (by
          rw [List.mem_singleton.1 hb] at hab; exact hab ▸ ha)⟩)
      · rw [hx]
        exact inOrder_append (h2 c hc).2 h
    · rw [hx] at hc'
      cases hc'
  · refine hf.kept (fun g => ?_) (by rw [joined_engine_other s h hfe]; exact .refl _)
    rw [bound_joined hs hr hw]
    simp [hfe]

theorem OnlyJoined.busy {x y : Engine} (h : OnlyJoined x y) (hp : x.phase ≠ .idle) : y.phase ≠ .idle := h.phase_eq ▸ hp

theorem kept_lateJoin (s : State) (h : Handle) : Kept s (s.lateJoin h) where
  toLocalKept := localKept_lateJoin s h
  held := held_of (by simp) (fun u => by rw [trunk_of_trunks (lateJoin_trunks s h)]; exact id)
    (fun u e => by rw [trunk_of_trunks (lateJoin_trunks s h)]; exact id)
    fun e => ⟨(lateJoin_joined s h e).busy, (lateJoin_joined s h e).work_trunk⟩
  calls hq _ hc f := by
    rcases lateJoin_cases s h with hs | ⟨r, e, c, hr, hw, hcall, -, -, hs⟩
    · rw [hs]; exact hc f
    · rw [hs]; exact callHolds_joined hq hr hw hcall (hc f)

theorem kept_reportWaiting (s : State) (h : Handle) : Kept s (s.reportWaiting h) := (kept_cause s).trans (kept_lateJoin _ h)

/-! ### Arrivals (R6 to R12) -/

/-- R9: only a WAITING record is cancelled. -/
theorem cancelTarget_spec {s : State} {k : Key} {r : Record} (h : s.cancelTarget k = some r) :
    r ∈ s.queue ∧ r.state = .waiting := by
  unfold State.cancelTarget at h
  split at h
  · split at h
    · next x hx =>
      split at h
      · next hc =>
        obtain rfl := Option.some.inj h
        simp only [Bool.and_eq_true, decide_eq_true_eq] at hc
        exact ⟨List.mem_of_find?_eq_some hx, hc.1.1⟩
      · cases h
    · cases h
  · cases h

theorem kept_admit {s s' : State} {k : Key} {c : ClassId} {h : Handle} (hs : s.admitAlert k c = some (s', h))
    (hk : k.inRange = true) (hopen : ∀ r ∈ s.queue, r.state.isInCall = false → r.key ≠ k) : Kept s s' where
  toLocalKept := localKept_admit hs hk hopen
  held := held_of (by rw [(admit_eq hs).2]; simp)
    (fun u => by rw [(admit_eq hs).2, trunk_of_trunks (reportWaiting_trunks _ _)]; exact id)
    (fun u e => by rw [(admit_eq hs).2, trunk_of_trunks (reportWaiting_trunks _ _)]; exact id)
    fun e => ⟨(admit_joined hs e).busy, (admit_joined hs e).work_trunk⟩
  calls hq hi hc := by
    have hb : ∀ e g, ({ s with queue := placeRecord (newRecord h k c) s.queue } : State).Bound e g ↔ s.Bound e g := fun e g => by
      unfold State.Bound
      simp only [(placeRecord_perm _ s.queue).mem_iff, List.mem_cons]
      constructor
      · rintro ⟨r, rfl | hr, hg, he⟩
        · cases he
        · exact ⟨r, hr, hg, he⟩
      · rintro ⟨r, hr, hg⟩
        exact ⟨r, .inr hr, hg⟩
    obtain ⟨hf, rfl⟩ := admit_eq hs
    exact (kept_reportWaiting _ h).calls ((localKept_place c (lowestFree_free hf) hk hopen).queue hq) hi fun e =>
      State.CallHolds.kept (hb e) (.refl _) (hc e)

theorem kept_offer (s : State) (k : Key) (c : ClassId) : Kept s (s.offer k c).1 := by
  unfold State.offer
  split
  · exact .refl s
  next hk =>
  have hk : k.inRange = true := by simpa using hk
  split
  · next r hr =>
    have hco : r.state.coalesces = true := by
      have := List.find?_some hr
      simp only [Bool.and_eq_true, beq_iff_eq] at this
      exact this.2
    have hst : r.state.isInCall = false := by cases h : r.state <;> simp_all [RecordState.coalesces, RecordState.isInCall]
    exact kept_updateFound s (List.mem_of_find?_eq_some hr) (f := fun r => { r with repeats := min (r.repeats + 1) 15 })
      ⟨fun _ => rfl, fun _ => rfl, fun _ => rfl⟩ hst hst fun x hx => ⟨hx.1, Nat.min_le_right _ _, hx.2.2⟩
  next hno =>
  split
  · next r hr =>
    have hst : r.state = .stranded := by
      have := List.find?_some hr
      simp only [Bool.and_eq_true, beq_iff_eq] at this
      exact this.2
    exact (kept_updateFound s (List.mem_of_find?_eq_some hr) recordMap_rearm (by rw [hst]; rfl) rfl
      fun _ h => h.rearm).trans (kept_reportWaiting _ _)
  next hno' =>
  have hopen := no_open_record hno hno'
  split
  · next r hr =>
    obtain ⟨hm, hw⟩ := cancelTarget_spec hr
    exact kept_removeFound s hm (by rw [hw]; rfl)
  split
  · split
    · next hs => exact kept_admit hs hk hopen
    · exact .refl s
  split
  · next v hv =>
    split
    · split
      · next hs =>
        refine (kept_removeFound s (r := v) ?_ ?_).trans ((kept_raise _ _).trans (kept_admit hs hk fun r hr => ?_))
        · exact List.mem_reverse.1 (List.mem_of_find?_eq_some hv)
        · simpa using List.find?_some hv
        · exact hopen r (List.mem_of_mem_filter hr)
      · exact .refl s
    · exact .refl s
  · exact .refl s

theorem kept_internalAlert (s : State) (k : Key) (c : ClassId) : Kept s (s.internalAlert k c) := kept_offer s k c

end Sys2Proof.Machine

namespace Sys2Proof.Machine

/-! ### Applied writes and ends of uses, trunks and calls included -/

theorem officeState_fits (s : State) (t : TrunkId) {x : Trunk} (hh : x.holder = none) (hw : x.warnTimer = none)
    (hg : x.guard = .absent) : (s.officeState t x).Fits .shared := by
  unfold State.officeState
  split <;> simp [Trunk.Fits, roleAllows, hh, hw, hg]

theorem trunkOfRole_fits (s : State) (t : TrunkId) (role : TrunkRole) (b : Bool) :
    (s.trunkOfRole t role b).Fits role ∧ (s.trunkOfRole t role b).holder = none := by
  cases role
  case shared =>
    refine ⟨officeState_fits s t rfl rfl rfl, ?_⟩
    simp only [State.trunkOfRole, State.officeState]
    split <;> rfl
  all_goals exact ⟨by simp [State.trunkOfRole, Trunk.Fits, roleAllows], rfl⟩

theorem Trunk.Fits.faulted {x : Trunk} {role : TrunkRole} (h : x.Fits role) (b : Bool) : ({ x with faulted := b } : Trunk).Fits role := h

theorem cardFaultRise_trunk (s : State) (t u : TrunkId) : (s.cardFaultRise t).trunk u = s.trunk u ∨
    u = t ∧ (s.cardFaultRise t).trunk u = { s.trunk t with faulted := true } := by
  unfold State.cardFaultRise
  split
  · rw [raise_trunk, trunk_setTrunk]
    split
    · next hu => exact .inr ⟨hu, rfl⟩
    · exact .inl rfl
  · exact .inl rfl

theorem reportGrantable_trunk (b s : State) (t u : TrunkId) : (b.reportGrantable s t).trunk u = s.trunk u :=
  trunk_of_trunks (reportGrantable_trunks _ _ _) u

/-- R116: a trunk whose applied entry has this role is in a state of it, without a holder. -/
theorem trunkEntryApplied_fits (s before : State) (t : TrunkId) (role : TrunkRole) :
    ((s.trunkEntryApplied before t role).trunk t).Fits role ∧ ((s.trunkEntryApplied before t role).trunk t).holder = none := by
  obtain ⟨hf, hh⟩ := trunkOfRole_fits s t role (before.managed t)
  unfold State.trunkEntryApplied
  dsimp only
  rw [reportGrantable_trunk]
  split
  · rcases cardFaultRise_trunk (s.setTrunk t (s.trunkOfRole t role (before.managed t))) t t with h | ⟨-, h⟩ <;>
      rw [h, trunk_setTrunk_same] <;> exact ⟨hf, hh⟩
  · rw [trunk_setTrunk_same]; exact ⟨hf, hh⟩

theorem tellReaders_trunk (s before : State) (w : Write) (u : TrunkId) :
    (s.tellReaders before w).trunk u = ((s.cause).tellOwner before w).trunk u := by
  unfold State.tellReaders
  exact trunk_of_trunks (readinessCause_trunks _ _) u

theorem tellReaders_queue (s before : State) {w : Write} (h : ∀ c e, w ≠ .cls c e) :
    (s.tellReaders before w).queue = s.queue := by
  unfold State.tellReaders
  rw [readinessCause_queue]
  show ((s.cause).tellOwner before w).queue = s.queue
  cases w with
  | cls c e => exact absurd rfl (h c e)
  | site e => exact siteToMonitor_queue _ _
  | trunk t e => exact trunkEntryApplied_queue _ _ _ _
  | _ => rfl

theorem tellReaders_bound (s before : State) (w : Write) (e : EngineId) (h : Handle) :
    (s.tellReaders before w).Bound e h ↔ s.Bound e h := by
  cases w with
  | cls c ce =>
    have hq : (s.tellReaders before (.cls c ce)).queue = s.queue.map fun r => if r.cls == c then r.adjust ce else r := by
      unfold State.tellReaders
      rw [readinessCause_queue]
      rfl
    refine bound_map (RecordMap.ite ⟨fun r => (r.adjust_keeps ce).1, fun r => (r.adjust_keeps ce).2.1,
      fun r => (r.adjust_keeps ce).2.2.1⟩ fun r => (r.cls == c) = true) hq (fun r _ f => ?_) e h
    split
    · rw [(r.adjust_keeps ce).2.2.2.1]
    · rfl
  | _ => exact bound_congr (tellReaders_queue _ _ (by simp)) e h

theorem apply_trunks (x : Tables) {w : Write} (h : ∀ t e, w ≠ .trunk t e) : (x.apply w).trunks = x.trunks := by
  cases w with
  | trunk t e => exact absurd rfl (h t e)
  | _ => rfl

/-- R116, R145: the trunks after a write has been applied to an entry that is not in use. -/
theorem held_tellReaders {s m : State} {w : Write} (ht : m.tables = s.tables.apply w) (hx : m.trunks = s.trunks)
    (he : m.engines = s.engines) (h : TrunksSound s) (k : HoldersSound s) :
    TrunksSound (m.tellReaders s w) ∧ HoldersSound (m.tellReaders s w) := by
  have heng : ∀ e, (m.tellReaders s w).engine e = s.engine e := fun e =>
    engine_of_engines ((tellReaders_engines m s w).trans he) e
  by_cases hw : ∃ t en, w = .trunk t en
  · obtain ⟨t, en, rfl⟩ := hw
    have htr : ∀ u, (m.tellReaders s (.trunk t en)).trunk u = (m.cause.trunkEntryApplied s t en.role).trunk u :=
      tellReaders_trunk m s _
    have hrole : ∀ u, (m.tellReaders s (.trunk t en)).trunkRole u = if u = t then en.role else s.trunkRole u := fun u => by
      unfold State.trunkRole
      rw [tellReaders_tables, ht]
      simp only [Tables.apply, vget_vput]
      by_cases hu : u = t <;> simp [hu]
    obtain ⟨hfit, hfree⟩ := trunkEntryApplied_fits m.cause s t en.role
    have hother : ∀ u, u ≠ t → (m.tellReaders s (.trunk t en)).trunk u = s.trunk u := fun u hu => by
      rw [htr, trunkEntryApplied_other _ _ _ hu, cause_trunk, trunk_of_trunks hx]
    refine ⟨(trunksSound_iff _).2 fun u => ?_, fun u e hu => ?_⟩
    · rw [hrole]
      by_cases hut : u = t
      · subst hut; rw [if_pos rfl, htr]; exact hfit
      · rw [if_neg hut, hother u hut]; exact h u
    · rw [heng]
      by_cases hut : u = t
      · subst hut; rw [htr, hfree] at hu; cases hu
      · rw [hother u hut] at hu; exact k u e hu
  · have hw' : ∀ t en, w ≠ .trunk t en := fun t en hwt => hw ⟨t, en, hwt⟩
    have htr : ∀ u, (m.tellReaders s w).trunk u = s.trunk u := fun u => by
      rw [tellReaders_trunk]
      cases w with
      | trunk t en => exact absurd rfl (hw' t en)
      | site e => exact (trunk_of_trunks (siteToMonitor_trunks _ _) u).trans ((cause_trunk m u).trans (trunk_of_trunks hx u))
      | cls c e => exact (adjustClass_trunk _ _ _ u).trans ((cause_trunk m u).trans (trunk_of_trunks hx u))
      | _ => exact (cause_trunk m u).trans (trunk_of_trunks hx u)
    refine held_of (by rw [tellReaders_tables, ht, apply_trunks _ hw']) (fun u => ?_) (fun u e => ?_) (fun e => ?_) h k
    · rw [htr]; exact id
    · rw [htr]; exact id
    · rw [heng]; exact ⟨id, rfl⟩

theorem kept_tellReaders {s m : State} {w : Write} (hl : LocalKept s (m.tellReaders s w)) (ht : m.tables = s.tables.apply w)
    (hx : m.trunks = s.trunks) (he : m.engines = s.engines) (hq : m.queue = s.queue) : Kept s (m.tellReaders s w) where
  toLocalKept := hl
  held := held_tellReaders ht hx he
  calls _ _ hc e := State.CallHolds.kept (fun h => (tellReaders_bound m s w e h).trans (bound_congr hq e h))
    (by rw [engine_of_engines ((tellReaders_engines m s w).trans he)]; exact .refl _) (hc e)

theorem kept_applyWrite (s : State) {w : Write} (hw : w.InRange) (hs : w.SlotFree s.tables) : Kept s (s.applyWrite w) :=
  kept_tellReaders (localKept_applyWrite s hw hs) rfl rfl rfl rfl

theorem kept_endUse (s : State) (ref : TableRef) : Kept s (s.endUse ref) := by
  have hl := localKept_endUse s ref
  unfold State.endUse at hl ⊢
  split
  · next w hw =>
    rw [hw] at hl
    dsimp only at hl
    split
    · exact .refl s
    · next hu =>
      rw [if_neg hu] at hl
      exact kept_tellReaders hl rfl rfl rfl rfl
  · exact .refl s

theorem kept_endUses (s : State) (refs : List TableRef) : Kept s (s.endUses refs) := foldl_kept kept_endUse refs s

@[simp] theorem endUse_queue (s : State) (ref : TableRef) : (s.endUse ref).queue = s.queue := by
  unfold State.endUse
  split
  · next w hw =>
    split
    · rfl
    · refine (tellReaders_queue _ _ fun c e hc => ?_).trans rfl
      subst hc
      exact Bool.noConfusion (stagedWrite_stageable hw).1
  · rfl

@[simp] theorem endUses_queue (s : State) (refs : List TableRef) : (s.endUses refs).queue = s.queue :=
  foldl_keeps State.queue State.endUse endUse_queue refs s

@[simp] theorem releaseTrunk_queue (s : State) (t : TrunkId) (e : EngineId) : (s.releaseTrunk t e).queue = s.queue := by
  unfold State.releaseTrunk
  split
  · split <;> simp
  · rfl

/-! ### Releases -/

theorem kept_unload (s : State) (e : EngineId) (p : Loading → Bool) : Kept s (s.unload e p) :=
  (kept_modEngine s e _ (engineKept_unloaded _ p) (.of_work rfl id rfl)).trans (kept_endUses _ _)

theorem kept_stopListening (s : State) (e : EngineId) : Kept s (s.stopListening e) :=
  .trans (kept_modEngine s e _ (.of_idle rfl rfl rfl fun hx => by rw [hx]; rfl) (.of_work rfl id rfl)) (kept_unload _ _ _)

theorem kept_stopEngine (s : State) (e : EngineId) : Kept s (s.stopEngine e) :=
  .trans (kept_modEngine s e _ (.of_idle rfl rfl rfl fun hx => by rw [hx]; rfl) (.of_work rfl id rfl)) (kept_stopListening _ _)

theorem Trunk.Fits.shared_of_warning {x : Trunk} {role : TrunkRole} (h : x.Fits role) (hs : x.state = .warning) :
    role = .shared := by
  obtain ⟨hr, -⟩ := h
  rw [hs] at hr
  cases role <;> simp_all [roleAllows]

/-- The state of its role that a trunk not in WARNING, TAKEN or COOLDOWN may take. -/
theorem kept_setOffice (s : State) (t : TrunkId) {x : Trunk} (hr : (s.trunk t).Fits (s.trunkRole t) → s.trunkRole t = .shared)
    (hh : x.holder = none) (hw : x.warnTimer = none) (hg : (s.trunk t).Fits (s.trunkRole t) → x.guard = .absent) :
    Kept s (s.setTrunk t (s.officeState t x)) := by
  refine kept_setTrunk s t _ (fun hf => ?_) fun e he => ?_
  · rw [hr hf]
    exact officeState_fits s t hh hw (hg hf)
  · simp only [State.officeState] at he
    split at he <;> simp [hh] at he

theorem kept_releaseTrunk (s : State) (t : TrunkId) (e : EngineId) : Kept s (s.releaseTrunk t e) := by
  unfold State.releaseTrunk
  split
  · split
    · next hs =>
      refine .trans (kept_setOffice s t (fun hf => hf.shared_of_warning hs) rfl rfl fun hf => ?_)
        ((kept_endUse _ _).trans (kept_reportGrantable _ _ _))
      exact hf.2.2.2.2 (by rw [hs]; decide)
    · next hs =>
      refine kept_setTrunk s t _ (fun hf => ?_) fun e he => by cases he
      obtain ⟨hr, -, hw, -⟩ := hf
      rw [hs] at hr hw
      refine ⟨?_, by simp, by simpa using hw, by simp⟩
      cases hrole : s.trunkRole t <;> simp_all [roleAllows]
    · exact .refl s
  · exact .refl s

theorem kept_leaveCooldown (s : State) (t : TrunkId) (hs : (s.trunk t).state = .cooldown) : Kept s (s.leaveCooldown t) := by
  unfold State.leaveCooldown
  refine .trans (.trans ?_ (kept_endUse _ _)) (kept_reportGrantable _ _ _)
  have free : (s.trunk t).Fits (s.trunkRole t) → (s.trunk t).holder = none ∧ (s.trunk t).warnTimer = none := fun ⟨_, hh, hw, _⟩ => by
    rw [hs] at hh hw
    simpa using And.intro hh hw
  refine kept_setTrunk s t _ (fun hf => ?_) fun e he => ?_
  · obtain ⟨hh, hw⟩ := free hf
    split
    · next hrole => rw [hrole]; exact ⟨rfl, by simp [hh], by simp [hw], by simp⟩
    · next hrole =>
      have : s.trunkRole t = .shared := by
        have hr := hf.1
        rw [hs] at hr
        cases hrole' : s.trunkRole t <;> simp_all [roleAllows]
      rw [this]
      exact officeState_fits s t hh hw rfl
  · split at he
    · exact he
    · simp only [State.officeState] at he
      split at he <;> exact he

end Sys2Proof.Machine

namespace Sys2Proof.Machine

/-! ### CLOSING, trunks included (R73) -/

theorem trunkGivenBack_queue (s : State) (e : EngineId) (w : Work) : (s.trunkGivenBack e w).queue = s.queue := by
  unfold State.trunkGivenBack
  split <;> simp

theorem trunkGivenBack_engines (s : State) (e : EngineId) (w : Work) : (s.trunkGivenBack e w).engines = s.engines := by
  unfold State.trunkGivenBack
  split <;> simp

theorem kept_trunkGivenBack (s : State) (e : EngineId) (w : Work) : Kept s (s.trunkGivenBack e w) := by
  unfold State.trunkGivenBack
  split
  · exact kept_releaseTrunk _ _ _
  · exact .refl s

theorem kept_allReleased (s : State) (e : EngineId) (refs : List TableRef) : Kept s (s.allReleased e refs) :=
  .trans (kept_modEngine s e _ ⟨fun h => h.release _, fun h => h.of_eq id fun _ hl => by rw [release_stopping hl], .of_work rfl⟩
    (.of_work rfl id rfl)) (kept_endUses _ _)

theorem allReleased_trunk {s : State} {e : EngineId} {refs : List TableRef} (h : ∀ r ∈ refs, ∀ t, r ≠ .trunk t) (u : TrunkId) :
    (s.allReleased e refs).trunk u = s.trunk u :=
  trunk_of_trunks ((endUses_trunks h _).1.trans (modEngine_trunks _ _ _)) u

/-- R73: an engine that gives a trunk back does not hold it any more. -/
theorem releaseTrunk_freed {s : State} {t : TrunkId} {e : EngineId} (h : TrunksSound s) :
    ((s.releaseTrunk t e).trunk t).holder ≠ some e := by
  by_cases hh : (s.trunk t).holder = some e
  · obtain ⟨htaken, hwarn⟩ := releaseTrunk_spec s t e hh
    rcases (h t).2.1.1 (by rw [hh]; rfl) with hs | hs
    · rw [(hwarn hs).1]; exact fun h => by cases h
    · rw [htaken hs]; exact fun h => by cases h
  · rw [show s.releaseTrunk t e = s from if_neg hh]; exact hh

@[simp] theorem close_queue (s : State) (e : EngineId) : (s.close e).queue = s.queue := by
  rw [close_eq]
  simp [State.callForgotten, State.emptied, State.allReleased, trunkGivenBack_queue]

theorem close_engine_other (s : State) {e f : EngineId} (hf : f ≠ e) : (s.close e).engine f = s.engine f := by
  rw [close_eq, cause_engine]
  show (s.emptied e).engine f = s.engine f
  rw [State.emptied, engine_modEngine_other _ _ hf, State.allReleased, engine_of_engines (endUses_engines _ _),
    engine_modEngine_other _ _ hf, engine_of_engines (trunkGivenBack_engines _ _ _), engine_modEngine_other _ _ hf]

theorem close_engine_same (s : State) (e : EngineId) : ∃ d, (s.close e).engine e = { Engine.reset with detector := d } := by
  rw [close_eq, cause_engine]
  show ∃ d, (s.emptied e).engine e = _
  rw [State.emptied, engine_modEngine_same]
  exact ⟨_, rfl⟩

theorem held_close (s : State) (e : EngineId) (h : TrunksSound s) (k : HoldersSound s) :
    TrunksSound (s.close e) ∧ HoldersSound (s.close e) := by
  have h1 : TrunksSound (s.modEngine e Engine.atClosing) ∧ HoldersSound (s.modEngine e Engine.atClosing) := by
    refine held_of (by simp) (fun u => by simp) (fun u f => by simp) (fun f => ?_) h k
    rw [engine_modEngine]
    split
    · next hf => subst hf; exact ⟨fun _ => Phase.noConfusion, rfl⟩
    · exact ⟨id, rfl⟩
  have h2 := (kept_trunkGivenBack _ e (s.engine e).work).held h1.1 h1.2
  have h3 := (kept_allReleased _ e (s.engine e).closingRefs).held h2.1 h2.2
  have hwork : (((s.modEngine e Engine.atClosing).trunkGivenBack e (s.engine e).work).engine e).work = (s.engine e).work := by
    rw [engine_of_engines (trunkGivenBack_engines _ _ _), engine_modEngine_same]; rfl
  have hfree : ∀ u, (((s.modEngine e Engine.atClosing).trunkGivenBack e (s.engine e).work).trunk u).holder ≠ some e := fun u hu => by
    have hut := (h2.2 u e hu).2
    rw [hwork] at hut
    rw [State.trunkGivenBack, hut] at hu
    exact releaseTrunk_freed h1.1 hu
  have htr : ∀ u, (s.close e).trunk u =
      ((s.modEngine e Engine.atClosing).trunkGivenBack e (s.engine e).work).trunk u := fun u => by
    rw [close_eq, cause_trunk]
    show (s.emptied e).trunk u = _
    rw [State.emptied, modEngine_trunk, allReleased_trunk (closingRefs_no_trunk _)]
  have htab : (s.close e).tables.trunks =
      ((s.modEngine e Engine.atClosing).trunkGivenBack e (s.engine e).work).tables.trunks := by
    rw [close_eq, cause_tables]
    show (s.emptied e).tables.trunks = _
    rw [State.emptied, modEngine_tables, State.allReleased, (endUses_trunks (closingRefs_no_trunk _) _).2.1, modEngine_tables]
  refine ⟨(trunksSound_iff _).2 fun u => ?_, fun u f hu => ?_⟩
  · rw [htr, trunkRole_congr htab]; exact h2.1 u
  · rw [htr] at hu
    have hf : f ≠ e := fun hf => hfree u (hf ▸ hu)
    rw [close_engine_other s hf]
    have := h2.2 u f hu
    rwa [engine_of_engines (trunkGivenBack_engines _ _ _), engine_modEngine_other _ _ hf] at this

/-! ### Calls that end: what is still to settle -/

/-- While a call ends, exactly these records are still in it; the other engine's call is as it should be. -/
structure State.Settling (s : State) (e : EngineId) (hs : List Handle) : Prop where
  bound : ∀ h, s.Bound e h ↔ h ∈ hs
  other : s.CallHolds (other e)

theorem other_or (e f : EngineId) : f = e ∨ f = other e := by cases e <;> cases f <;> simp [other]

theorem calls_close {s : State} {e : EngineId} (h : s.Settling e []) : CallsHoldRecords (s.close e) := fun f => by
  rcases other_or e f with rfl | rfl
  · obtain ⟨d, hd⟩ := close_engine_same s f
    have hw : ((s.close f).engine f).work = .nothing := by rw [hd]; rfl
    refine ⟨fun g => ?_, fun c hc => ?_, fun c hc => ?_⟩
    · show (s.close f).Bound f g ↔ _
      rw [bound_congr (close_queue s f), h.bound, hw]
      simp
    · rw [hw] at hc; cases hc
    · rw [hw] at hc; cases hc
  · refine State.CallHolds.kept (bound_congr (close_queue s e) _) ?_ h.other
    rw [close_engine_other s (other_ne e)]
    exact .refl _

/-- A record that has left its call, before it is settled. -/
theorem bound_left {s m : State} {f : Record → Record} (hf : RecordMap f) {h : Handle}
    (hm : m.queue = s.queue.map fun r => if r.handle == h then f r else r)
    (hout : ∀ r ∈ m.queue, r.handle = h → r.state.isInCall = false) (e : EngineId) (g : Handle) :
    m.Bound e g ↔ s.Bound e g ∧ g ≠ h := by
  constructor
  · rintro ⟨x, hx, rfl, he⟩
    have hne : x.handle ≠ h := fun hxh => by
      have := hout x hx hxh
      rw [he] at this
      cases this
    rw [hm] at hx
    obtain ⟨y, hy, rfl⟩ := List.mem_map.1 hx
    rw [(hf.ite fun r => (r.handle == h) = true).handle] at hne
    have hyh : (y.handle == h) = false := by simpa using hne
    exact ⟨⟨y, hy, by simp [hyh], by simpa [hyh] using he⟩, by simpa [hyh] using hne⟩
  · rintro ⟨⟨y, hy, rfl, he⟩, hne⟩
    exact ⟨y, by rw [hm]; exact List.mem_map.2 ⟨y, hy, if_neg (by simpa using hne)⟩, rfl, he⟩

theorem mergeTarget_spec {s : State} {r v : Record} (h : s.mergeTarget r = some v) :
    v ∈ s.queue ∧ v.handle ≠ r.handle ∧ v.key = r.key ∧ v.state.isInCall = false := by
  have := List.find?_some h
  simp only [Bool.and_eq_true, bne_iff_ne, beq_iff_eq, Bool.not_eq_true'] at this
  exact ⟨List.mem_of_find?_eq_some h, this.1.1, this.1.2, this.2⟩

/-- R15, R16: what settling a record that has left its call does to the calls: nothing, or it joins another engine's. -/
theorem callHolds_settleReturn {s m : State} {h : Handle} {f : Record → Record} (hs : QueueSound s) (hf : RecordMap f)
    (hm : m.queue = s.queue.map fun r => if r.handle == h then f r else r)
    (hout : ∀ r ∈ m.queue, r.handle = h → r.state.isInCall = false) {e : EngineId} (hp : (m.engine e).phase = .closing) :
    (∀ g, (m.settleReturn h).Bound e g ↔ m.Bound e g) ∧
      (m.CallHolds (other e) → (m.settleReturn h).CallHolds (other e)) := by
  have trivially : (∀ g, m.Bound e g ↔ m.Bound e g) ∧ (m.CallHolds (other e) → m.CallHolds (other e)) := ⟨fun _ => .rfl, id⟩
  unfold State.settleReturn
  split
  · exact trivially
  next r hr =>
  have hrm := findRecord_mem hr
  have hrh := handle_of_findRecord hr
  split
  · next v hv =>
    have hb : ∀ f g, ((m.updateRecord v.handle fun v => { v with repeats := min (v.repeats + 1 + r.repeats) 15,
                                                                 isProtected := true }).removeRecord h).Bound f g ↔ m.Bound f g := fun f g => by
      rw [bound_filter (s := m.updateRecord v.handle fun v => { v with repeats := min (v.repeats + 1 + r.repeats) 15,
                                                                       isProtected := true }) rfl]
      · refine bound_map (RecordMap.ite (f := fun x => { x with repeats := min (x.repeats + 1 + r.repeats) 15,
                                                                isProtected := true })
          ⟨fun _ => rfl, fun _ => rfl, fun _ => rfl⟩ fun x => (x.handle == v.handle) = true) rfl (fun x _ e => ?_) f g
        split <;> rfl
      · intro x hx hxc
        rw [bne_iff_ne]
        intro hxh
        obtain ⟨y, hy, rfl⟩ := List.mem_map.1 hx
        have hyh : y.handle = h := by split at hxh <;> exact hxh
        have hyc := hout y hy hyh
        split at hxc <;> rw [hyc] at hxc <;> cases hxc
    exact ⟨hb e, State.CallHolds.kept (hb _) (.refl _)⟩
  · next hnone =>
    split
    · next hw =>
      have hq : QueueSound m := queueSound_alone hf hm hs fun x hx hxh => by
        have : x = r := List.inj_on_of_nodup_map
          (by rw [hm, (hf.ite fun r => (r.handle == h) = true).map_handle]; exact hs.1) hx hrm (hxh.trans hrh.symm)
        rw [this, hnone]
      rcases lateJoin_cases m.cause h with hj | ⟨r', e', c, hr', hw', hc, -, hp', hj⟩
      · rw [State.reportWaiting, hj]; exact ⟨fun _ => .rfl, State.CallHolds.kept (fun _ => .rfl) (by rw [cause_engine]; exact .refl _)⟩
      · have hne : e ≠ e' := fun he => hp' (by rw [← he, cause_engine]; exact hp)
        rw [State.reportWaiting, hj]
        refine ⟨fun g => ?_, fun hcall => callHolds_joined (s := m.cause) hq hr' hw' hc
          (State.CallHolds.kept (fun _ => .rfl) (by rw [cause_engine]; exact .refl _) hcall)⟩
        rw [bound_joined (s := m.cause) hq hr' hw']
        simp only [hne, false_and, or_false]
        rfl
    · exact trivially

/-- One record after another leaves a call that ends. -/
structure State.Leaving (s : State) (e : EngineId) (hs : List Handle) : Prop extends s.Settling e hs where
  queue : QueueSound s
  phase : (s.engine e).phase = .closing

theorem leaving_settleReturn {s m : State} {e : EngineId} {h : Handle} {hs : List Handle} (hl : s.Leaving e (h :: hs))
    (hn : h ∉ hs) {f : Record → Record} (hf : RecordMap f)
    (hm : m.queue = s.queue.map fun r => if r.handle == h then f r else r)
    (hout : ∀ r ∈ m.queue, r.handle = h → r.state.isInCall = false) (he : m.engines = s.engines) :
    (m.settleReturn h).Leaving e hs := by
  have hp : (m.engine e).phase = .closing := by rw [engine_of_engines he]; exact hl.phase
  have hleft := bound_left hf hm hout
  have hnot : ¬ s.Bound (other e) h := fun ⟨x, hx, hxh, hxe⟩ => by
    obtain ⟨y, hy, hyh, hye⟩ := (hl.bound h).2 List.mem_cons_self
    rw [hl.queue.eq_of_handle hx hy (hxh.trans hyh.symm), hye] at hxe
    exact other_ne e (RecordState.inCall.inj hxe).symm
  have hother : m.CallHolds (other e) := State.CallHolds.kept (fun g => by
    rw [hleft]
    exact ⟨And.left, fun hb => ⟨hb, fun hg => hnot (hg ▸ hb)⟩⟩) (by rw [engine_of_engines he]; exact .refl _) hl.other
  obtain ⟨hb, hc⟩ := callHolds_settleReturn hl.queue hf hm hout hp
  exact {
    bound := fun g => by
      rw [hb, hleft, hl.bound, List.mem_cons]
      constructor
      · rintro ⟨rfl | hg, hne⟩
        · exact absurd rfl hne
        · exact hg
      · exact fun hg => ⟨.inr hg, fun hgh => hn (hgh ▸ hg)⟩
    other := hc hother
    queue := settleReturn_queueSound hf hm hl.queue
    phase := by rw [(settleReturn_joined m h e).phase_eq, hp] }

theorem State.Leaving.record {s : State} {e : EngineId} {h : Handle} {hs : List Handle} (hl : s.Leaving e (h :: hs)) :
    ∃ r, s.findRecord h = some r ∧ r.state = .inCall e := by
  obtain ⟨r, hr, rfl, he⟩ := (hl.bound h).2 List.mem_cons_self
  exact ⟨r, hl.queue.findRecord_of_mem hr, he⟩

theorem leaving_uncountedReturn {s : State} {e : EngineId} {h : Handle} {hs : List Handle} (hl : s.Leaving e (h :: hs))
    (hn : h ∉ hs) : (s.uncountedReturn h).Leaving e hs := by
  obtain ⟨r, hr, he⟩ := hl.record
  have hu : s.uncountedReturn h = (s.updateRecord h fun r => { r with state := .waiting }).settleReturn h := by
    simp [State.uncountedReturn, hr, he, RecordState.isInCall]
  rw [hu]
  refine leaving_settleReturn hl hn (f := fun r => { r with state := .waiting }) ⟨fun _ => rfl, fun _ => rfl, fun _ => rfl⟩ rfl
    (fun x hx hxh => ?_) rfl
  obtain ⟨y, hy, rfl⟩ := List.mem_map.1 hx
  have hyh : (y.handle == h) = true := by split at hxh <;> simpa using hxh
  rw [if_pos hyh]
  rfl

theorem Record.fail_out (r : Record) (ce : ClassEntry) (n : Nat) (route : RouteId) :
    (r.fail ce n route).1.state.isInCall = false := by
  unfold Record.fail
  dsimp only
  repeat' split
  all_goals rfl

theorem leaving_farEndFailure {s : State} {e : EngineId} {h : Handle} {hs : List Handle} (route : RouteId)
    (hl : s.Leaving e (h :: hs)) (hn : h ∉ hs) : (s.farEndFailure h route).Leaving e hs := by
  obtain ⟨r, hr, he⟩ := hl.record
  obtain ⟨hh, hk, hc, -, -, -⟩ := r.fail_keeps (s.classOr r.cls) (s.routeOr route).fallbackAfter route
  have hout := r.fail_out (s.classOr r.cls) (s.routeOr route).fallbackAfter route
  generalize hy : r.fail (s.classOr r.cls) (s.routeOr route).fallbackAfter route = y at *
  have hu : s.farEndFailure h route = (y.2.foldl State.raise (s.updateRecord h fun _ => y.1)).settleReturn h := by
    simp [State.farEndFailure, hr, he, RecordState.isInCall, hy]
  rw [hu]
  refine leaving_settleReturn hl hn (recordMap_replace hh hk hc) (by rw [raiseAll_queue, hl.queue.replace_queue hr])
    (fun x hx hxh => ?_) (by rw [raiseAll_engines, updateRecord_engines])
  rw [raiseAll_queue, updateRecord_queue] at hx
  obtain ⟨z, hz, rfl⟩ := List.mem_map.1 hx
  split
  · exact hout
  · next hne => rw [if_neg hne] at hxh; exact absurd (by simpa using hxh) hne

theorem foldl_leaving {e : EngineId} {outcome : State → Handle → State}
    (ho : ∀ (s : State) h hs, s.Leaving e (h :: hs) → h ∉ hs → (outcome s h).Leaving e hs) :
    ∀ (hs : List Handle) (s : State), hs.Nodup → s.Leaving e hs → (hs.foldl outcome s).Leaving e []
  | [], _, _, hl => hl
  | h :: hs, s, hn, hl => by
    obtain ⟨hh, hn⟩ := List.nodup_cons.1 hn
    exact foldl_leaving ho hs _ hn (ho s h hs hl hh)

/-- The records bound to an engine are those its call has still to settle, whatever the order of its blocks. -/
structure State.Bounded (s : State) (e : EngineId) : Prop where
  bound : ∀ h, s.Bound e h ↔ ∃ c, (s.engine e).work = .alertCall c ∧ h ∈ c.unsettled
  nodup : ∀ c, (s.engine e).work = .alertCall c → c.unsettled.Nodup
  other : s.CallHolds (other e)

theorem bounded_of_calls {s : State} (h : CallsHoldRecords s) (e : EngineId) : s.Bounded e :=
  ⟨(h e).1, fun c hc => ((h e).2.1 c hc).1, h (other e)⟩

theorem State.Bounded.congr {s t : State} {e : EngineId} (h : s.Bounded e) (hq : t.queue = s.queue)
    (hw : (t.engine e).work = (s.engine e).work) (ho : t.engine (Machine.other e) = s.engine (Machine.other e)) : t.Bounded e :=
  ⟨fun g => by rw [bound_congr hq, h.bound, hw], fun c hc => h.nodup c (hw ▸ hc),
    State.CallHolds.kept (bound_congr hq _) (by rw [ho]; exact .refl _) h.other⟩

/-- R15, R70: the records of an alert call that ends have all left it. -/
theorem settling_applyToBlocks {s : State} {e : EngineId} {c : CallRecord} (hq : QueueSound s) (hb : s.Bounded e)
    (hw : (s.engine e).work = .alertCall c) {outcome : State → Handle → State}
    (ho : ∀ (s : State) h hs, s.Leaving e (h :: hs) → h ∉ hs → (outcome s h).Leaving e hs) :
    (s.applyToBlocks e outcome).Settling e [] := by
  have hcall : (s.engine e).work.call = some c := by rw [hw]; rfl
  unfold State.applyToBlocks
  rw [hcall]
  refine (foldl_leaving ho _ _ (hb.nodup c hw) ⟨⟨fun h => ?_, ?_⟩, queueSound_congr (modEngine_queue _ _ _) hq, ?_⟩).toSettling
  · rw [bound_congr (modEngine_queue _ _ _)]
    refine (hb.bound h).trans ?_
    constructor
    · rintro ⟨d, hd, hh⟩
      obtain rfl := Work.alertCall.inj (hw.symm.trans hd)
      exact hh
    · exact fun hh => ⟨c, hw, hh⟩
  · refine State.CallHolds.kept (bound_congr (modEngine_queue _ _ _) _) ?_ hb.other
    rw [engine_modEngine_other _ _ (other_ne e)]
    exact .refl _
  · rw [engine_modEngine_same]

/-- An engine without an alert call has no records to settle. -/
theorem settling_of_no_alert {s : State} {e : EngineId} (hb : s.Bounded e)
    (hw : ∀ c, (s.engine e).work ≠ .alertCall c) : s.Settling e [] :=
  ⟨fun h => (hb.bound h).trans ⟨fun ⟨c, h, _⟩ => absurd h (hw c), fun h => by cases h⟩, hb.other⟩

theorem State.Settling.of_still {s t : State} {e : EngineId} {hs : List Handle} (h : s.Settling e hs) (hq : t.queue = s.queue)
    (he : t.engines = s.engines) : t.Settling e hs :=
  ⟨fun g => (bound_congr hq e g).trans (h.bound g),
    State.CallHolds.kept (bound_congr hq _) (by rw [engine_of_engines he]; exact .refl _) h.other⟩

end Sys2Proof.Machine

namespace Sys2Proof.Machine

/-! ### The ways a call or test ends -/

theorem held_of_joined {s t : State} (ht : t.trunks = s.trunks) (hr : t.tables = s.tables)
    (hj : ∀ f, OnlyJoined (s.engine f) (t.engine f)) (h : TrunksSound s) (k : HoldersSound s) : TrunksSound t ∧ HoldersSound t :=
  held_of (by rw [hr]) (fun u => by rw [trunk_of_trunks ht]; exact id) (fun u e => by rw [trunk_of_trunks ht]; exact id)
    (fun f => ⟨(hj f).busy, (hj f).work_trunk⟩) h k

theorem held_applyToBlocks (s : State) (e : EngineId) {outcome : State → Handle → State}
    (ht : ∀ s h, (outcome s h).trunks = s.trunks) (hr : ∀ s h, (outcome s h).tables = s.tables)
    (hj : ∀ s h f, OnlyJoined (s.engine f) ((outcome s h).engine f)) (h : TrunksSound s) (k : HoldersSound s) :
    TrunksSound (s.applyToBlocks e outcome) ∧ HoldersSound (s.applyToBlocks e outcome) := by
  unfold State.applyToBlocks
  split
  · exact ⟨h, k⟩
  · next c hc =>
    obtain ⟨h1, k1⟩ : TrunksSound (s.modEngine e fun x => { x.modCall (fun c => { c with blocks := c.blocks.map fun b =>
          if b.open then ⟨none, .failed⟩ else b }) with phase := .closing }) ∧ HoldersSound (s.modEngine e fun x =>
        { x.modCall (fun c => { c with blocks := c.blocks.map fun b => if b.open then ⟨none, .failed⟩ else b }) with
          phase := .closing }) := by
      refine held_of (by simp) (fun u => by simp) (fun u f => by simp) (fun f => ?_) h k
      rw [engine_modEngine]
      split
      · next hf => subst hf; exact ⟨fun _ => Phase.noConfusion, mapCall_trunk _ _ fun _ => rfl⟩
      · exact ⟨id, rfl⟩
    exact held_of_joined (foldl_keeps State.trunks outcome ht _ _) (foldl_keeps State.tables outcome hr _ _)
      (fun f => foldl_joined f outcome (fun s h => hj s h f) _ _) h1 k1

theorem held_returnBlocks (s : State) (e : EngineId) (h : TrunksSound s) (k : HoldersSound s) :
    TrunksSound (s.applyToBlocks e State.uncountedReturn) ∧ HoldersSound (s.applyToBlocks e State.uncountedReturn) :=
  held_applyToBlocks s e uncountedReturn_trunks uncountedReturn_tables uncountedReturn_joined h k

theorem held_applyFailure (s : State) (e : EngineId) (c : CallRecord) (cause : CallOutcome) (h : TrunksSound s)
    (k : HoldersSound s) : TrunksSound (s.applyFailure e c cause) ∧ HoldersSound (s.applyFailure e c cause) := by
  unfold State.applyFailure
  have told : ∀ m, TrunksSound m ∧ HoldersSound m → TrunksSound (m.raise (.callFailed c.route c.trunk cause)) ∧
      HoldersSound (m.raise (.callFailed c.route c.trunk cause)) := fun m hm => (kept_raise m _).held hm.1 hm.2
  refine told _ ?_
  split
  · exact held_returnBlocks s e h k
  · exact held_applyToBlocks s e (farEndFailure_trunks · · c.route) (farEndFailure_tables · · c.route)
      (farEndFailure_joined · · c.route) h k

theorem settling_applyFailure {s : State} {e : EngineId} {c : CallRecord} (hq : QueueSound s) (hc : s.Bounded e)
    (hw : (s.engine e).work = .alertCall c) (cause : CallOutcome) : (s.applyFailure e c cause).Settling e [] := by
  unfold State.applyFailure
  refine State.Settling.of_still ?_ (raise_queue _ _) (raise_engines _ _)
  split
  · exact settling_applyToBlocks hq hc hw fun _ _ _ hl hn => leaving_uncountedReturn hl hn
  · exact settling_applyToBlocks hq hc hw fun _ _ _ hl hn => leaving_farEndFailure c.route hl hn

/-- A call or test that ends: what it held is settled, and its engine closes. -/
theorem kept_ended {s m : State} {e : EngineId} (hl : LocalKept s m)
    (hh : TrunksSound s → HoldersSound s → TrunksSound m ∧ HoldersSound m)
    (hc : QueueSound s → IdleEnginesEmpty s → CallsHoldRecords s → m.Settling e []) : Kept s (m.close e) where
  toLocalKept := hl.trans (localKept_close m e)
  held h k := held_close m e (hh h k).1 (hh h k).2
  calls hq hi h := calls_close (hc hq hi h)

theorem kept_testOutcome (s : State) (c : CallRecord) (outcome : CallOutcome) : Kept s (s.testOutcome c outcome) := by
  unfold State.testOutcome
  exact (kept_raise s _).trans (kept_cmu _ _)

theorem kept_clearLineFailures (s : State) (t : TrunkId) : Kept s (s.clearLineFailures t) :=
  kept_setTrunk s t _ id fun _ h => h

theorem kept_setFaulted (s : State) (t : TrunkId) (b : Bool) : Kept s (s.setTrunk t { s.trunk t with faulted := b }) :=
  kept_setTrunk s t _ id fun _ h => h

theorem kept_countLineFailure (s : State) (t : TrunkId) : Kept s (s.countLineFailure t) := by
  unfold State.countLineFailure
  have counted : Kept s (s.setTrunk t { s.trunk t with failures := min ((s.trunk t).failures + 1) 2 }) :=
    kept_setTrunk s t _ id fun _ h => h
  dsimp only
  split
  · exact counted.trans ((kept_setFaulted _ t true).trans ((kept_raise _ _).trans (kept_internalAlert _ _ _)))
  · exact counted

theorem kept_cardFaultRise (s : State) (t : TrunkId) : Kept s (s.cardFaultRise t) := by
  unfold State.cardFaultRise
  split
  · exact (kept_setFaulted s t true).trans (kept_raise _ _)
  · exact .refl s

theorem kept_testCodeReported (s : State) (t : TrunkId) (code : TestCode) : Kept s (s.testCodeReported t code) := by
  unfold State.testCodeReported
  have passed : Kept s (if (s.trunk t).faulted && !s.debounced t .f then
      (((s.clearLineFailures t).setTrunk t { (s.clearLineFailures t).trunk t with faulted := false }).raise
        (.trunkCleared t)).internalAlert (s.trunkKey t .restore) classTrouble
    else s.clearLineFailures t) := by
    split
    · exact (kept_clearLineFailures s t).trans ((kept_setFaulted _ t false).trans ((kept_raise _ _).trans
        (kept_internalAlert _ _ _)))
    · exact kept_clearLineFailures s t
  have failed : Kept s (if (s.trunk t).faulted then s
      else (s.setTrunk t { s.trunk t with faulted := true }).raise (.trunkFault t .test)) := by
    split
    · exact .refl s
    · exact (kept_setFaulted s t true).trans (kept_raise _ _)
  cases code
  case aborted => exact .refl s
  case pass | passReversed => exact passed
  all_goals exact failed

theorem kept_lineCounted (s : State) (e : EngineId) (cause : CallOutcome) : Kept s (s.lineCounted e cause) := by
  unfold State.lineCounted
  split
  · split
    · exact kept_countLineFailure _ _
    · exact .refl _
  · exact .refl _

theorem kept_failureTold_close (s : State) (e : EngineId) (cause : CallOutcome) : Kept s ((s.failureTold e cause).close e) := by
  refine kept_ended (localKept_failureTold s e cause) (fun h k => ?_) fun hq hi hc => ?_
  · unfold State.failureTold
    split
    · exact held_applyFailure s e _ cause h k
    · exact (kept_testOutcome s _ cause).held h k
    · exact ⟨h, k⟩
  · unfold State.failureTold
    split
    · next c hw => exact settling_applyFailure hq (bounded_of_calls hc e) hw cause
    · next c hw =>
      exact (settling_of_no_alert (bounded_of_calls hc e) fun d hd => by rw [hw] at hd; cases hd).of_still (testOutcome_queue _ _ _) (testOutcome_engines _ _ _)
    · next hw _ => exact settling_of_no_alert (bounded_of_calls hc e) hw

theorem kept_failCall (s : State) (e : EngineId) (cause : CallOutcome) : Kept s (s.failCall e cause) := by
  rw [failCall_eq]
  exact (kept_stopEngine s e).trans ((kept_lineCounted _ e cause).trans (kept_failureTold_close _ e cause))

theorem kept_close_of_no_alert (s : State) (e : EngineId) (hw : ∀ c, (s.engine e).work ≠ .alertCall c) : Kept s (s.close e) :=
  kept_ended (.refl s) (fun h k => ⟨h, k⟩) fun _ _ hc => settling_of_no_alert (bounded_of_calls hc e) hw

theorem testCodeReported_joined (s : State) (t : TrunkId) (code : TestCode) (f : EngineId) :
    OnlyJoined (s.engine f) ((s.testCodeReported t code).engine f) := by
  have passed : OnlyJoined (s.engine f) ((if (s.trunk t).faulted && !s.debounced t .f then
      (((s.clearLineFailures t).setTrunk t { (s.clearLineFailures t).trunk t with faulted := false }).raise
        (.trunkCleared t)).internalAlert (s.trunkKey t .restore) classTrouble
    else s.clearLineFailures t).engine f) := by
    split
    · exact internalAlert_joined (((s.clearLineFailures t).setTrunk t { (s.clearLineFailures t).trunk t with faulted := false
        }).raise (.trunkCleared t)) _ _ f
    · exact .refl _
  have failed : OnlyJoined (s.engine f) ((if (s.trunk t).faulted then s
      else (s.setTrunk t { s.trunk t with faulted := true }).raise (.trunkFault t .test)).engine f) := by
    split <;> exact .refl _
  unfold State.testCodeReported
  cases code
  case aborted => exact .refl _
  case pass | passReversed => exact passed
  all_goals exact failed

theorem OnlyJoined.not_alert {x y : Engine} (h : OnlyJoined x y) (hw : ∀ c, x.work ≠ .alertCall c) : ∀ c, y.work ≠ .alertCall c := by
  obtain ⟨hs, rfl⟩ := h
  intro c hc
  cases hx : x.work with
  | alertCall d => exact hw d hx
  | _ => rw [hx] at hc; cases hc

theorem kept_endLineTest (s : State) (e : EngineId) (code : TestCode) : Kept s (s.endLineTest e code) := by
  unfold State.endLineTest
  split
  · next r hr =>
    dsimp only
    have hw : ∀ c, ((s.stopEngine e).engine e).work ≠ .alertCall c := fun c => by
      rw [stopEngine_work, hr]; exact Work.noConfusion
    refine .trans (m := { State.testCodeReported _ r.trunk code with cmu := { (State.testCodeReported _ r.trunk code).cmu with
                                                                              slot := .empty } }) ?_ (kept_close_of_no_alert _ e ?_)
    · refine .trans (.trans ?_ (kept_testCodeReported _ r.trunk code)) (kept_cmu _ _)
      exact (kept_stopEngine s e).trans ((kept_cmu _ _).trans (kept_raise _ _))
    · exact (testCodeReported_joined _ r.trunk code e).not_alert hw
  · exact .refl s

theorem kept_failWork (s : State) (e : EngineId) (cause : CallOutcome) (code : TestCode) : Kept s (s.failWork e cause code) := by
  unfold State.failWork
  split
  · exact kept_endLineTest s e code
  · exact kept_failCall s e cause

/-- R71, R72: an alert call that stops gives its records back. -/
theorem kept_returned_close (s : State) (e : EngineId) {c : CallRecord} (hw : (s.engine e).work = .alertCall c) :
    Kept s ((s.applyToBlocks e State.uncountedReturn).close e) :=
  kept_ended (localKept_applyToBlocks s e localKept_uncountedReturn) (held_returnBlocks s e) fun hq _ hc =>
    settling_applyToBlocks hq (bounded_of_calls hc e) hw fun _ _ _ hl hn => leaving_uncountedReturn hl hn

theorem kept_testOutcome_close (s : State) (e : EngineId) {c : CallRecord} (hw : (s.engine e).work = .testCall c)
    (d : CallRecord) (outcome : CallOutcome) : Kept s ((s.testOutcome d outcome).close e) :=
  (kept_testOutcome s d outcome).trans (kept_close_of_no_alert _ e fun c' => by
    rw [engine_of_engines (testOutcome_engines s d outcome), hw]; exact Work.noConfusion)

theorem kept_preemptStop (s : State) (e : EngineId) : Kept s (s.preemptStop e) := by
  unfold State.preemptStop
  refine (kept_stopEngine s e).trans ?_
  dsimp only
  split
  · next c hw => exact kept_returned_close _ e hw
  · next c hw => exact kept_testOutcome_close _ e hw c .preempted
  · next h _ => exact kept_close_of_no_alert _ e h

/-- R71: the calls after a stop, whatever the order of the blocks was. -/
theorem calls_preemptStop {s : State} {e : EngineId} (hq : QueueSound s) (hb : s.Bounded e) :
    CallsHoldRecords (s.preemptStop e) := by
  have hstop : (s.stopEngine e).queue = s.queue := by simp [State.stopEngine, State.stopListening, State.unload]
  have hb : (s.stopEngine e).Bounded e := hb.congr hstop (stopEngine_work s e)
    (((stopListening_spec _ e).2.2.2 _ (other_ne e)).trans (engine_modEngine_other _ _ (other_ne e)))
  unfold State.preemptStop
  dsimp only
  split
  · next c hw =>
    exact calls_close (settling_applyToBlocks (queueSound_congr hstop hq) hb hw fun _ _ _ hl hn => leaving_uncountedReturn hl hn)
  · next c hw =>
    exact calls_close ((settling_of_no_alert hb fun d hd => by rw [hw] at hd; cases hd).of_still (testOutcome_queue _ _ _)
      (testOutcome_engines _ _ _))
  · next h _ => exact calls_close (settling_of_no_alert hb h)

theorem kept_abortEngine (s : State) (e : EngineId) : Kept s (s.abortEngine e) := by
  unfold State.abortEngine
  split
  · exact .refl s
  · exact kept_endLineTest s e .aborted
  · next c hw => exact (kept_stopEngine s e).trans (kept_returned_close _ e (by rw [stopEngine_work, hw]))
  · next c hw => exact (kept_stopEngine s e).trans (kept_testOutcome_close _ e (by rw [stopEngine_work, hw]) c .aborted)

theorem stopEngine_engine (s : State) (e : EngineId) : (s.stopEngine e).engine e =
    { s.engine e with generator := Generator.silent, sending := [], phaseTimer := none, lossTimer := none, listening := [],
                      reports := [], detector := (s.engine e).detector.release fun _ => true } := by
  rw [State.stopEngine, (stopListening_spec _ e).2.2.1, engine_modEngine_same]

/-- R68: a call whose records are all settled ends. -/
theorem kept_finishCall (s : State) (e : EngineId)
    (hs : ∀ c, (s.engine e).work = .alertCall c → c.InOrder (s.engine e).acknowledged → c.unsettled = []) :
    Kept s (s.finishCall e) := by
  unfold State.finishCall
  dsimp only
  split
  · next c hw => exact (kept_stopEngine s e).trans (kept_testOutcome_close _ e hw c .delivered)
  · refine .trans (kept_stopEngine s e) (kept_ended (.refl _) (fun h k => ⟨h, k⟩) fun _ _ hc => ⟨fun h => ?_, hc (other e)⟩)
    refine ((hc e).1 h).trans ⟨fun ⟨c, hw, hh⟩ => ?_, fun h => by cases h⟩
    have ho := ((hc e).2.1 c hw).2
    rw [stopEngine_engine] at hw ho
    rw [hs c hw ho] at hh
    exact hh

end Sys2Proof.Machine

namespace Sys2Proof.Machine

/-! ### The tick and the power-on state -/

@[simp] theorem reset_trunk (u : TrunkId) : State.reset.trunk u = Trunk.reset := vget_replicate _ u

@[simp] theorem reset_engine (e : EngineId) : State.reset.engine e = Engine.reset := by cases e <;> rfl

@[simp] theorem empty_classes (c : ClassId) : vget Tables.empty.classes c = none := vget_replicate _ c
@[simp] theorem empty_routes (r : RouteId) : vget Tables.empty.routes r = ⟨none, none⟩ := vget_replicate _ r
@[simp] theorem empty_trunks (t : TrunkId) : vget Tables.empty.trunks t = ⟨none, none⟩ := vget_replicate _ t
@[simp] theorem empty_tones (t : ToneId) : vget Tables.empty.tones t = ⟨none, none⟩ := vget_replicate _ t
@[simp] theorem empty_cadences (c : CadenceId) : vget Tables.empty.cadences c = ⟨none, none⟩ := vget_replicate _ c

@[simp] theorem reset_trunkRole (u : TrunkId) : State.reset.trunkRole u = .unused := by
  simp [State.trunkRole, State.reset]

@[simp] theorem reset_trunkSlot (u : TrunkId) : State.reset.trunkSlot u = none := by
  simp [State.trunkSlot, State.reset]

theorem timerTick_eq (x : Option Nat) : timerTick x = x.map fun n => n - 1 := by
  cases x <;> rfl

theorem tick_live {s : State} (h : s.resetLow = false) : s.tick =
    { s with
      clock := s.clock + 1
      queue := s.queue.map Record.tick
      dsc := { s.dsc with hold := timerTick s.dsc.hold }
      trunks := vmap (fun _ t => t.tick) s.trunks
      engines := { e0 := s.engines.e0.tick, e1 := s.engines.e1.tick }
      cmu := { s.cmu with slot := s.cmu.slot.tick, periodic := timerTick s.cmu.periodic,
                          silenceTimer := timerTick s.cmu.silenceTimer } } := by
  simp [State.tick, h]

theorem tick_held {s : State} (h : s.resetLow = true) : s.tick = s := by simp [State.tick, h]

theorem tick_engine {s : State} (h : s.resetLow = false) (e : EngineId) : s.tick.engine e = (s.engine e).tick := by
  rw [tick_live h]; cases e <;> rfl

theorem tick_trunk {s : State} (h : s.resetLow = false) (u : TrunkId) : s.tick.trunk u = (s.trunk u).tick := by
  rw [tick_live h]; exact vget_vmap ..

theorem step_of_empty {s : State} (h : s.pending = []) : step s = .next s.tick := by
  unfold step; rw [h]

theorem step_of_front {s : State} {c : Instr} {rest : List Instr} (h : s.pending = c :: rest) :
    step s = exec c { s with pending := rest } := by
  unfold step; rw [h]

/-- R132: every command but the two of the reset pin does nothing while RESET_N is held low. -/
theorem exec_held {s : State} (h : s.resetLow = true) {c : Instr} (ha : c ≠ .resetNAsserted) (hp : c ≠ .powerOnReset) :
    exec c s = .next s := by
  cases c
  case resetNAsserted => exact absurd rfl ha
  case powerOnReset => exact absurd rfl hp
  all_goals exact congrArg Host.Outcome.next (if_pos h)

end Sys2Proof.Machine

namespace Sys2Proof.Proofs

open Sys2Proof Sys2Proof.Machine

/-- Settles O1. -/
theorem stepRunsFrontCommand : Obligations.StepRunsFrontCommand := fun _ _ _ => step_of_front rfl

/-- Settles O2: the tick is a record update, read field by field. -/
theorem emptyQueueStepTicksTimers : Obligations.EmptyQueueStepTicksTimers := by
  intro s hempty hlow
  refine ⟨s.tick, step_of_empty hempty, ?_⟩
  have hengine (e : EngineId) : s.tick.engine e = { s.engine e with
      phaseTimer := (s.engine e).phaseTimer.map fun n => n - 1
      lossTimer := (s.engine e).lossTimer.map fun n => n - 1 } := by
    rw [tick_engine hlow, Engine.tick, timerTick_eq, timerTick_eq]
  have htrunk (u : TrunkId) : s.tick.trunk u = { s.trunk u with
      ringTimer := (s.trunk u).ringTimer.map fun n => n - 1
      warnTimer := (s.trunk u).warnTimer.map fun n => n - 1
      guard := match (s.trunk u).guard with
        | .running n => .running (n - 1)
        | g => g } := by
    rw [tick_trunk hlow, Trunk.tick, timerTick_eq, timerTick_eq]
    cases (s.trunk u).guard <;> rfl
  rw [tick_live hlow] at *
  refine ⟨rfl, hengine, htrunk, by rw [timerTick_eq], timerTick_eq _, timerTick_eq _, ?_, ?_, rfl, rfl, hempty, hlow, rfl, rfl,
    rfl, rfl, ?_⟩
  · intro c n hslot
    simp [hslot, CommandSlot.tick]
  · intro hslot
    cases hs : s.cmu.slot with
    | held c n => exact absurd hs (hslot c n)
    | running c e => simp [CommandSlot.tick]
    | empty => simp [CommandSlot.tick]
  · apply List.map_congr_left
    intro r _
    rw [Record.tick]
    cases r.state <;> rfl

/-- Settles O3: the two commands of the pin are not guarded by it, every other one is. -/
theorem resetPinCommands : Obligations.ResetPinCommands := by
  refine ⟨fun s => ⟨rfl, rfl⟩, fun s hlow => ⟨fun c => exec_held hlow, fun hempty => ?_⟩⟩
  rw [step_of_empty hempty, tick_held hlow]

/-- Settles O4: the reset state is a literal, and a bank of it holds one record throughout. -/
theorem powerOnValues : Obligations.PowerOnValues := by
  refine ⟨rfl, rfl, rfl, rfl, rfl, fun e => ?_, fun u => ?_, rfl, ⟨none, rfl⟩, rfl, rfl, rfl, rfl, rfl, rfl, rfl, rfl, rfl, rfl,
    fun k => vget_replicate _ k, rfl, rfl, rfl, rfl, rfl, rfl⟩
  · rw [reset_engine]
    exact ⟨rfl, rfl, rfl, rfl, rfl, rfl, rfl, rfl, rfl, rfl, rfl, fun i => congrArg Bin.used (vget_replicate _ i)⟩
  · rw [reset_trunk, reset_trunkRole, reset_trunkSlot]
    refine ⟨rfl, rfl, rfl, rfl, rfl, rfl, rfl, rfl, rfl, rfl, rfl, vget_replicate _ u, vget_replicate _ u, fun sig => ?_,
      congrArg TestResult.valid (vget_replicate _ u)⟩
    rw [show vget State.reset.hwi.lines u = LineBits.reset from vget_replicate _ u]
    cases sig <;> rfl

/-- Settles O5: after reset no record, no call, no trunk in use and no table entry exists. -/
theorem resetMeetsInvariants : Obligations.ResetMeetsInvariants := by
  have hrecord (k : EventKind) : vget State.reset.evr.records k = EventRecord.reset := vget_replicate _ k
  refine ⟨⟨List.nodup_nil, .nil, List.nodup_nil⟩, nofun, fun u => ?_, fun u e h => ?_, nofun, fun e => ?_,
    ⟨Detector.reset_sound, Detector.reset_sound⟩, fun u sig => ?_, ⟨Nat.zero_le _, Nat.zero_le _⟩, ⟨fun k => ?_, nofun⟩,
    ?_, fun t u _ a ha b hb x y hx => ?_, fun e _ => ?_⟩
  · rw [reset_trunkRole, reset_trunk]
    simp [Trunk.reset, roleAllows]
  · rw [reset_trunk] at h
    cases h
  · rw [reset_engine]
    simp [State.reset, Engine.reset]
  · rw [show vget State.reset.hwi.lines u = LineBits.reset from vget_replicate _ u]
    cases sig <;> exact Nat.zero_le _
  · rw [hrecord]
    simp [EventRecord.reset]
  · simp [TablesInRange, State.reset, ifPresent, Tables.empty]
  · have hempty : vget State.reset.tables.trunks t = ⟨none, none⟩ := empty_trunks t
    rw [hempty] at ha
    have hnone : a = none := by simpa using ha
    rw [hnone] at hx
    cases hx
  · rw [reset_engine]
    exact ⟨rfl, nofun⟩

end Sys2Proof.Proofs

namespace Sys2Proof.Machine

/-! ### The engine's own progress -/

/-- An engine that goes on with its work, its acknowledgement as it was. -/
theorem kept_step (s : State) (e : EngineId) (f : Engine → Engine) (hp : (f (s.engine e)).phase ≠ .idle)
    (hw : (f (s.engine e)).work = (s.engine e).work := by rfl)
    (ha : (f (s.engine e)).acknowledged = (s.engine e).acknowledged := by rfl)
    (hd : (s.engine e).detector.Sound → (f (s.engine e)).detector.Sound := by exact id) : Kept s (s.modEngine e f) :=
  kept_modEngine s e f (.of_busy hp (.of_work hw) hd) (.of_work hw (fun _ => hp) ha)

theorem mapTest_call (w : Work) (g : LineTestRecord → LineTestRecord) : (w.mapTest g).call = w.call := by cases w <;> rfl

theorem mapTest_trunk (w : Work) {g : LineTestRecord → LineTestRecord} (hg : ∀ r, (g r).trunk = r.trunk) :
    (w.mapTest g).trunk = w.trunk := by
  cases w <;> simp [Work.mapTest, Work.trunk, hg]

theorem mapTest_eq_alert {w : Work} {g : LineTestRecord → LineTestRecord} {c : CallRecord} :
    w.mapTest g = .alertCall c ↔ w = .alertCall c := by cases w <;> simp [Work.mapTest]

theorem mapTest_eq_test {w : Work} {g : LineTestRecord → LineTestRecord} {c : CallRecord} :
    w.mapTest g = .testCall c ↔ w = .testCall c := by cases w <;> simp [Work.mapTest]

theorem WorkKept.of_mapTest {x y : Engine} {g : LineTestRecord → LineTestRecord} (hg : ∀ r, (g r).trunk = r.trunk)
    (hw : y.work = x.work.mapTest g) (hp : x.phase ≠ .idle → y.phase ≠ .idle) (ha : y.acknowledged = x.acknowledged) :
    WorkKept x y where
  busy := hp
  trunk := by rw [hw, mapTest_trunk _ hg]
  alert c hc ho := ⟨c, by rw [hw, mapTest_eq_alert.2 hc], rfl, ha ▸ ho⟩
  back c hc := ⟨c, mapTest_eq_alert.1 (hw ▸ hc)⟩
  test c hc := ⟨c, mapTest_eq_test.1 (hw ▸ hc), id⟩

theorem Engine.RouteKept.of_mapTest {x y : Engine} {g : LineTestRecord → LineTestRecord} (hw : y.work = x.work.mapTest g) :
    x.RouteKept y := fun c hc => ⟨c, by rw [hw, mapTest_call] at hc; exact hc, rfl⟩

/-- A line test whose record takes a measurement. -/
theorem kept_testStep (s : State) (e : EngineId) (f : Engine → Engine) {g : LineTestRecord → LineTestRecord}
    (hg : ∀ r, (g r).trunk = r.trunk) (hw : (f (s.engine e)).work = (s.engine e).work.mapTest g)
    (hp : (f (s.engine e)).phase ≠ .idle)
    (ha : (f (s.engine e)).acknowledged = (s.engine e).acknowledged)
    (hd : (s.engine e).detector.Sound → (f (s.engine e)).detector.Sound) : Kept s (s.modEngine e f) :=
  kept_modEngine s e f (.of_busy hp (.of_mapTest hw) hd) (.of_mapTest hg hw (fun _ => hp) ha)

/-- The handles of the open blocks do not change while an open block stays open. -/
theorem openHandles_modify {bs : List BlockEntry} {i : Nat} {b : BlockEntry} (hb : bs[i]? = some b) (ho : b.open = true)
    {g : BlockEntry → BlockEntry} (hg : (g b).open = true) (hh : (g b).handle = b.handle) :
    ((bs.modify i g).filter BlockEntry.open).filterMap BlockEntry.handle =
      (bs.filter BlockEntry.open).filterMap BlockEntry.handle := by
  induction bs generalizing i with
  | nil => cases hb
  | cons a as ih =>
    cases i with
    | zero =>
      obtain rfl : a = b := by simpa using hb
      simp [List.filterMap_cons, ho, hg, hh]
    | succ i =>
      have := ih (i := i) (by simpa using hb)
      by_cases ha : a.open = true <;> simp [ha, List.filterMap_cons, this]

/-- The block at `i` put into a state, with the tries and the mark as they may be. -/
def CallRecord.blockPut (c : CallRecord) (i tries : Nat) (st : BlockState) : CallRecord :=
  { c with current := i, tries := tries, blocks := c.blocks.modify i fun b => { b with state := st } }

theorem unsettled_blockPut {c : CallRecord} {i : Nat} {b : BlockEntry} (hb : c.blocks[i]? = some b) (ho : b.open = true)
    (tries : Nat) {st : BlockState} (hst : st ≠ .acked ∧ st ≠ .failed) : (c.blockPut i tries st).unsettled = c.unsettled :=
  openHandles_modify hb ho (by simp [BlockEntry.open, hst]) rfl

/-- The blocks are in order with the block at `i` under way when those before it are acknowledged and those after it wait. -/
theorem inOrder_blockPut {c : CallRecord} {i : Nat} (hi : i < c.blocks.length) (tries : Nat) {st : BlockState}
    (hst : st ≠ .acked ∧ st ≠ .failed) (hbefore : ∀ j b, c.blocks[j]? = some b → j < i → b.state = .acked)
    (hafter : ∀ j b, c.blocks[j]? = some b → i < j → b.state = .queued) : (c.blockPut i tries st).InOrder false := by
  refine ⟨by simpa [CallRecord.blockPut] using hi, fun j b hj => ?_⟩
  simp only [CallRecord.blockPut, List.getElem?_modify] at hj ⊢
  obtain ⟨a, ha, rfl⟩ := Option.map_eq_some_iff.1 hj
  refine ⟨fun h => ?_, fun h _ => ?_, fun h => ?_⟩
  · have hlt : j < i := by simpa using h
    rw [if_neg (by omega)]
    exact hbefore j a ha hlt
  · simp [h, BlockEntry.open, hst]
  · rw [if_neg (by omega)]
    exact hafter j a ha h

theorem handles_none_modify {bs : List BlockEntry} (h : ∀ b ∈ bs, b.handle = none) (i : Nat) (st : BlockState) :
    ∀ b ∈ bs.modify i fun b => { b with state := st }, b.handle = none := by
  intro b hb
  obtain ⟨j, hj⟩ := List.getElem?_of_mem hb
  rw [List.getElem?_modify] at hj
  obtain ⟨a, ha, rfl⟩ := Option.map_eq_some_iff.1 hj
  split <;> exact h a (List.mem_of_getElem? ha)

/-- An engine whose call record becomes what `g` makes of it. -/
theorem WorkKept.of_modCall {x y : Engine} {g : CallRecord → CallRecord} (hw : y.work = x.work.mapCall g)
    (hp : x.phase ≠ .idle → y.phase ≠ .idle) (ht : ∀ c, (g c).trunk = c.trunk)
    (ha : ∀ c, x.work = .alertCall c → c.InOrder x.acknowledged →
      (g c).unsettled = c.unsettled ∧ (g c).InOrder y.acknowledged)
    (hh : ∀ c : CallRecord, (∀ b ∈ c.blocks, b.handle = none) → ∀ b ∈ (g c).blocks, b.handle = none) : WorkKept x y where
  busy := hp
  trunk := by rw [hw]; exact mapCall_trunk _ _ ht
  alert c hc ho := ⟨g c, by rw [hw, hc]; rfl, ha c hc ho⟩
  back c hc := by
    rw [hw] at hc
    cases hx : x.work <;> rw [hx] at hc
    case alertCall d => exact ⟨d, rfl⟩
    all_goals cases hc
  test c hc := by
    rw [hw] at hc
    cases hx : x.work <;> rw [hx] at hc
    case testCall d => obtain rfl := Work.testCall.inj hc; exact ⟨d, rfl, hh d⟩
    all_goals cases hc

theorem Engine.RouteKept.of_modCall {x y : Engine} {g : CallRecord → CallRecord} (hw : y.work = x.work.mapCall g)
    (hr : ∀ c, (g c).route = c.route) : x.RouteKept y := fun c hc => by
  rw [hw, Work.mapCall_call] at hc
  obtain ⟨d, hd, rfl⟩ := Option.map_eq_some_iff.1 hc
  exact ⟨d, hd, (hr d).symm⟩

/-- The current block of a call goes on from one state to another before its acknowledgement. -/
theorem CallRecord.InOrder.current_step {c : CallRecord} (h : c.InOrder false) (tries : Nat) {st : BlockState}
    (hst : st ≠ .acked ∧ st ≠ .failed) : (c.blockPut c.current tries st).unsettled = c.unsettled ∧
      (c.blockPut c.current tries st).InOrder false := by
  obtain ⟨hlt, hall⟩ := h
  have hb := List.getElem?_eq_getElem hlt
  exact ⟨unsettled_blockPut hb ((hall _ _ hb).2.1 rfl rfl) tries hst,
    inOrder_blockPut hlt tries hst (fun j b hj hl => (hall j b hj).1 (.inl hl)) fun j b hj => (hall j b hj).2.2⟩

/-- R68: the call goes on to its next block. -/
theorem CallRecord.InOrder.next_step {c : CallRecord} (h : c.InOrder true) {b : BlockEntry}
    (hb : c.blocks[c.current + 1]? = some b) (tries : Nat) {st : BlockState} (hst : st ≠ .acked ∧ st ≠ .failed) :
    (c.blockPut (c.current + 1) tries st).unsettled = c.unsettled ∧ (c.blockPut (c.current + 1) tries st).InOrder false := by
  obtain ⟨-, hall⟩ := h
  have hq : b.state = .queued := (hall _ _ hb).2.2 (Nat.lt_succ_self _)
  refine ⟨unsettled_blockPut hb (by simp [BlockEntry.open, hq]) tries hst, inOrder_blockPut (List.getElem?_eq_some_iff.1 hb).1
    tries hst (fun j b hj hl => (hall j b hj).1 ?_) fun j b hj hl => (hall j b hj).2.2 (by omega)⟩
  rcases Nat.lt_succ_iff_lt_or_eq.1 hl with h | h
  · exact .inl h
  · exact .inr ⟨h, rfl⟩

/-- R68: behind the last acknowledged block nothing is left to settle. -/
theorem CallRecord.InOrder.settled {c : CallRecord} (h : c.InOrder true)
    (hn : ∀ b, c.blocks[c.current + 1]? = some b → b.state ≠ .queued) : c.unsettled = [] := by
  obtain ⟨-, hall⟩ := h
  have hacked (j : Nat) (b : BlockEntry) (hj : c.blocks[j]? = some b) : b.state = .acked := by
    rcases Nat.lt_trichotomy j c.current with hl | he | hl
    · exact (hall j b hj).1 (.inl hl)
    · exact (hall j b hj).1 (.inr ⟨he, rfl⟩)
    · have hlt : c.current + 1 < c.blocks.length := lt_of_le_of_lt hl (List.getElem?_eq_some_iff.1 hj).1
      have hb := List.getElem?_eq_getElem hlt
      exact absurd ((hall _ _ hb).2.2 (Nat.lt_succ_self _)) (hn _ hb)
  have : c.blocks.filter BlockEntry.open = [] := List.filter_eq_nil_iff.2 fun b hb => by
    obtain ⟨j, hj⟩ := List.getElem?_of_mem hb
    simp [BlockEntry.open, hacked j b hj]
  rw [CallRecord.unsettled, this]
  rfl

/-! ### Listening and sending -/

theorem acknowledged_eq_false {x : Engine} (h : x.phase ≠ .awaitAck ∨ x.step = .listen ∨ x.step = .none ∨ x.step = .resendGuard) :
    x.acknowledged = false := by
  rcases h with h | h | h | h <;> simp [Engine.acknowledged, h]

theorem kept_nameTones (s : State) (e : EngineId) (roles : List (ToneRole × ToneId)) (hp : (s.engine e).phase ≠ .idle) :
    Kept s (s.nameTones e roles) := by
  unfold State.nameTones
  refine kept_step s e _ hp rfl rfl fun hd => hd.load fun l hl => ?_
  obtain ⟨t, -, ht⟩ := List.mem_filterMap.1 hl
  rw [(loading_fresh ht).1.classifier]
  decide

theorem kept_enterDialTone (s : State) (e : EngineId) (ha : (s.engine e).acknowledged = false) :
    Kept s (s.enterDialTone e) :=
  .trans (kept_step s e _ (by simp) rfl (by rw [ha]; rfl)) (kept_nameTones _ _ _ (by simp))

theorem kept_enterAwaitAnswer (s : State) (e : EngineId) (r : RouteId) (ha : (s.engine e).acknowledged = false) :
    Kept s (s.enterAwaitAnswer e r) :=
  .trans (kept_step s e _ (by simp) rfl (by rw [ha]; rfl)) (kept_nameTones _ _ _ (by simp))

theorem kept_dialNext (s : State) (e : EngineId) (r : RouteId) (ha : (s.engine e).acknowledged = false)
    (hp : (s.engine e).phase ≠ .idle) : Kept s (s.dialNext e r) := by
  unfold State.dialNext
  split
  · exact kept_enterAwaitAnswer s e r ha
  · exact kept_step s e _ (by simp) rfl (by rw [ha]; rfl)
  · exact kept_step s e _ (by simp) rfl (by rw [ha]; rfl)
  · exact .trans (kept_step s e _ hp) (kept_enterDialTone _ e (by rw [engine_modEngine_same]; exact ha))

/-- The current block of a call comes into another state before its acknowledgement, the engine with it. -/
theorem kept_blockStep (s : State) (e : EngineId) (f : Engine → Engine) {tries : CallRecord → Nat} {st : BlockState}
    (hst : st ≠ .acked ∧ st ≠ .failed)
    (hw : (f (s.engine e)).work = (s.engine e).work.mapCall fun c => c.blockPut c.current (tries c) st)
    (hp : (f (s.engine e)).phase ≠ .idle) (ha : (s.engine e).acknowledged = false)
    (ha' : (f (s.engine e)).acknowledged = false) (hd : (f (s.engine e)).detector = (s.engine e).detector) :
    Kept s (s.modEngine e f) :=
  kept_modEngine s e f (.of_busy hp (.of_modCall hw fun _ => rfl) (by rw [hd]; exact id))
    (.of_modCall hw (fun _ => hp) (fun _ => rfl)
      (fun c _ ho => by rw [ha']; rw [ha] at ho; exact ho.current_step _ hst)
      fun c hc => handles_none_modify hc _ _)

theorem kept_enterAwaitAck (s : State) (e : EngineId) (r : RouteId) (ha : (s.engine e).acknowledged = false) :
    Kept s (s.enterAwaitAck e r) :=
  .trans (kept_blockStep s e _ (tries := CallRecord.tries) (st := .awaitAck) (by decide) rfl (by simp) ha rfl rfl)
    (kept_nameTones _ _ _ (by simp))

theorem kept_startSending (s : State) (e : EngineId) (ha : (s.engine e).acknowledged = false) :
    Kept s (s.startSending e) := by
  unfold State.startSending
  exact kept_blockStep s e _ (tries := fun c => c.tries + 1) (st := .sending) (by decide) rfl (by simp) ha rfl rfl

theorem modEngine_modEngine (s : State) (e : EngineId) (f g : Engine → Engine) :
    (s.modEngine e f).modEngine e g = s.modEngine e fun x => g (f x) := by cases e <;> rfl

/-- R68: the next block of a call is taken up and sent. -/
theorem kept_sendNext (s : State) (e : EngineId) (ha : (s.engine e).acknowledged = true)
    (hn : ∀ c, (s.engine e).work = .alertCall c → ∃ b, c.blocks[c.current + 1]? = some b) :
    Kept s ((s.modEngine e fun x => x.modCall fun c => { c with current := c.current + 1, tries := 0 }).startSending e) := by
  unfold State.startSending
  rw [modEngine_modEngine]
  have hw (w : Work) : ((w.mapCall fun c => { c with current := c.current + 1, tries := 0 }).mapCall fun c =>
      { c with tries := c.tries + 1, blocks := c.blocks.modify c.current fun b => { b with state := .sending } }) =
      w.mapCall fun c => c.blockPut (c.current + 1) 1 .sending := by cases w <;> rfl
  refine kept_modEngine s e _ (.of_busy (by simp) (.of_modCall (hw _) fun _ => rfl) id)
    (.of_modCall (hw _) (fun _ => by simp) (fun _ => rfl) (fun c hc ho => ?_) fun c hc => handles_none_modify hc _ _)
  obtain ⟨b, hb⟩ := hn c hc
  rw [ha] at ho
  exact ho.next_step hb 1 (by decide)

end Sys2Proof.Machine

namespace Sys2Proof.Machine

/-! ### The commands of one engine -/

theorem stopListening_engine (s : State) (e : EngineId) : (s.stopListening e).engine e =
    { s.engine e with listening := [], reports := [], detector := (s.engine e).detector.release fun _ => true } :=
  (stopListening_spec s e).2.2.1

theorem Engine.busy_of_acts {x : Engine} (h : x.acts = true) : x.phase ≠ .idle := by
  intro hp; simp [Engine.acts, hp] at h

theorem kept_enterGuard (s : State) (e : EngineId) (st : Step) (hp : (s.engine e).phase ≠ .idle)
    (ha : ({ s.engine e with step := st } : Engine).acknowledged = (s.engine e).acknowledged) : Kept s (s.enterGuard e st) := by
  refine (kept_stopListening s e).trans (kept_step _ e _ ?_ rfl ?_)
  all_goals rw [stopListening_engine]
  · exact hp
  · exact ha

theorem kept_dropReport (s : State) (e : EngineId) (r : Report) (hp : (s.engine e).phase ≠ .idle) : Kept s (s.dropReport e r) :=
  kept_step s e _ hp

theorem dropReport_engine (s : State) (e : EngineId) (r : Report) :
    (s.dropReport e r).engine e = { s.engine e with reports := (s.engine e).reports.erase r } :=
  engine_modEngine_same ..

/-- R56: a report taken, and what the engine makes of it where it stands as `here` says. -/
theorem kept_onMatched (s : State) (e : EngineId) (tone : ToneId) {here : Engine → Bool} {act : State → ToneRole → State}
    (hh : ∀ x rs, here { x with reports := rs } = here x)
    (h : ∀ m role, here (m.engine e) = true → (m.engine e).phase ≠ .idle → Kept m (act m role)) :
    Kept s (s.onMatched e tone here act) := by
  unfold State.onMatched
  dsimp only
  split
  · next hc =>
    have hp := Engine.busy_of_acts (Bool.and_eq_true_iff.1 hc).1
    have hdrop := kept_dropReport s e (.matched tone) hp
    split
    · exact hdrop
    · split
      · next hhere =>
        refine hdrop.trans (h _ _ ?_ ?_) <;> rw [dropReport_engine]
        · rw [hh]; exact hhere
        · exact hp
      · exact .refl s
  · exact .refl s

theorem kept_dialToneHeard (s : State) (e : EngineId) (c : CallRecord) (hp : (s.engine e).phase = .dialTone) :
    Kept s (s.dialToneHeard e c) := by
  refine .trans (.trans (kept_clearLineFailures s c.trunk) (kept_stopListening _ e)) (kept_dialNext _ e _ ?_ ?_)
  all_goals rw [stopListening_engine, engine_of_engines (clearLineFailures_engines s c.trunk)]
  · exact acknowledged_eq_false (.inl (by rw [hp]; decide))
  · rw [hp]; decide

theorem kept_dialToneMatched (s : State) (e : EngineId) (role : ToneRole) (hp : (s.engine e).phase = .dialTone) :
    Kept s (s.dialToneMatched e role) := by
  unfold State.dialToneMatched
  split
  · exact kept_dialToneHeard s e _ hp
  · exact kept_failCall s e _
  · exact .refl s

theorem kept_keepOnly (s : State) (e : EngineId) (role : ToneRole) (tone : ToneId) (hp : (s.engine e).phase ≠ .idle) :
    Kept s (s.keepOnly e role tone) :=
  .trans (kept_step s e _ hp) (kept_unload _ e _)

theorem keepOnly_engine (s : State) (e : EngineId) (role : ToneRole) (tone : ToneId) :
    (s.keepOnly e role tone).engine e =
      { (s.engine e).unloaded (fun l => l.tone != tone) with listening := [(role, tone)] } := by
  rw [State.keepOnly, (unload_spec _ e _).2.2.1, engine_modEngine_same]
  rfl

theorem kept_handshakeHeard (s : State) (e : EngineId) (tone : ToneId) (t : TrunkId)
    (hp : (s.engine e).phase = .awaitAnswer) : Kept s (s.handshakeHeard e tone t) := by
  have hne : (s.engine e).phase ≠ .awaitAck := by rw [hp]; decide
  refine (kept_keepOnly s e _ _ (by rw [hp]; decide)).trans (kept_step _ e _ ?_ rfl ?_ fun h => h.watch tone fun _ => rfl)
  all_goals rw [keepOnly_engine]
  · simp [Engine.unloaded, hp]
  · exact Eq.trans (acknowledged_eq_false (.inl hne)) (acknowledged_eq_false (x := s.engine e) (.inl hne)).symm

theorem kept_answerMatched (s : State) (e : EngineId) (tone : ToneId) (role : ToneRole)
    (hp : (s.engine e).phase = .awaitAnswer) : Kept s (s.answerMatched e tone role) := by
  unfold State.answerMatched
  split
  · split
    · exact kept_failCall s e _
    · exact kept_failCall s e _
    · exact kept_handshakeHeard s e tone _ hp
    · exact .refl s
  · exact .refl s

theorem kept_testToneHeard (s : State) (e : EngineId) (tone : ToneId) (t : TrunkId)
    (hp : (s.engine e).phase = .dialTone) : Kept s (s.testToneHeard e tone t) := by
  have hne : (s.engine e).phase ≠ .awaitAck := by rw [hp]; decide
  refine (kept_clearLineFailures s t).trans (kept_testStep _ e _ (g := fun r => { r with peak := 0 }) (fun _ => rfl) rfl
    ?_ ?_ fun h => h.watch tone fun _ => rfl)
  all_goals rw [engine_of_engines (clearLineFailures_engines s t)]
  · simp [hp]
  · exact Eq.trans (acknowledged_eq_false (.inl hne)) (acknowledged_eq_false (x := s.engine e) (.inl hne)).symm

theorem kept_testToneMatched (s : State) (e : EngineId) (tone : ToneId) (hp : (s.engine e).phase = .dialTone) :
    Kept s (s.testToneMatched e tone) := by
  unfold State.testToneMatched
  split
  · split
    · exact kept_testToneHeard s e tone _ hp
    · exact .refl s
  · exact .refl s

theorem kept_toneStopped (s : State) (e : EngineId) : Kept s (s.toneStopped e) := by
  unfold State.toneStopped
  split
  · next h =>
    simp only [Bool.and_eq_true, Bool.or_eq_true, decide_eq_true_eq] at h
    obtain ⟨hs, hp⟩ := h
    refine kept_enterGuard s e .guard (fun hi => ?_) ?_
    · rcases hp with hp | hp <;> cases hi.symm.trans hp
    · rcases hp with hp | hp <;> simp [Engine.acknowledged, hs, hp]
  · exact .refl s

theorem kept_absentTaken (e : EngineId) (tone : ToneId) (s : State) : Kept s (s.absentTaken e tone) := by
  unfold State.absentTaken
  dsimp only
  split
  · next h => exact (kept_dropReport s e _ (Engine.busy_of_acts (Bool.and_eq_true_iff.1 h).1)).trans (kept_toneStopped _ e)
  · exact .refl s

theorem kept_levelTaken (e : EngineId) (s : State) : Kept s (s.levelTaken e) := by
  unfold State.levelTaken
  dsimp only
  split
  · next r n _ =>
    split
    · next ha =>
      refine (kept_dropReport s e r (Engine.busy_of_acts ha)).trans
        (kept_testStep _ e _ (g := fun w => { w with peak := max w.peak n }) (fun _ => rfl) rfl ?_ rfl id)
      rw [dropReport_engine]
      exact Engine.busy_of_acts ha
    · exact .refl s
  · exact .refl s

/-! ### Seizing and the line -/

theorem kept_leaveSeize (s : State) (e : EngineId) (hp : (s.engine e).phase ≠ .idle)
    (ha : (s.engine e).acknowledged = false) : Kept s (s.leaveSeize e) := by
  unfold State.leaveSeize
  dsimp only
  have hcall (c : CallRecord) : Kept s (match (s.routeOr c.route).dialToneMode with
      | .wait => s.enterDialTone e
      | .blind => s.modEngine e fun x =>
        { x with phase := .dialTone, step := .blind, phaseTimer := some (blindTicks - s.loopWait e) }) := by
    split
    · exact kept_enterDialTone s e ha
    · exact kept_step s e _ (by simp) rfl (by rw [ha]; rfl)
  split
  · refine (kept_testStep s e _ (g := fun r => { r with loopDelay := s.loopWait e }) (fun _ => rfl) rfl hp rfl id).trans
      (kept_enterDialTone _ e ?_)
    rw [engine_modEngine_same]
    exact ha
  · exact hcall _
  · exact hcall _
  · exact .refl s

theorem kept_enterSeize (s : State) (e : EngineId) (t : TrunkId) (ha : (s.engine e).acknowledged = false) :
    Kept s (s.enterSeize e t) := by
  unfold State.enterSeize
  dsimp only
  have hseize : Kept s (s.modEngine e fun x =>
      { x with phase := .seize, step := .none, seize := true, seizeStart := some s.clock,
               phaseTimer := some (ticksOfMs s.siteOr.loopTimeout),
               work := x.work.mapTest fun r => { r with polarity := s.debounced t .v } }) :=
    kept_testStep s e _ (g := fun r => { r with polarity := s.debounced t .v }) (fun _ => rfl) rfl (by simp) (by rw [ha]; rfl) id
  refine hseize.trans ?_
  split
  · exact kept_failWork _ e _ _
  · split
    · refine kept_leaveSeize _ e ?_ ?_ <;> rw [engine_modEngine_same]
      · simp
      · rfl
    · exact .refl _

theorem kept_enterClear (s : State) (e : EngineId) (ha : (s.engine e).acknowledged = false) : Kept s (s.enterClear e) :=
  kept_step s e _ (by simp) rfl (by rw [ha]; rfl)

theorem kept_takenReported (s : State) (e : EngineId) (t : TrunkId) : Kept s (s.takenReported e t) := by
  unfold State.takenReported
  dsimp only
  split
  · next h =>
    simp only [Bool.and_eq_true, decide_eq_true_eq] at h
    have ha : (s.engine e).acknowledged = false := acknowledged_eq_false (.inl (by rw [h.1]; decide))
    have hcall (c : CallRecord) : Kept s (if c.fromOffice then s.enterClear e else s.enterSeize e t) := by
      split
      · exact kept_enterClear s e ha
      · exact kept_enterSeize s e t ha
    split
    · exact hcall _
    · exact hcall _
    · exact kept_enterSeize s e t ha
    · exact .refl s
  · exact .refl s

theorem Trunk.Fits.enterTaken {x : Trunk} {role : TrunkRole} (h : x.Fits role) (hs : x.state = .warning) :
    x.enterTaken.Fits role := by
  obtain rfl := h.shared_of_warning hs
  obtain ⟨-, hh, -, hg⟩ := h
  rw [hs] at hh hg
  exact ⟨rfl, by simp [Trunk.enterTaken, hh], by simp [Trunk.enterTaken], by simp [Trunk.enterTaken, hg]⟩

theorem kept_endWarning (s : State) (t : TrunkId) (hs : (s.trunk t).state = .warning) : Kept s (s.endWarning t) := by
  unfold State.endWarning
  dsimp only
  have hset := kept_setTrunk s t (s.trunk t).enterTaken (fun h => h.enterTaken hs) fun _ h => h
  split
  · exact hset.trans (kept_takenReported _ _ t)
  · exact hset

theorem kept_reevaluate (s : State) (t : TrunkId) : Kept s (s.reevaluate t) := by
  unfold State.reevaluate
  split
  · next hr =>
    have hset (hs : (s.trunk t).state = .idleOffice ∨ (s.trunk t).state = .officeBusy) :
        Kept s (s.setTrunk t (s.officeState t (s.trunk t))) := by
      have hfits (h : (s.trunk t).Fits (s.trunkRole t)) :
          (s.trunk t).holder = none ∧ (s.trunk t).warnTimer = none ∧ (s.trunk t).guard = .absent := by
        obtain ⟨-, hh, hw, hg⟩ := h
        rcases hs with hs | hs <;> rw [hs] at hh hw hg <;> simp_all
      refine kept_setTrunk s t _ (fun h => ?_) fun e he => ?_
      · rw [hr]
        exact officeState_fits s t (hfits h).1 (hfits h).2.1 (hfits h).2.2
      · rw [← he, State.officeState]
        split <;> rfl
    split
    · next hs =>
      split
      · exact hset (.inl hs)
      · exact .refl s
    · next hs =>
      split
      · exact .refl s
      · exact hset (.inr hs)
    · exact .refl s
  · exact .refl s

theorem kept_officeChanged (s before : State) (t : TrunkId) : Kept s (s.officeChanged before t) := by
  unfold State.officeChanged
  split
  · next h =>
    simp only [State.warningOver, Bool.and_eq_true, beq_iff_eq] at h
    exact kept_endWarning s t h.1
  · exact (kept_reevaluate s t).trans (kept_reportGrantable _ _ t)

theorem kept_takeDelivery {s s' : State} {t : TrunkId} {sig : LineSignal} {v : Bool}
    (h : s.takeDelivery t sig = some (v, s')) : Kept s s' := by
  unfold State.takeDelivery at h
  split at h
  · obtain ⟨-, rfl⟩ := Prod.mk.inj (Option.some.inj h)
    exact .of_still .of_quiet
  · cases h

theorem kept_onChange (s : State) (t : TrunkId) (sig : LineSignal) {f : State → Bool → State} (hf : ∀ s v, Kept s (f s v)) :
    Kept s (s.onChange t sig f) := by
  unfold State.onChange
  split
  · next v s' h =>
    split
    · exact (kept_takeDelivery h).trans (hf s' v)
    · exact kept_takeDelivery h
  · exact .refl s

theorem lineEngine_acts {s : State} {t : TrunkId} {e : EngineId} (h : s.lineEngine t = some e) : (s.engine e).acts = true := by
  unfold State.lineEngine at h
  split at h
  · split at h
    · next ha => obtain rfl := Option.some.inj h; exact ha
    · cases h
  · cases h

theorem kept_loopChanged (s : State) (e : EngineId) (t : TrunkId) (v : Bool) (hp : (s.engine e).phase ≠ .idle) :
    Kept s (s.loopChanged e t v) := by
  unfold State.loopChanged
  dsimp only
  split
  · next hs =>
    split
    · exact kept_leaveSeize s e hp (acknowledged_eq_false (.inl (by rw [hs]; decide)))
    · exact .refl s
  · split
    · exact kept_step s e _ hp
    · exact .refl s

theorem kept_lChange (s : State) (t : TrunkId) (v : Bool) : Kept s (s.lChange t v) := by
  unfold State.lChange
  split
  · next h => exact kept_loopChanged s _ t v (Engine.busy_of_acts (lineEngine_acts h))
  · exact kept_officeChanged s s t

theorem kept_ringTimer (s : State) (t : TrunkId) (n : Option Nat) : Kept s (s.setTrunk t { s.trunk t with ringTimer := n }) :=
  kept_setTrunk s t _ id fun _ h => h

theorem kept_gChange (s : State) (t : TrunkId) (v : Bool) : Kept s (s.gChange t v) :=
  (kept_ringTimer s t _).trans (kept_officeChanged _ s t)

theorem kept_vChange (s : State) (t : TrunkId) (v : Bool) : Kept s (s.vChange t v) := by
  unfold State.vChange
  split
  · split
    · split
      · exact .refl s
      · exact kept_failCall s _ _
    · exact .refl s
  · exact .refl s

theorem kept_faultAtEngine (s : State) (t : TrunkId) : Kept s (s.faultAtEngine t) := by
  unfold State.faultAtEngine
  split
  · split
    · exact kept_failWork s _ _ _
    · exact .refl s
  · exact .refl s

theorem kept_fChange (s : State) (t : TrunkId) (o : FaultOrder) (v : Bool) : Kept s (s.fChange t o v) := by
  unfold State.fChange
  split
  · split
    · exact (kept_cardFaultRise s t).trans (kept_faultAtEngine _ t)
    · exact (kept_faultAtEngine s t).trans (kept_cardFaultRise _ t)
  · exact .refl s

/-! ### Timers -/

theorem kept_onTimer (s : State) (e : EngineId) {here : Engine → Bool} {act : State → State}
    (h : here (s.engine e) = true → (s.engine e).phase ≠ .idle → Kept s (act s)) : Kept s (s.onTimer e here act) := by
  unfold State.onTimer
  dsimp only
  split
  · next hc =>
    simp only [Bool.and_eq_true] at hc
    exact h hc.2 (Engine.busy_of_acts hc.1.1)
  · exact .refl s

theorem kept_clearEnd (s : State) (e : EngineId) (hp : (s.engine e).phase = .clear) : Kept s (s.clearEnd e) := by
  unfold State.clearEnd
  split
  · exact kept_enterSeize s e _ (acknowledged_eq_false (.inl (by rw [hp]; decide)))
  · exact .refl s

theorem kept_blindEnd (s : State) (e : EngineId) (hp : (s.engine e).phase = .dialTone) : Kept s (s.blindEnd e) := by
  unfold State.blindEnd
  split
  · have hne : (s.engine e).phase ≠ .idle := by rw [hp]; decide
    refine (kept_step s e _ hne).trans (kept_dialNext _ e _ ?_ ?_)
    all_goals rw [engine_modEngine_same]
    · exact acknowledged_eq_false (.inl (by simp [hp]))
    · exact hne
  · exact .refl s

theorem kept_symbolDone (s : State) (e : EngineId) (c : CallRecord) : Kept s (s.symbolDone e c) := by
  unfold State.symbolDone
  split
  · next hp =>
    have hne : (s.engine e).phase ≠ .idle := by rw [hp]; decide
    refine (kept_step s e _ hne).trans (kept_dialNext _ e _ ?_ ?_)
    all_goals rw [engine_modEngine_same]
    · exact acknowledged_eq_false (.inl (by simp [hp]))
    · exact hne
  · next hp =>
    split
    · exact kept_step s e _ (by rw [hp]; decide)
    · exact kept_enterAwaitAck s e _ (acknowledged_eq_false (.inl (by rw [hp]; decide)))
  · exact .refl s

theorem kept_symbolEnd (e : EngineId) (s : State) : Kept s (s.symbolEnd e) := by
  unfold State.symbolEnd
  dsimp only
  split
  · split
    · exact kept_symbolDone s e _
    · exact .refl s
  · exact .refl s

theorem acknowledged_of_guard {x : Engine} (hp : x.phase = .awaitAck) (hs : x.step = .guard) : x.acknowledged = true := by
  simp [Engine.acknowledged, hp, hs]

theorem kept_nextBlock (s : State) (e : EngineId) {c : CallRecord} (hw : (s.engine e).work.call = some c)
    (ha : (s.engine e).acknowledged = true) : Kept s (s.nextBlock e c) := by
  have hc (d : CallRecord) (hd : (s.engine e).work = .alertCall d) : d = c := by
    rw [hd] at hw
    exact Option.some.inj hw
  unfold State.nextBlock
  split
  · next b hb =>
    split
    · exact kept_sendNext s e ha fun d hd => ⟨b, by rw [hc d hd]; exact hb⟩
    · next hq =>
      refine kept_finishCall s e fun d hd ho => ?_
      obtain rfl := hc d hd
      rw [ha] at ho
      exact ho.settled fun b' hb' => by rw [hb] at hb'; rwa [← Option.some.inj hb']
  · next hb =>
    refine kept_finishCall s e fun d hd ho => ?_
    obtain rfl := hc d hd
    rw [ha] at ho
    exact ho.settled fun b' hb' => by rw [hb] at hb'; cases hb'

theorem kept_guardDone (s : State) (e : EngineId) (hs : (s.engine e).step = .guard) : Kept s (s.guardDone e) := by
  unfold State.guardDone
  split
  · next hp _ => exact kept_startSending s e (acknowledged_eq_false (.inl (by rw [hp]; decide)))
  · next hp hw => exact kept_nextBlock s e hw (acknowledged_of_guard hp hs)
  · exact .refl s

theorem kept_ackTimedOut (s : State) (e : EngineId) (hp : (s.engine e).phase = .awaitAck) (hs : (s.engine e).step = .listen) :
    Kept s (s.ackTimedOut e) := by
  unfold State.ackTimedOut
  split
  · dsimp only
    refine (kept_stopListening s e).trans ?_
    split
    · exact kept_preemptStop _ e
    · split
      · refine kept_enterGuard _ e _ ?_ ?_ <;> rw [stopListening_engine]
        · simp [hp]
        · exact Eq.trans (acknowledged_eq_false (by simp)) (acknowledged_eq_false (x := s.engine e) (by simp [hs])).symm
      · exact kept_failCall _ e _
  · exact .refl s

theorem kept_loopLossEnd (e : EngineId) (s : State) : Kept s (s.loopLossEnd e) := by
  unfold State.loopLossEnd
  dsimp only
  split
  · exact kept_failWork s e _ _
  · exact .refl s

theorem kept_levelWindowEnd (s : State) (e : EngineId) : Kept s (s.levelWindowEnd e) := by
  unfold State.levelWindowEnd
  split
  · exact (kept_stopListening s e).trans (kept_endLineTest _ e _)
  · exact .refl s

theorem kept_abortTaken (e : EngineId) (s : State) : Kept s (s.abortTaken e) := by
  unfold State.abortTaken
  split
  · exact kept_abortEngine s e
  · exact .refl s

theorem kept_markTaken (e : EngineId) (s : State) : Kept s (s.markTaken e) := by
  unfold State.markTaken
  dsimp only
  split
  · exact kept_preemptStop s e
  · exact .refl s

theorem reaches_nothing {cause : AbortCause} {x : Engine} (h : x.IdleEmpty) (hr : cause.reaches x.work = true) :
    x.phase ≠ .idle := fun hp => by
  rw [(h hp).1] at hr
  cases cause <;> cases hr

/-- R72: an abort posted to an engine, taken in the step or later. -/
theorem kept_postAbort (s : State) (cause : AbortCause) (taken : EngineSet) (e : EngineId) : Kept s (s.postAbort cause taken e) := by
  unfold State.postAbort
  split
  · next h =>
    split
    · exact kept_abortEngine s e
    · exact kept_modEngine s e _
        ⟨id, fun hi hp => absurd hp (reaches_nothing (x := s.engine e) hi (Bool.and_eq_true_iff.1 h).1), .of_work rfl⟩ (.of_work rfl id rfl)
  · exact .refl s

theorem kept_postAborts (s : State) (cause : AbortCause) (taken : EngineSet) : Kept s (s.postAborts cause taken) :=
  foldl_kept (fun s e => kept_postAbort s cause taken e) engineIds s

theorem kept_warningTimerEnd (t : TrunkId) (s : State) : Kept s (s.warningTimerEnd t) := by
  unfold State.warningTimerEnd
  split
  · next h =>
    simp only [Bool.and_eq_true, beq_iff_eq] at h
    exact kept_endWarning s t h.2
  · exact .refl s

theorem kept_ringRecentEnd (t : TrunkId) (s : State) : Kept s (s.ringRecentEnd t) := by
  unfold State.ringRecentEnd
  split
  · exact (kept_ringTimer s t none).trans (kept_officeChanged _ s t)
  · exact .refl s

theorem kept_guardTimerEnd (t : TrunkId) (s : State) : Kept s (s.guardTimerEnd t) := by
  unfold State.guardTimerEnd
  split
  · next h =>
    simp only [Bool.and_eq_true, beq_iff_eq] at h
    exact kept_leaveCooldown s t h.2
  · exact .refl s

end Sys2Proof.Machine

namespace Sys2Proof.Machine

/-! ### The pre-emption check (R38, R39) -/

/-- What the check may do to an engine: it marks its call. -/
def Engine.MaybeMarked (x y : Engine) : Prop := y = x ∨ y = x.modCall fun c => { c with preempt := true }

theorem Engine.MaybeMarked.kept {x y : Engine} (h : x.MaybeMarked y) : EngineKept x y := by
  rcases h with rfl | rfl
  · exact .refl _
  · exact engineKept_modCall _ fun _ => rfl

theorem Engine.MaybeMarked.workKept {x y : Engine} (h : x.MaybeMarked y) : WorkKept x y := by
  rcases h with rfl | rfl
  · exact .refl _
  · exact .of_modCall rfl id (fun _ => rfl) (fun _ _ ho => ⟨rfl, ho⟩) fun _ h => h

/-- What the check leaves: the records in their calls, and every engine but for a mark. -/
structure State.Checked (s t : State) : Prop where
  localKept : LocalKept s t
  bound : ∀ e g, t.Bound e g ↔ s.Bound e g
  engine : ∀ e, (s.engine e).MaybeMarked (t.engine e)

theorem bound_moveTo (s : State) (h : Handle) (p : Nat) (e : EngineId) (g : Handle) :
    (s.updateRecord h (Record.moveTo · p)).Bound e g ↔ s.Bound e g :=
  bound_map (RecordMap.ite (f := (Record.moveTo · p)) ⟨fun r => (r.moveTo_keeps p).1, fun r => (r.moveTo_keeps p).2.1, fun r => (r.moveTo_keeps p).2.2.1⟩
    fun r => (r.handle == h) = true) (updateRecord_queue ..)
    (fun r _ f => by split <;> simp [(r.moveTo_keeps p).2.2.2.1]) e g

theorem bound_placeOnRoute {s s' : State} {h : Handle} {r : Record} {route : RouteId}
    (hs : s.placeOnRoute h = some (s', r, route)) (e : EngineId) (g : Handle) : s'.Bound e g ↔ s.Bound e g := by
  obtain ⟨_, p, -, -, -, -, rfl⟩ := placeOnRoute_eq hs
  exact bound_moveTo s h p e g

theorem urgentWaits_checked (refused hs : List Handle) (s : State) :
    LocalKept s (s.urgentWaits refused hs).1 ∧ ∀ e g, (s.urgentWaits refused hs).1.Bound e g ↔ s.Bound e g := by
  induction hs generalizing s with
  | nil => exact ⟨.refl s, fun _ _ => Iff.rfl⟩
  | cons h hs ih =>
    unfold State.urgentWaits
    split
    · exact ih s
    · next s' r route hp =>
      split
      · exact ⟨localKept_placeOnRoute hp, bound_placeOnRoute hp⟩
      · exact ⟨(localKept_placeOnRoute hp).trans (ih s').1, fun e g => ((ih s').2 e g).trans (bound_placeOnRoute hp e g)⟩

theorem preemptCheck_checked (s : State) (refused : List Handle) : s.Checked (s.preemptCheck refused) := by
  unfold State.preemptCheck
  split
  · split
    · exact ⟨.refl s, fun _ _ => Iff.rfl, fun _ => .inl rfl⟩
    · next e n _ =>
      obtain ⟨hl, hb⟩ := urgentWaits_checked refused (s.queue.map Record.handle) s
      have he (f : EngineId) : (s.urgentWaits refused (s.queue.map Record.handle)).1.engine f = s.engine f :=
        engine_of_engines (urgentWaits_engines ..) f
      dsimp only
      split
      · refine ⟨hl.trans (.trans (localKept_modEngine _ e _ (Engine.MaybeMarked.kept (.inr rfl))) (localKept_dsc _ _)),
          fun f g => (bound_congr (markCall_queue _ _) f g).trans (hb f g), fun f => ?_⟩
        show (s.engine f).MaybeMarked ((State.modEngine _ e _).engine f)
        rw [engine_modEngine]
        split
        · next hf => rw [hf, he]; exact .inr rfl
        · exact .inl (he f)
      · exact ⟨hl, hb, fun f => .inl (he f)⟩
  · exact ⟨.refl s, fun _ _ => Iff.rfl, fun _ => .inl rfl⟩

theorem kept_preemptCheck (s : State) (refused : List Handle) : Kept s (s.preemptCheck refused) :=
  have h := preemptCheck_checked s refused
  .of_local h.localKept (fun _ => h.bound) fun e => (h.engine e).workKept

theorem State.Checked.bounded {s t : State} (h : s.Checked t) {e : EngineId} (hb : s.Bounded e) : t.Bounded e := by
  have hwork : ∀ c', (t.engine e).work = .alertCall c' → ∃ c, (s.engine e).work = .alertCall c ∧ c'.unsettled = c.unsettled := by
    intro c' hc'
    rcases h.engine e with he | he
    · exact ⟨c', he ▸ hc', rfl⟩
    · rw [he] at hc'
      obtain ⟨c, hc⟩ := Engine.MaybeMarked.workKept (.inr rfl) |>.back c' hc'
      refine ⟨c, hc, ?_⟩
      rw [Engine.modCall, hc] at hc'
      rw [← Work.alertCall.inj hc']
      rfl
  refine ⟨fun g => ?_, fun c' hc' => ?_, State.CallHolds.kept (h.bound _) (h.engine _).workKept hb.other⟩
  · rw [h.bound, hb.bound]
    constructor
    · rintro ⟨c, hc, hg⟩
      rcases h.engine e with he | he
      · exact ⟨c, he ▸ hc, hg⟩
      · exact ⟨{ c with preempt := true }, by rw [he, Engine.modCall, hc]; rfl, hg⟩
    · rintro ⟨c', hc', hg⟩
      obtain ⟨c, hc, hu⟩ := hwork c' hc'
      exact ⟨c, hc, hu ▸ hg⟩
  · obtain ⟨c, hc, hu⟩ := hwork c' hc'
    exact hu ▸ hb.nodup c hc

/-! ### The acknowledgement of a block (R68, R21) -/

/-- The record of an acknowledged block leaves the queue. -/
theorem bound_deliverRecord {s : State} (hq : QueueSound s) {e : EngineId} {h : Handle} (hb : s.Bound e h) (route : RouteId)
    (f : EngineId) (g : Handle) : (s.deliverRecord h route).Bound f g ↔ s.Bound f g ∧ g ≠ h := by
  obtain ⟨r, hr, rfl, hs⟩ := hb
  have hd : (s.deliverRecord r.handle route).queue = s.queue.filter fun x => x.handle != r.handle := by
    simp [State.deliverRecord, hq.findRecord_of_mem hr, hs, RecordState.isInCall, State.removeRecord]
  unfold State.Bound
  rw [hd]
  constructor
  · rintro ⟨x, hx, rfl, hf⟩
    obtain ⟨hx, hne⟩ := List.mem_filter.1 hx
    exact ⟨⟨x, hx, rfl, hf⟩, by simpa using hne⟩
  · rintro ⟨⟨x, hx, rfl, hf⟩, hne⟩
    exact ⟨x, List.mem_filter.2 ⟨hx, by simpa using hne⟩, rfl, hf⟩

/-- A record is in one call. -/
theorem State.Bound.unique {s : State} (hq : QueueSound s) {e f : EngineId} {h : Handle} (he : s.Bound e h) (hf : s.Bound f h) :
    e = f := by
  obtain ⟨r, hr, hrh, hrs⟩ := he
  obtain ⟨x, hx, hxh, hxs⟩ := hf
  rw [hq.eq_of_handle hx hr (hxh.trans hrh.symm), hrs] at hxs
  exact RecordState.inCall.inj hxs

/-- The blocks with the one at `i` acknowledged: its handle is no longer among those to settle. -/
theorem openHandles_acked {bs : List BlockEntry} {i : Nat} {b : BlockEntry} (hb : bs[i]? = some b) (ho : b.open = true)
    (hbefore : ∀ j a, bs[j]? = some a → j < i → a.state = .acked) :
    (bs.filter BlockEntry.open).filterMap BlockEntry.handle = b.handle.toList ++
      ((bs.modify i fun b => { b with state := .acked }).filter BlockEntry.open).filterMap BlockEntry.handle := by
  induction bs generalizing i with
  | nil => cases hb
  | cons a as ih =>
    cases i with
    | zero =>
      obtain rfl : a = b := by simpa using hb
      have hacked : BlockEntry.open { a with state := .acked } = false := rfl
      rw [List.modify_zero_cons, List.filter_cons_of_pos ho, List.filter_cons_of_neg (by rw [hacked]; decide)]
      cases ha : a.handle <;> simp [ha]
    | succ i =>
      have hacked : a.open = false := by simp [BlockEntry.open, hbefore 0 a rfl (Nat.succ_pos i)]
      have := ih (i := i) (by simpa using hb) fun j c hj hlt => hbefore (j + 1) c (by simpa using hj) (Nat.succ_lt_succ hlt)
      simpa [hacked] using this

def CallRecord.currentAcked (c : CallRecord) : CallRecord :=
  { c with blocks := c.blocks.modify c.current fun b => { b with state := .acked } }

theorem CallRecord.InOrder.acked {c : CallRecord} (h : c.InOrder false) : c.currentAcked.InOrder true := by
  obtain ⟨hlt, hall⟩ := h
  refine ⟨by simpa [CallRecord.currentAcked] using hlt, fun j b hj => ?_⟩
  simp only [CallRecord.currentAcked, List.getElem?_modify] at hj ⊢
  obtain ⟨a, ha, rfl⟩ := Option.map_eq_some_iff.1 hj
  refine ⟨fun hle => ?_, fun _ hf => ?_, fun hgt => ?_⟩
  · split
    · rfl
    · next hne =>
      exact (hall j a ha).1 (.inl (hle.resolve_right fun hj => hne hj.1.symm))
  · cases hf
  · rw [if_neg (by omega)]
    exact (hall j a ha).2.2 hgt

theorem CallRecord.InOrder.acked_unsettled {c : CallRecord} (h : c.InOrder false) :
    ∃ b, c.blocks[c.current]? = some b ∧ c.unsettled = b.handle.toList ++ c.currentAcked.unsettled := by
  obtain ⟨hlt, hall⟩ := h
  have hb := List.getElem?_eq_getElem hlt
  exact ⟨_, hb, openHandles_acked hb ((hall _ _ hb).2.1 rfl rfl) fun j a hj hl => (hall j a hj).1 (.inl hl)⟩

theorem ackBlock_engine_same (s : State) (e : EngineId) (c : CallRecord) :
    (s.ackBlock e c).engine e = (s.engine e).modCall CallRecord.currentAcked := by
  unfold State.ackBlock
  dsimp only
  split
  · rw [engine_of_engines (deliverRecord_engines _ _ _), engine_modEngine_same]; rfl
  · rw [engine_modEngine_same]; rfl

theorem ackBlock_engine_other (s : State) {e f : EngineId} (hf : f ≠ e) (c : CallRecord) :
    (s.ackBlock e c).engine f = s.engine f := by
  unfold State.ackBlock
  dsimp only
  split
  · rw [engine_of_engines (deliverRecord_engines _ _ _), engine_modEngine_other _ _ hf]
  · rw [engine_modEngine_other _ _ hf]

theorem localKept_ackBlock (s : State) (e : EngineId) (c : CallRecord) : LocalKept s (s.ackBlock e c) := by
  unfold State.ackBlock
  dsimp only
  have hmod := localKept_modEngine s e (fun x => x.modCall CallRecord.currentAcked) (engineKept_modCall _ fun _ => rfl)
  split
  · exact hmod.trans (localKept_deliverRecord _ _ _)
  · exact hmod

theorem ackBlock_held (s : State) (e : EngineId) (c : CallRecord) (h : TrunksSound s) (k : HoldersSound s) :
    TrunksSound (s.ackBlock e c) ∧ HoldersSound (s.ackBlock e c) := by
  have htrunks : (s.ackBlock e c).trunks = s.trunks := by
    unfold State.ackBlock; dsimp only; split <;> simp
  have htables : (s.ackBlock e c).tables = s.tables := by
    unfold State.ackBlock; dsimp only; split <;> simp
  refine held_of (by rw [htables]) (fun u hu => by rwa [trunk_of_trunks htrunks]) (fun u f hf => by rwa [trunk_of_trunks htrunks] at hf)
    (fun f => ?_) h k
  rcases other_or e f with rfl | rfl
  · rw [ackBlock_engine_same]
    exact ⟨id, mapCall_trunk _ _ fun _ => rfl⟩
  · rw [ackBlock_engine_other _ (other_ne e)]
    exact ⟨id, rfl⟩

/-- R68: the calls after a block's acknowledgement, before the engine's step says so. -/
theorem bounded_ackBlock {s : State} (hq : QueueSound s) (hc : CallsHoldRecords s) {e : EngineId} {c : CallRecord}
    (hw : (s.engine e).work.call = some c) (ha : (s.engine e).acknowledged = false) :
    (s.ackBlock e c).Bounded e ∧ (∀ d, ((s.ackBlock e c).engine e).work = .alertCall d → d.InOrder true) ∧
      ∀ d, ((s.ackBlock e c).engine e).work = .testCall d → ∀ b ∈ d.blocks, b.handle = none := by
  rw [ackBlock_engine_same]
  obtain ⟨hbound, halert, htest⟩ : s.CallHolds e := hc e
  have hother (hb : ∀ g, (s.ackBlock e c).Bound (other e) g ↔ s.Bound (other e) g) : (s.ackBlock e c).CallHolds (other e) :=
    State.CallHolds.kept hb (by rw [ackBlock_engine_other _ (other_ne e)]; exact .refl _) (hc (other e))
  cases hwork : (s.engine e).work with
  | nothing => rw [hwork] at hw; cases hw
  | lineTest r => rw [hwork] at hw; cases hw
  | testCall d =>
    obtain rfl : d = c := by rw [hwork] at hw; exact Option.some.inj hw
    have hnone : (d.blocks[d.current]?).bind BlockEntry.handle = none := by
      cases hb : d.blocks[d.current]? with
      | none => rfl
      | some b => exact htest d hwork b (List.mem_of_getElem? hb)
    have hqueue : (s.ackBlock e d).queue = s.queue := by simp [State.ackBlock, hnone]
    have hnothing (g : Handle) : ¬ s.Bound e g := fun h => by
      obtain ⟨c', hc', -⟩ := (hbound g).1 h
      rw [hwork] at hc'
      cases hc'
    refine ⟨⟨fun g => ?_, fun d' hd' => ?_, hother fun g => bound_congr hqueue _ g⟩, fun d' hd' => ?_, fun d' hd' => ?_⟩
    · refine iff_of_false (fun h => hnothing g ((bound_congr hqueue e g).1 h)) ?_
      rintro ⟨d', hd', -⟩
      rw [ackBlock_engine_same, Engine.modCall, hwork] at hd'
      cases hd'
    · rw [ackBlock_engine_same, Engine.modCall, hwork] at hd'; cases hd'
    · rw [Engine.modCall, hwork] at hd'; cases hd'
    · rw [Engine.modCall, hwork] at hd'
      obtain rfl := Work.testCall.inj hd'
      exact handles_none_modify (htest d hwork) _ _
  | alertCall d =>
    obtain rfl : d = c := by rw [hwork] at hw; exact Option.some.inj hw
    obtain ⟨hnodup, horder⟩ := halert d hwork
    rw [ha] at horder
    obtain ⟨b, hb, hu⟩ := horder.acked_unsettled
    have hmod : (s.ackBlock e d).engine e = { s.engine e with work := .alertCall d.currentAcked } := by
      rw [ackBlock_engine_same, Engine.modCall, hwork]; rfl
    have hbound' (g : Handle) : s.Bound e g ↔ g ∈ d.unsettled := by
      rw [hbound g, hwork]
      exact ⟨fun ⟨c', hc', hg⟩ => by rwa [Work.alertCall.inj hc'], fun hg => ⟨d, rfl, hg⟩⟩
    have key : (∀ g, (s.ackBlock e d).Bound e g ↔ g ∈ d.currentAcked.unsettled) ∧
        ∀ g, (s.ackBlock e d).Bound (other e) g ↔ s.Bound (other e) g := by
      cases hh : b.handle with
      | none =>
        have hqueue : (s.ackBlock e d).queue = s.queue := by simp [State.ackBlock, hb, hh]
        rw [hh] at hu
        exact ⟨fun g => by rw [bound_congr hqueue, hbound', hu]; rfl, fun g => bound_congr hqueue _ g⟩
      | some h =>
        rw [hh] at hu
        have hb' : s.Bound e h := (hbound' h).2 (by rw [hu]; simp)
        have hqueue : (s.ackBlock e d).queue = (s.deliverRecord h d.route).queue := by
          simp [State.ackBlock, hb, hh, State.deliverRecord, State.findRecord, State.removeRecord]
          split <;> simp [apply_ite State.queue]
        have hdeliver (f : EngineId) (g : Handle) : (s.ackBlock e d).Bound f g ↔ s.Bound f g ∧ g ≠ h :=
          (bound_congr hqueue f g).trans (bound_deliverRecord hq hb' d.route f g)
        have hnh : h ∉ d.currentAcked.unsettled := by
          rw [hu] at hnodup
          exact (List.nodup_cons.1 hnodup).1
        refine ⟨fun g => ?_, fun g => ?_⟩
        · rw [hdeliver, hbound', hu]
          simp only [Option.toList_some, List.singleton_append, List.mem_cons]
          exact ⟨fun ⟨hg, hne⟩ => hg.resolve_left hne, fun hg => ⟨.inr hg, fun he => hnh (he ▸ hg)⟩⟩
        · rw [hdeliver]
          refine ⟨And.left, fun hg => ⟨hg, ?_⟩⟩
          rintro rfl
          exact other_ne e (hg.unique hq hb')
    have halert' (d' : CallRecord) (hd' : ((s.ackBlock e d).engine e).work = .alertCall d') : d' = d.currentAcked := by
      rw [hmod] at hd'
      exact (Work.alertCall.inj hd').symm
    rw [← ackBlock_engine_same s e d]
    refine ⟨⟨fun g => ?_, fun d' hd' => ?_, hother key.2⟩, fun d' hd' => ?_, fun d' hd' => ?_⟩
    · rw [key.1, hmod]
      exact ⟨fun hg => ⟨_, rfl, hg⟩, fun ⟨c', hc', hg⟩ => by rwa [Work.alertCall.inj hc']⟩
    · rw [halert' d' hd']
      rw [hu] at hnodup
      exact (List.nodup_append.1 hnodup).2.1
    · rw [halert' d' hd']
      exact horder.acked
    · rw [hmod] at hd'; cases hd'

theorem kept_ackHeard (s : State) (e : EngineId) (tone : ToneId) {c : CallRecord} (hw : (s.engine e).work.call = some c)
    (hp : (s.engine e).phase = .awaitAck) (hs : (s.engine e).step = .listen) : Kept s (s.ackHeard e tone c) := by
  have htimer : Kept s (s.modEngine e fun x => { x with phaseTimer := none }) := kept_step s e _ (by simp [hp])
  unfold State.ackHeard
  dsimp only
  refine htimer.trans ?_
  have hp' : ((s.modEngine e fun x => { x with phaseTimer := none }).engine e).phase = .awaitAck := by
    rw [engine_modEngine_same]; exact hp
  have hs' : ((s.modEngine e fun x => { x with phaseTimer := none }).engine e).step = .listen := by
    rw [engine_modEngine_same]; exact hs
  have hw' : ((s.modEngine e fun x => { x with phaseTimer := none }).engine e).work.call = some c := by
    rw [engine_modEngine_same]; exact hw
  generalize s.modEngine e (fun x => { x with phaseTimer := none }) = m at *
  have ha : (m.engine e).acknowledged = false := acknowledged_eq_false (.inr (.inl hs'))
  have hcheck := preemptCheck_checked (m.ackBlock e c) []
  have hlocal := (localKept_ackBlock m e c).trans hcheck.localKept
  have hheld (h : TrunksSound m) (k : HoldersSound m) := (kept_preemptCheck (m.ackBlock e c) []).held
    (ackBlock_held m e c h k).1 (ackBlock_held m e c h k).2
  have hbounded (hq : QueueSound m) (hc : CallsHoldRecords m) := hcheck.bounded (bounded_ackBlock hq hc hw' ha).1
  have hphase : (((m.ackBlock e c).preemptCheck []).engine e).phase = .awaitAck := by
    rcases hcheck.engine e with he | he <;> rw [he, ackBlock_engine_same] <;> exact hp'
  split
  · have hstop := kept_preemptStop ((m.ackBlock e c).preemptCheck []) e
    exact ⟨hlocal.trans hstop.toLocalKept, fun h k => hstop.held (hheld h k).1 (hheld h k).2,
      fun hq _ hc => calls_preemptStop (hlocal.queue hq) (hbounded hq hc)⟩
  · have hne : (((m.ackBlock e c).preemptCheck []).engine e).phase ≠ .idle := by rw [hphase]; decide
    refine ⟨hlocal.trans (localKept_modEngine _ e _ (.of_busy hne (.of_work rfl) fun h => h.watch tone fun _ => rfl)),
      fun h k => ?_, fun hq _ hc f => ?_⟩
    · refine held_of (s := (m.ackBlock e c).preemptCheck []) (by simp) (fun u hu => by simpa using hu) (fun u f hf => by simpa using hf)
        (fun f => ?_) (hheld h k).1 (hheld h k).2
      rw [engine_modEngine]
      split
      · next hf => subst hf; exact ⟨id, rfl⟩
      · exact ⟨id, rfl⟩
    · obtain ⟨-, horder, htest⟩ := bounded_ackBlock hq hc hw' ha
      have hb := hbounded hq hc
      rcases other_or e f with rfl | rfl
      · have hbound := bound_congr (modEngine_queue ((m.ackBlock f c).preemptCheck []) f fun x =>
          { x with step := .toneHeard
                   phaseTimer := some (ticksOfTenths (((m.ackBlock f c).preemptCheck []).routeOr c.route).ackTimeout)
                   detector := x.detector.watch tone Loading.watchAbsence }) f
        refine ⟨fun g => ?_, fun d hd => ?_, fun d hd => ?_⟩
        · rw [engine_modEngine_same]
          exact (hbound g).trans (hb.bound g)
        · rw [engine_modEngine_same] at hd ⊢
          have hack : ({ ((m.ackBlock f c).preemptCheck []).engine f with
              step := .toneHeard
              phaseTimer := some (ticksOfTenths (((m.ackBlock f c).preemptCheck []).routeOr c.route).ackTimeout)
              detector := (((m.ackBlock f c).preemptCheck []).engine f).detector.watch tone Loading.watchAbsence } : Engine).acknowledged =
              true := by simp [Engine.acknowledged, hphase]
          rw [hack]
          refine ⟨hb.nodup d hd, ?_⟩
          rcases hcheck.engine f with he | he
          · exact horder d (he ▸ hd)
          · have hd : (((m.ackBlock f c).engine f).modCall fun c => { c with preempt := true }).work = .alertCall d := he ▸ hd
            obtain ⟨d', hd'⟩ := (Engine.MaybeMarked.workKept (.inr rfl)).back d hd
            rw [Engine.modCall, hd'] at hd
            rw [← Work.alertCall.inj hd]
            exact horder d' hd'
        · rw [engine_modEngine_same] at hd
          rcases hcheck.engine f with he | he
          · exact htest d (he ▸ hd)
          · have hd : (((m.ackBlock f c).engine f).modCall fun c => { c with preempt := true }).work = .testCall d := he ▸ hd
            obtain ⟨d', hd', hn⟩ := (Engine.MaybeMarked.workKept (.inr rfl)).test d hd
            exact hn (htest d' hd')
      · refine State.CallHolds.kept (bound_congr (modEngine_queue _ _ _) _) ?_ hb.other
        rw [engine_modEngine_other _ _ (other_ne e)]
        exact .refl _

theorem kept_ackMatched (s : State) (e : EngineId) (tone : ToneId) (hp : (s.engine e).phase = .awaitAck) :
    Kept s (s.ackMatched e tone) := by
  unfold State.ackMatched
  split
  · next hs =>
    split
    · next hw => exact kept_ackHeard s e tone hw hp hs
    · exact .refl s
  · exact .refl s

end Sys2Proof.Machine

namespace Sys2Proof.Machine

/-! ### Selections: calls and tests that start (R29 to R34, R155, R158) -/

theorem firstIdle_idle {s : State} {e : EngineId} (h : s.firstIdle = some e) : (s.engine e).phase = .idle := by
  simpa [State.idleEngine] using List.find?_some h

theorem callOn_congr {s t : State} (h : t.engines = s.engines) (r : RouteId) : t.callOn r = s.callOn r := by
  unfold State.callOn
  simp [engine_of_engines h]

theorem earliestBusy_mem (s : State) {ts : List TrunkId} {t : TrunkId} (h : s.earliestBusy ts = some t) : t ∈ ts := by
  induction ts generalizing t with
  | nil => cases h
  | cons u us ih =>
    unfold State.earliestBusy at h
    split at h
    · obtain rfl := Option.some.inj h; exact .head _
    · next v hv =>
      split at h
      · obtain rfl := Option.some.inj h; exact .tail _ (ih hv)
      · obtain rfl := Option.some.inj h; exact .head _

/-- R103: the trunk granted is grantable. -/
theorem chooseTrunk_grantable {s : State} {m : PreemptMode} {t : TrunkId} (h : s.chooseTrunk m = some t) :
    s.grantable m t = true := by
  unfold State.chooseTrunk at h
  dsimp only at h
  have hfree {u : TrunkId} (hu : u ∈ (List.finRange 8).filter (s.grantable m)) : s.grantable m u = true :=
    (List.mem_filter.1 hu).2
  split at h
  · next hf => obtain rfl := Option.some.inj h; exact hfree (List.mem_of_find?_eq_some hf)
  · split at h
    · next hf => obtain rfl := Option.some.inj h; exact hfree (List.mem_of_find?_eq_some hf)
    · exact hfree (List.mem_filter.1 (earliestBusy_mem s h)).1

/-- A trunk a call may be given. -/
def Trunk.Open (x : Trunk) : Prop := x.state = .idleReserved ∨ x.state = .idleOffice ∨ x.state = .officeBusy

theorem open_of_grantable {s : State} {m : PreemptMode} {t : TrunkId} (h : s.grantable m t = true) :
    (s.trunk t).Open ∧ (m = .none → (s.trunk t).state ≠ .officeBusy) := by
  unfold State.grantable at h
  rw [Trunk.Open]
  cases hs : (s.trunk t).state <;> simp_all

theorem open_of_lineTestGrantable {s : State} {t : TrunkId} (h : s.lineTestGrantable t = true) : (s.trunk t).Open := by
  unfold State.lineTestGrantable at h
  rw [Trunk.Open]
  cases hs : (s.trunk t).state <;> simp_all

theorem Trunk.Fits.open_free {x : Trunk} {role : TrunkRole} (h : x.Fits role) (ho : x.Open) :
    x.holder = none ∧ x.warnTimer = none ∧ x.guard = .absent := by
  obtain ⟨-, hh, hw, hg⟩ := h
  rcases ho with hs | hs | hs <;> rw [hs] at hh hw hg <;> simp_all

theorem Trunk.Fits.taken {x : Trunk} {role : TrunkRole} (h : x.Fits role) (ho : x.Open) (e : EngineId) :
    ({ x.enterTaken with holder := some e } : Trunk).Fits role := by
  obtain ⟨-, -, hg⟩ := h.open_free ho
  obtain ⟨hr, -⟩ := h
  refine ⟨?_, by simp [Trunk.enterTaken], by simp [Trunk.enterTaken], by simp [Trunk.enterTaken, hg]⟩
  rcases ho with hs | hs | hs <;> rw [hs] at hr <;> cases role <;> simp_all [roleAllows, Trunk.enterTaken]

theorem Trunk.Fits.grant {x : Trunk} {role : TrunkRole} (h : x.Fits role) (ho : x.Open) (e : EngineId) (m : PreemptMode) (n : Nat) :
    (x.grant e m n).Fits role := by
  unfold Trunk.grant
  split
  · next hc =>
    simp only [Bool.and_eq_true, decide_eq_true_eq] at hc
    obtain ⟨-, -, hg⟩ := h.open_free ho
    obtain ⟨hr, -⟩ := h
    rw [hc.1.1] at hr
    refine ⟨?_, by simp, by simp, by simp [hg]⟩
    cases role <;> simp_all [roleAllows]
  · exact h.taken ho e

theorem grant_holder (x : Trunk) (e : EngineId) (m : PreemptMode) (n : Nat) : (x.grant e m n).holder = some e := by
  unfold Trunk.grant; split <;> rfl

theorem grantTrunk_trunks (s : State) (t : TrunkId) (e : EngineId) (m : PreemptMode) (n : Nat) (c : ClassId) :
    (s.grantTrunk t e m n c).trunks = (s.setTrunk t ((s.trunk t).grant e m n)).trunks := by
  unfold State.grantTrunk
  dsimp only
  split <;> split <;> simp [State.setTrunk]

/-- Trunk `t` has been given to engine `e`, the other trunks left. -/
structure State.TrunkGiven (s m : State) (t : TrunkId) (e : EngineId) : Prop where
  tables : m.tables = s.tables
  fits : (s.trunk t).Fits (s.trunkRole t) → (m.trunk t).Fits (s.trunkRole t)
  holder : (m.trunk t).holder = some e
  others : ∀ u, u ≠ t → m.trunk u = s.trunk u

theorem trunkGiven_grantTrunk (s : State) {t : TrunkId} (ho : (s.trunk t).Open) (e : EngineId) (m : PreemptMode) (n : Nat)
    (c : ClassId) : s.TrunkGiven (s.grantTrunk t e m n c) t e where
  tables := by simp
  fits h := by
    rw [trunk_of_trunks (grantTrunk_trunks s t e m n c), trunk_setTrunk_same]
    exact h.grant ho e m n
  holder := by rw [trunk_of_trunks (grantTrunk_trunks s t e m n c), trunk_setTrunk_same, grant_holder]
  others u hu := by rw [trunk_of_trunks (grantTrunk_trunks s t e m n c), trunk_setTrunk_other _ _ hu]

theorem State.TrunkGiven.of_still {s m k : State} {t : TrunkId} {e : EngineId} (h : s.TrunkGiven m t e)
    (ht : k.trunks = m.trunks := by simp) (hr : k.tables = m.tables := by simp) : s.TrunkGiven k t e :=
  ⟨hr.trans h.tables, fun hf => trunk_of_trunks ht t ▸ h.fits hf, trunk_of_trunks ht t ▸ h.holder,
    fun u hu => trunk_of_trunks ht u ▸ h.others u hu⟩

theorem State.TrunkGiven.sound {s m : State} {t : TrunkId} {e : EngineId} (h : s.TrunkGiven m t e) (hs : TrunksSound s) :
    TrunksSound m := by
  rw [trunksSound_iff] at hs ⊢
  intro u
  have hrole : m.trunkRole u = s.trunkRole u := trunkRole_congr (by rw [h.tables]) u
  rw [hrole]
  by_cases hu : u = t
  · subst hu; exact h.fits (hs u)
  · rw [h.others u hu]; exact hs u

/-- R73, R98: the trunk goes to an engine that was IDLE and now holds work on it. -/
theorem State.TrunkGiven.held {s m : State} {t : TrunkId} {e : EngineId} (h : s.TrunkGiven m t e)
    (hi : (s.engine e).phase = .idle) (hp : (m.engine e).phase ≠ .idle) (hw : (m.engine e).work.trunk = some t)
    (ho : m.engine (other e) = s.engine (other e)) (hs : TrunksSound s) (hh : HoldersSound s) :
    TrunksSound m ∧ HoldersSound m := by
  refine ⟨h.sound hs, fun u f hf => ?_⟩
  by_cases hu : u = t
  · subst hu
    obtain rfl : e = f := Option.some.inj (h.holder.symm.trans hf)
    exact ⟨hp, hw⟩
  · rw [h.others u hu] at hf
    have := hh u f hf
    rcases other_or e f with rfl | rfl
    · exact absurd hi this.1
    · rw [ho]; exact this

/-- A trunk given and given back at once. -/
theorem State.TrunkGiven.released {s m : State} {t : TrunkId} {e : EngineId} (h : s.TrunkGiven m t e)
    (he : m.engines = s.engines) (hs : TrunksSound s) (hh : HoldersSound s) :
    TrunksSound (m.releaseTrunk t e) ∧ HoldersSound (m.releaseTrunk t e) := by
  have hm := h.sound hs
  have hset {x : Trunk} (hf : x.Fits (m.trunkRole t)) (hn : x.holder = none) :
      TrunksSound (m.setTrunk t x) ∧ HoldersSound (m.setTrunk t x) := by
    refine ⟨fun u => ?_, fun u f hu => ?_⟩
    · have hrole : (m.setTrunk t x).trunkRole u = m.trunkRole u := trunkRole_congr (by simp) u
      rw [hrole]
      by_cases hu : u = t
      · subst hu; rw [trunk_setTrunk_same]; exact hf
      · rw [trunk_setTrunk_other _ _ hu]; exact hm u
    · by_cases hut : u = t
      · subst hut; rw [trunk_setTrunk_same, hn] at hu; cases hu
      · rw [trunk_setTrunk_other _ _ hut, h.others u hut] at hu
        rw [engine_of_engines (setTrunk_engines _ _ _), engine_of_engines he]
        exact hh u f hu
  have hft := (trunksSound_iff m).1 hm t
  unfold State.releaseTrunk
  rw [if_pos h.holder]
  split
  · next hw =>
    have hx := hset (x := m.officeState t { m.trunk t with holder := none, warnTimer := none })
      (by
        rw [hft.shared_of_warning hw]
        exact officeState_fits m t rfl rfl (hft.2.2.2.2 (by rw [hw]; decide)))
      (by unfold State.officeState; split <;> rfl)
    have hend := (kept_endUse (m.setTrunk t (m.officeState t { m.trunk t with holder := none, warnTimer := none })) (.trunk t)).held hx.1 hx.2
    exact (kept_reportGrantable m _ t).held hend.1 hend.2
  · next hw =>
    refine hset ?_ rfl
    obtain ⟨hr, -, hwt, -⟩ := hft
    rw [hw] at hr hwt
    refine ⟨?_, by simp, by simpa using hwt, by simp⟩
    cases hrole : m.trunkRole t <;> simp_all [roleAllows]
  · next hne hnt =>
    rcases hft.2.1.1 (by rw [h.holder]; rfl) with hw | hw
    · exact absurd hw hne
    · exact absurd hw hnt

/-! ### The records of a new call (R31, R33) -/

theorem bound_take {s s' : State} (hs : QueueSound s) {h : Handle} {e : EngineId} (ht : s.takeRecord h e = some s') (f : EngineId)
    (g : Handle) : s'.Bound f g ↔ s.Bound f g ∨ f = e ∧ g = h := by
  obtain ⟨⟨r, hr, hw⟩, rfl⟩ := takeRecord_eq ht
  exact (bound_congr (appendBlock_queue _ e h).symm f g).trans (bound_joined hs hr hw e f g)

theorem takeAll_bound (e : EngineId) (hs : List Handle) (room : Nat) {s : State} (hq : QueueSound s) :
    (∀ f g, (s.takeAll e hs room).1.Bound f g ↔ s.Bound f g ∨ f = e ∧ g ∈ (s.takeAll e hs room).2) ∧
      (s.takeAll e hs room).2.Nodup ∧ ∀ g ∈ (s.takeAll e hs room).2, ∀ f, ¬ s.Bound f g := by
  induction hs generalizing s room with
  | nil => exact ⟨fun f g => by simp [State.takeAll], .nil, nofun⟩
  | cons h hs ih =>
    cases room with
    | zero => exact ⟨fun f g => by simp [State.takeAll], .nil, nofun⟩
    | succ n =>
      unfold State.takeAll
      split
      · next s' ht =>
        obtain ⟨hb, hn, hfree⟩ := ih n ((localKept_takeRecord ht).queue hq)
        have htake := bound_take hq ht
        obtain ⟨⟨r, hr, hw⟩, -⟩ := takeRecord_eq ht
        refine ⟨fun f g => ?_, List.nodup_cons.2 ⟨fun hm => ?_, hn⟩, fun g hg f hf => ?_⟩
        · rw [hb, htake, List.mem_cons]
          tauto
        · exact hfree h hm e ((htake e h).2 (.inr ⟨rfl, rfl⟩))
        · rcases List.mem_cons.1 hg with rfl | hg
          · obtain ⟨x, hx, hxh, hxs⟩ := hf
            rw [hq.eq_of_handle hx (findRecord_mem hr) (hxh.trans (handle_of_findRecord hr).symm), hw] at hxs
            cases hxs
          · exact hfree g hg f ((htake f g).2 (.inl hf))
      · exact ih (n + 1) hq

theorem newCall_unsettled (route : RouteId) (t : TrunkId) (hs : List Handle) (b : Bool) :
    (newCall route t (hs.map fun h => ⟨some h, .queued⟩) b).unsettled = hs := by
  have hopen : (newCall route t (hs.map fun h => ⟨some h, .queued⟩) b).blocks.filter BlockEntry.open =
      hs.map fun h => ⟨some h, .queued⟩ := List.filter_eq_self.2 (by simp [newCall, BlockEntry.open])
  rw [CallRecord.unsettled, hopen, List.filterMap_map]
  exact List.filterMap_some

theorem newCall_inOrder (route : RouteId) (t : TrunkId) {bs : List BlockEntry} (b : Bool) (hne : bs ≠ [])
    (hq : ∀ x ∈ bs, x.state = .queued) : (newCall route t bs b).InOrder false := by
  refine ⟨List.length_pos_iff.2 hne, fun i x hx => ?_⟩
  have hs := hq x (List.mem_of_getElem? hx)
  refine ⟨fun h => ?_, fun _ _ => by simp [BlockEntry.open, hs], fun _ => hs⟩
  rcases h with h | ⟨-, h⟩
  · exact absurd h (Nat.not_lt_zero i)
  · cases h

theorem startCall_engine_same (s : State) (e : EngineId) (w : Work) :
    (s.startCall e w).engine e = { s.engine e with phase := .acquire, step := .none, work := w } :=
  engine_modEngine_same ..

theorem startCall_engine_other (s : State) {e f : EngineId} (hf : f ≠ e) (w : Work) :
    (s.startCall e w).engine f = s.engine f :=
  engine_modEngine_other _ _ hf

/-- R13, R73: the calls after an IDLE engine has taken up work with the records `hs`. -/
theorem calls_newWork {s m : State} {e : EngineId} {hs : List Handle} (hi : (s.engine e).phase = .idle)
    (hidle : IdleEnginesEmpty s) (hc : CallsHoldRecords s)
    (hb : ∀ f g, m.Bound f g ↔ s.Bound f g ∨ f = e ∧ g ∈ hs) (ho : m.engine (other e) = s.engine (other e))
    (ha : ∀ g, g ∈ hs ↔ ∃ c, (m.engine e).work = .alertCall c ∧ g ∈ c.unsettled)
    (hn : ∀ c, (m.engine e).work = .alertCall c → c.unsettled.Nodup ∧ c.InOrder (m.engine e).acknowledged)
    (ht : ∀ c, (m.engine e).work = .testCall c → ∀ b ∈ c.blocks, b.handle = none) : CallsHoldRecords m := by
  have hnone (g : Handle) : ¬ s.Bound e g := fun h => by
    obtain ⟨c, hw, -⟩ := ((hc e).1 g).1 h
    rw [(hidle e hi).1] at hw
    cases hw
  intro f
  rcases other_or e f with rfl | rfl
  · refine ⟨fun g => ?_, hn, ht⟩
    rw [← ha]
    exact (hb f g).trans ⟨fun h => h.elim (absurd · (hnone g)) And.right, fun h => .inr ⟨rfl, h⟩⟩
  · refine State.CallHolds.kept (fun g => ?_) (by rw [ho]; exact .refl _) (hc (other e))
    exact (hb _ g).trans ⟨fun h => h.resolve_right fun h => other_ne e h.1, .inl⟩

theorem kept_acquire (s : State) (e : EngineId) (t : TrunkId) : Kept s (s.acquire e t) := by
  unfold State.acquire
  split
  · exact kept_takenReported s e t
  · exact .refl s

theorem acknowledged_acquire {x : Engine} (h : x.phase = .acquire) : x.acknowledged = false :=
  acknowledged_eq_false (.inl (by rw [h]; decide))

/-- R31 to R33: the call built for a record on a trunk just granted, or the trunk given back. -/
theorem kept_buildCall {s : State} {e : EngineId} (hi : (s.engine e).phase = .idle) {t : TrunkId} (ho : (s.trunk t).Open)
    (m : PreemptMode) (n : Nat) (c : ClassId) (h : Handle) {route : RouteId} (hr : s.callOn route = none) (b : Bool) :
    Kept s ((s.grantTrunk t e m n c).buildCall e h route t b) := by
  have hgiven := trunkGiven_grantTrunk s ho e m n c
  have hlocal := localKept_grantTrunk s t e m n c
  have hengines : (s.grantTrunk t e m n c).engines = s.engines := by simp
  have hqueue : (s.grantTrunk t e m n c).queue = s.queue := by simp
  generalize s.grantTrunk t e m n c = g at *
  unfold State.buildCall
  dsimp only
  have htake := localKept_takeAll e (h :: g.companions h route) (g.routeOr route).blocksPerCall g
  have hbound (hq : QueueSound s) := takeAll_bound e (h :: g.companions h route) (g.routeOr route).blocksPerCall (queueSound_congr hqueue hq)
  have htg := hgiven.of_still (takeAll_trunks g e (h :: g.companions h route) (g.routeOr route).blocksPerCall) (by simp)
  have hte := (takeAll_engines g e (h :: g.companions h route) (g.routeOr route).blocksPerCall).trans hengines
  generalize g.takeAll e (h :: g.companions h route) (g.routeOr route).blocksPerCall = took at *
  obtain ⟨m', hs⟩ := took
  dsimp only at *
  cases hs with
  | nil =>
    refine ⟨hlocal.trans (htake.trans (localKept_releaseTrunk _ _ _)), htg.released hte, fun hq _ hc f => ?_⟩
    refine State.CallHolds.kept (fun x => ?_) (by rw [engine_of_engines ((releaseTrunk_engines _ _ _).trans hte)]; exact .refl _) (hc f)
    rw [bound_congr (releaseTrunk_queue _ _ _), (hbound hq).1, bound_congr hqueue]
    simp
  | cons k ks =>
    have hnew : (newCall route t ((k :: ks).map fun h => ⟨some h, .queued⟩) b).route = route := rfl
    refine .trans ?_ (kept_acquire _ e t)
    refine ⟨hlocal.trans (htake.trans (localKept_startCall m' e _ fun d hd => ?_)),
      (htg.of_still (startCall_trunks _ _ _) (startCall_tables _ _ _)).held hi ?_ ?_ ?_, fun hq hidle hc => ?_⟩
    · rw [← Option.some.inj hd, hnew, callOn_congr hte]
      exact hr
    · rw [startCall_engine_same]; simp
    · rw [startCall_engine_same]; rfl
    · rw [startCall_engine_other _ (other_ne e), engine_of_engines hte]
    · obtain ⟨hb, hn, -⟩ := hbound hq
      refine calls_newWork (hs := k :: ks) hi hidle hc (fun f x => ?_) (by rw [startCall_engine_other _ (other_ne e), engine_of_engines hte])
        (fun x => ?_) (fun d hd => ?_) fun d hd => ?_
      · rw [bound_congr (startCall_queue _ _ _), hb, bound_congr hqueue]
      · rw [startCall_engine_same]
        exact ⟨fun hx => ⟨_, rfl, by rw [newCall_unsettled]; exact hx⟩,
          fun ⟨d, hd, hx⟩ => by rwa [← Work.alertCall.inj hd, newCall_unsettled] at hx⟩
      · rw [startCall_engine_same] at hd ⊢
        rw [acknowledged_acquire rfl, ← Work.alertCall.inj hd, newCall_unsettled]
        exact ⟨hn, newCall_inOrder _ _ _ (by simp) (by simp)⟩
      · rw [startCall_engine_same] at hd; cases hd

theorem kept_takeLineTest {s : State} {e : EngineId} (hi : (s.engine e).phase = .idle) {t : TrunkId} (ho : (s.trunk t).Open) :
    Kept s (s.takeLineTest e t) := by
  have hgiven : s.TrunkGiven (s.setTrunk t { (s.trunk t).enterTaken with holder := some e }) t e :=
    ⟨by simp, fun h => by rw [trunk_setTrunk_same]; exact h.taken ho e, by rw [trunk_setTrunk_same],
      fun u hu => trunk_setTrunk_other _ _ hu⟩
  unfold State.takeLineTest
  refine .trans ?_ (kept_acquire _ e t)
  have hother (x : State) (f : Engine → Engine) (hx : x.engines = s.engines) :
      (x.modEngine e f).engine (other e) = s.engine (other e) := by
    rw [engine_modEngine_other _ _ (other_ne e), engine_of_engines hx]
  refine ⟨.trans (.trans (localKept_setTrunk s t _) (localKept_cmu _ _))
      (localKept_newWork _ e _ rfl (by simp) fun c hc => by cases hc),
    (hgiven.of_still).held hi ?_ ?_ (hother _ _ rfl), fun hq hidle hc => ?_⟩
  · rw [engine_modEngine_same]; simp
  · rw [engine_modEngine_same]; rfl
  · refine calls_newWork (hs := []) hi hidle hc (fun f g => ?_) (hother _ _ rfl) (fun g => ?_) (fun d hd => ?_) fun d hd => ?_
    · simpa using bound_congr (by simp) f g
    all_goals rw [engine_modEngine_same] at *
    · simp
    · cases hd
    · cases hd

theorem kept_takeTestCall {s : State} {e : EngineId} (hi : (s.engine e).phase = .idle) {route : RouteId} {t : TrunkId}
    (ho : (s.trunk t).Open) (hr : s.callOn route = none) : Kept s (s.takeTestCall e route t) := by
  have hgiven := trunkGiven_grantTrunk s ho e .none 0 classTest
  have hlocal := localKept_grantTrunk s t e .none 0 classTest
  have hengines : (s.grantTrunk t e .none 0 classTest).engines = s.engines := by simp
  have hqueue : (s.grantTrunk t e .none 0 classTest).queue = s.queue := by simp
  unfold State.takeTestCall
  dsimp only
  generalize s.grantTrunk t e .none 0 classTest = g at *
  refine .trans ?_ (kept_acquire _ e t)
  have hother (w : Work) (c : Cmu) : (({ g with cmu := c } : State).startCall e w).engine (other e) = s.engine (other e) := by
    rw [startCall_engine_other _ (other_ne e)]
    exact engine_of_engines hengines _
  refine ⟨.trans hlocal (.trans (localKept_cmu _ _) (localKept_startCall _ e _ fun d hd => ?_)),
    (hgiven.of_still).held hi ?_ ?_ (hother _ _), fun hq hidle hc => ?_⟩
  · rw [← Option.some.inj hd]
    exact (callOn_congr hengines route).trans hr
  · rw [startCall_engine_same]; simp
  · rw [startCall_engine_same]; rfl
  · refine calls_newWork (hs := []) hi hidle hc (fun f x => ?_) (hother _ _) (fun x => ?_) (fun d hd => ?_) fun d hd => ?_
    · rw [bound_congr (startCall_queue _ _ _)]
      exact (bound_congr (s := s) hqueue f x).trans (by simp)
    all_goals rw [startCall_engine_same] at *
    · simp
    · cases hd
    · rw [← Work.testCall.inj hd]
      simp [newCall]

theorem kept_offerSlot {s : State} {e : EngineId} (hi : (s.engine e).phase = .idle) : Kept s (s.offerSlot e) := by
  unfold State.offerSlot
  split
  · split
    · next h => exact kept_takeLineTest hi (open_of_lineTestGrantable h)
    · exact .refl s
  · split
    · next h =>
      simp only [Bool.and_eq_true, Option.isNone_iff_eq_none] at h
      split
      · next hc => exact kept_takeTestCall hi (open_of_grantable (chooseTrunk_grantable hc)).1 h.2
      · exact .refl s
    · exact .refl s
  · exact .refl s
  · exact .refl s

theorem kept_noTrunkRaised (s : State) (c : ClassId) : Kept s (s.noTrunkRaised c) := by
  unfold State.noTrunkRaised
  split
  · exact .refl s
  · exact (kept_dsc s _).trans (kept_raise _ _)

theorem kept_request {w : Walk} {e : EngineId} (hi : (w.state.engine e).phase = .idle) (r : Record) {route : RouteId}
    (hr : w.state.callOn route = none) : Kept w.state (w.request e r route).state := by
  unfold Walk.request
  dsimp only
  split
  · dsimp only
    split
    · exact .refl _
    · exact kept_noTrunkRaised _ _
  · next hc => exact kept_buildCall hi (open_of_grantable (chooseTrunk_grantable hc)).1 _ _ _ _ hr _

theorem kept_placeOnRoute {s s' : State} {h : Handle} {r : Record} {route : RouteId}
    (hs : s.placeOnRoute h = some (s', r, route)) : Kept s s' := by
  have he : s'.engines = s.engines := by
    obtain ⟨_, p, -, -, -, -, rfl⟩ := placeOnRoute_eq hs
    simp
  have ht : s'.trunks = s.trunks ∧ s'.tables = s.tables := by
    obtain ⟨_, p, -, -, -, -, rfl⟩ := placeOnRoute_eq hs
    simp
  exact .of_local (localKept_placeOnRoute hs) (fun _ => bound_placeOnRoute hs)
    (fun e => by rw [engine_of_engines he]; exact .refl _) (by rw [ht.2]) ht.1

theorem placeOnRoute_engines {s s' : State} {h : Handle} {r : Record} {route : RouteId}
    (hs : s.placeOnRoute h = some (s', r, route)) : s'.engines = s.engines := by
  obtain ⟨_, p, -, -, -, -, rfl⟩ := placeOnRoute_eq hs
  simp

theorem kept_look {w : Walk} {e : EngineId} (hi : (w.state.engine e).phase = .idle) (h : Handle) :
    Kept w.state (w.look e h).state := by
  unfold Walk.look
  split
  · exact .refl _
  · next s r route hp =>
    split
    · exact kept_placeOnRoute hp
    · next hc =>
      refine (kept_placeOnRoute hp).trans (kept_request (w := { w with state := s }) ?_ r ?_)
      · exact (congrArg Engine.phase (engine_of_engines (placeOnRoute_engines hp) e)).trans hi
      · simpa using hc

theorem kept_run (hs : List Handle) (w : Walk) : Kept w.state (w.run hs).state := by
  induction hs generalizing w with
  | nil => exact .refl _
  | cons h hs ih =>
    unfold Walk.run
    split
    · exact .refl _
    · next e he => exact (kept_look (firstIdle_idle he) h).trans (ih _)

theorem kept_select (s : State) : Kept s s.select.1 := by
  unfold State.select
  split
  · dsimp only
    have hrun := kept_run (s.queue.map Record.handle) { state := s, requested := false, eligible := false, refused := [] }
    split
    · exact hrun
    · split
      · next he => exact hrun.trans (kept_offerSlot (firstIdle_idle he))
      · exact hrun
  · exact .refl s

theorem kept_selectionStep (s : State) : Kept s s.selectionStep := by
  unfold State.selectionStep
  split
  · exact .refl s
  · exact .trans (.trans (kept_dsc s _) (kept_select _)) (kept_preemptCheck _ _)

end Sys2Proof.Machine

namespace Sys2Proof.Machine

/-! ### The control channel (R174 to R176, R179) -/

theorem LocalKept.of_lines {s t : State} (h : DebounceSound s → DebounceSound t)
    (he : t.engines = s.engines := by simp) (hq : t.queue = s.queue := by simp) (hv : t.evr = s.evr := by simp)
    (ht : t.tables = s.tables := by simp) (hc : t.ccp = s.ccp := by simp) : LocalKept s t where
  queue := queueSound_congr hq
  records := recordsInRange_congr hq
  events := eventsSound_congr hv
  ranges := tablesInRange_congr ht
  slots := slotsDistinct_congr ht
  debounce := h
  channel := channelSound_congr hc
  detectors e := by rw [engine_of_engines he]; exact id
  idle e := by rw [engine_of_engines he]; exact id
  routes := routesDistinct_of_kept fun e => by rw [engine_of_engines he]; exact (EngineKept.refl _).route

/-- A change of the port that lets neither of its queues grow, the cell in hand counted. -/
theorem kept_ccp (s : State) (c : Ccp) (hi : c.inbound.length ≤ s.ccp.inbound.length)
    (ha : c.answers.length + (if c.inHand.isSome then 1 else 0) ≤
      s.ccp.answers.length + (if s.ccp.inHand.isSome then 1 else 0)) : Kept s { s with ccp := c } :=
  .of_still (.of_channel fun h => ⟨hi.trans h.1, ha.trans h.2⟩)

theorem kept_replyWith (s : State) (c : AnswerContent) (b : Bool) : Kept s (s.replyWith c b) := by
  unfold State.replyWith
  split
  · next h => exact kept_ccp s _ le_rfl (by simp [h])
  · exact .refl s

theorem kept_answer (s : State) (r : Result) (d : List Word) : Kept s (s.answer r d) := by
  unfold State.answer
  split
  · exact kept_replyWith s _ _
  · exact .refl s

theorem kept_endEmission (s : State) : Kept s s.endEmission := by
  unfold State.endEmission
  split
  · have hdone := kept_ccp s { s.ccp with answers := [], inbound := [], flags := StickyFlags.clear, initWait := false,
                                          emitter := .idle } (Nat.zero_le _) (by simp)
    have hsent := kept_ccp s { s.ccp with answers := s.ccp.answers.tail, emitter := .idle } le_rfl (by simp)
    exact iteInduction (fun _ => hdone) fun _ => hsent
  · exact (kept_ccp s { s.ccp with emitter := .idle } le_rfl le_rfl).trans (.of_still (localKept_emissionSent _))
  · exact .refl s
  · exact .refl s

theorem kept_restored (s : State) : Kept s { s with evr := s.evr.restored } := .of_still (localKept_restored s)

theorem kept_channelLost (s : State) : Kept s s.channelLost := by
  unfold State.channelLost
  dsimp only
  refine (kept_endEmission s).trans ?_
  have hunt := kept_ccp s.endEmission { s.endEmission.ccp with assembler := .hunt, emitter := .idle } le_rfl le_rfl
  split
  · exact hunt.trans (kept_ccp _ _ le_rfl le_rfl)
  · exact hunt
  · exact hunt.trans (kept_restored _)
  · exact hunt

theorem kept_startAnswer (s : State) : Kept s s.startAnswer := by
  unfold State.startAnswer
  split
  · split
    · split
      · exact kept_ccp s _ le_rfl le_rfl
      · exact kept_ccp s _ le_rfl le_rfl
    · exact .refl s
  · exact .refl s

theorem kept_startEvent (s : State) : Kept s s.startEvent := by
  unfold State.startEvent
  split
  · split
    · exact Kept.trans (.of_still (localKept_takeSnapshot s)) (kept_ccp _ _ le_rfl le_rfl)
    · exact .refl s
  · exact .refl s

theorem kept_takeCell (s : State) : Kept s s.takeCell := by
  unfold State.takeCell
  split
  · exact .refl s
  · next c rest hin =>
    split
    · next h =>
      simp only [Bool.and_eq_true, Option.isNone_iff_eq_none, decide_eq_true_eq] at h
      have htake : Kept s { s with ccp := { s.ccp with inbound := rest, inHand := some c } } :=
        .of_still (.of_channel fun hc => ⟨by have := hc.1; rw [hin] at this; simp at this ⊢; omega,
          by have := h.1.2; simp; omega⟩)
      dsimp only
      split
      · exact htake
      · exact htake.trans (kept_answer _ _ _)
    · exact .refl s

theorem kept_onCell (s : State) (k : Nat) {f : State → InCell → State} (h : ∀ c, Kept s (f s c)) : Kept s (s.onCell k f) := by
  unfold State.onCell
  split
  · exact h _
  · exact .refl s

theorem kept_onCommand (s : State) (k : Nat) {f : State → InCell → State} (h : ∀ c, Kept s (f s c)) :
    Kept s (s.onCommand k f) := by
  unfold State.onCommand
  split
  · exact h _
  · exact .refl s

/-! ### The commands of the station -/

theorem kept_answerAlert (s : State) (r : AlertResult) : Kept s (s.answerAlert r) := by
  cases r <;> exact kept_answer s _ _

theorem kept_stationAlert (s : State) (c : InCell) : Kept s (s.stationAlert c) := by
  unfold State.stationAlert
  split
  · exact kept_answerAlert s _
  · exact (kept_offer s _ _).trans (kept_answerAlert _ _)

theorem stage_applied (x : Tables) (w : Write) (u : TrunkId) : (vget (x.stage w).trunks u).applied = (vget x.trunks u).applied := by
  cases w with
  | trunk t e =>
    simp only [Tables.stage, vget_vput]
    split
    · next h => rw [h]
    · rfl
  | _ => rfl

theorem kept_stage (s : State) {w : Write} (hw : w.InRange) (hs : w.SlotFree s.tables) :
    Kept s { s with tables := s.tables.stage w } where
  toLocalKept := .of_tables (fun h => (tablesInRange_iff _).2 (((tablesInRange_iff s).1 h).stage hw)) fun h => h.stage hs
  held h k := by
    refine ⟨fun u => ?_, k⟩
    have hrole : ({ s with tables := s.tables.stage w } : State).trunkRole u = s.trunkRole u := by
      simp only [State.trunkRole, stage_applied]
    rw [hrole]
    exact h u
  calls _ _ h := h

theorem kept_writeTable (s : State) (c : InCell) : Kept s (s.writeTable c) := by
  unfold State.writeTable
  split
  · exact kept_answer s _ _
  · next p hp =>
    obtain ⟨hw, hs⟩ := parseWrite_sound hp
    split
    · exact (kept_stage s hw hs).trans (kept_answer _ _ _)
    · split
      · exact (kept_applyWrite s hw hs).trans (kept_answer _ _ _)
      · exact (kept_applyWrite s hw hs).trans (kept_answer _ _ _)

theorem kept_readTable (s : State) (c : InCell) : Kept s (s.readTable c) := by
  unfold State.readTable
  split
  · exact kept_answer s _ _
  · exact kept_replyWith s _ _

theorem kept_readQueue (s : State) (c : InCell) : Kept s (s.readQueue c) := by
  unfold State.readQueue
  split
  · exact kept_replyWith s _ _
  · split
    · split
      · exact kept_replyWith s _ _
      · exact kept_answer s _ _
    · exact kept_answer s _ _

theorem kept_cancelSlot (s : State) : Kept s s.cancelSlot := by
  unfold State.cancelSlot
  split
  · exact (kept_cmu s _).trans (kept_answer _ _ _)
  · exact kept_answer s _ _
  · exact kept_answer s _ _

theorem kept_unknownCell (s : State) : Kept s s.unknownCell := by
  unfold State.unknownCell
  split
  · split
    · exact .refl s
    · exact kept_answer s _ _
  · exact .refl s

theorem kept_placeInSlot (s : State) (c : SlotCommand) : Kept s (s.placeInSlot c) := by
  unfold State.placeInSlot
  split
  · exact .trans (.trans (kept_cmu s _) (kept_cause _)) (kept_answer _ _ _)
  · exact kept_answer s _ _
  · exact kept_answer s _ _

theorem kept_lineTestCommand (s : State) (c : InCell) : Kept s (s.lineTestCommand c) := by
  unfold State.lineTestCommand
  split
  · exact kept_placeInSlot s _
  · exact kept_answer s _ _

theorem kept_testCallCommand (s : State) (c : InCell) : Kept s (s.testCallCommand c) := by
  unfold State.testCallCommand
  split
  · exact kept_placeInSlot s _
  · exact kept_answer s _ _

theorem kept_setBarred (s : State) (b : Bool) (t : TrunkId) : Kept s (s.setBarred b t) :=
  .trans (kept_setTrunk s t { s.trunk t with barred := b } id fun _ h => h) (kept_reportGrantable s _ t)

theorem kept_setAllBarred (s : State) (b : Bool) : Kept s (s.setAllBarred b) :=
  foldl_kept (fun s t => kept_setBarred s b t) _ s

theorem kept_barCommand (b : Bool) (s : State) (c : InCell) : Kept s (s.barCommand b c) := by
  unfold State.barCommand
  split
  · exact (kept_setBarred s b _).trans (kept_answer _ _ _)
  · exact kept_answer s _ _

theorem kept_endHold (s : State) (why : HoldCause) : Kept s (s.endHold why) := by
  unfold State.endHold
  split
  · exact .trans (.trans (kept_dsc s _) (kept_raise _ _)) (kept_cause _)
  · exact .refl s

theorem kept_setHold (s : State) (n : Nat) : Kept s (s.setHold n) := kept_dsc s _

theorem kept_reportAll (hs : List Handle) (s : State) : Kept s (hs.foldl State.reportWaiting s) :=
  foldl_kept kept_reportWaiting hs s

theorem isInCall_iff {x : RecordState} : x.isInCall = true ↔ ∃ e, x = .inCall e := by
  cases x <;> simp [RecordState.isInCall]

/-- An update of every record that leaves the records in calls there and brings none in. -/
theorem kept_map (s : State) {f : Record → Record} (hf : RecordMap f)
    (hs : ∀ r e, (f r).state = .inCall e ↔ r.state = .inCall e) (hr : ∀ r : Record, r.InRange → (f r).InRange) :
    Kept s { s with queue := s.queue.map f } :=
  .of_map (localKept_map s hf (fun r _ h => by
    obtain ⟨e, he⟩ := isInCall_iff.1 h
    exact isInCall_iff.2 ⟨e, (hs r e).2 he⟩) hr) hf fun r _ => hs r

theorem kept_releaseStranded (s : State) : Kept s s.releaseStranded := by
  refine (kept_map s (f := fun r => if r.state == .stranded then r.release else r)
    (RecordMap.ite (f := Record.release) ⟨fun _ => rfl, fun _ => rfl, fun _ => rfl⟩ _) (fun r e => ?_) fun r hi => ?_).trans
      (kept_reportAll _ _)
  · split
    · next hs => simp [Record.release, show r.state = .stranded by simpa using hs]
    · rfl
  · split
    · exact ⟨Nat.zero_le _, hi.2⟩
    · exact hi

theorem kept_releaseHeld (s : State) : Kept s s.releaseHeld := by
  refine (kept_map s (f := fun r => if r.state.isHeld then { r with state := .waiting } else r)
    (RecordMap.ite (f := fun r => { r with state := .waiting }) ⟨fun _ => rfl, fun _ => rfl, fun _ => rfl⟩ _) (fun r e => ?_)
      fun r hi => ?_).trans (kept_reportAll _ _)
  · cases hs : r.state <;> simp [RecordState.isHeld, hs]
  · split <;> exact hi

theorem kept_purgeCommand (s : State) (c : InCell) : Kept s (s.purgeCommand c) := by
  unfold State.purgeCommand
  split
  · exact kept_answer s _ _
  · next r hr =>
    split
    · exact kept_answer s _ _
    · next hs =>
      obtain ⟨h, -, hf⟩ := Option.bind_eq_some_iff.1 hr
      exact (kept_removeFound s (findRecord_mem hf) (by simpa using hs)).trans (kept_answer _ _ _)

theorem kept_badCode (s : State) (c : InCell) : Kept s (s.badCode c) := by
  unfold State.badCode
  split
  · exact .refl s
  · exact kept_answer s _ _

theorem tablesInRange_empty {s : State} (h : s.tables = Tables.empty) : TablesInRange s := by
  simp [TablesInRange, h, ifPresent, show Tables.empty.site = none from rfl]

theorem slotsDistinct_empty {s : State} (h : s.tables = Tables.empty) : SlotsDistinct s := by
  intro t u _ a ha b hb x y hx
  rw [h] at ha
  have hnone : a = none := by simpa using ha
  rw [hnone] at hx
  cases hx

/-- R161: INIT's stage 4 leaves every trunk unmanaged and unheld. -/
theorem kept_initTables (s : State) : Kept s s.initTables where
  toLocalKept := .of_tables (fun _ => tablesInRange_empty rfl) (fun _ => slotsDistinct_empty rfl) rfl rfl rfl rfl rfl
  held _ _ := by
    have htrunk (u : TrunkId) : s.initTables.trunk u = Trunk.reset := vget_replicate _ u
    refine ⟨fun u => ?_, fun u e h => ?_⟩
    · rw [htrunk, show s.initTables.trunkRole u = .unused by simp [State.trunkRole, State.initTables]]
      simp [Trunk.reset, roleAllows]
    · rw [htrunk] at h
      cases h
  calls _ _ h := h

theorem kept_initAnswer (s : State) : Kept s s.initAnswer :=
  (kept_replyWith s _ _).trans (kept_ccp _ _ le_rfl le_rfl)

theorem kept_initEvents (s : State) : Kept s s.initEvents := .of_still (localKept_initEvents s) rfl rfl rfl rfl

theorem kept_initPart (taken : EngineSet) (s : State) (c : InCell) : Kept s (s.initPart taken c) :=
  .trans (.trans (.trans (.trans (.trans (.trans (kept_initAnswer s) (kept_initEvents _))
    (kept_postAborts _ _ _)) (kept_initTables _)) (kept_releaseHeld _)) (kept_endHold _ _)) (kept_dsc _ _)

end Sys2Proof.Machine

namespace Sys2Proof.Machine

/-! ### Detection frames (R76 to R94) -/

/-- Both engines changed, each going on with its work, and the port and the highway's registers as they may be. -/
theorem Kept.of_engines {s t : State} (he : ∀ e, EngineKept (s.engine e) (t.engine e)) (hw : ∀ e, WorkKept (s.engine e) (t.engine e))
    (hq : t.queue = s.queue := by rfl) (hv : t.evr = s.evr := by rfl) (ht : t.tables = s.tables := by rfl)
    (hl : t.hwi.lines = s.hwi.lines := by rfl) (hc : t.ccp = s.ccp := by rfl) (hk : t.trunks = s.trunks := by rfl) : Kept s t :=
  .of_local (.of_engines he hq hv ht hl hc) (fun _ => bound_congr hq) hw (by rw [ht]) hk

/-- A change of the highway's registers but for the debounced values. -/
theorem kept_hwi (s : State) (x : Hwi) (hl : x.lines = s.hwi.lines := by rfl) : Kept s { s with hwi := x } :=
  .of_still (.of_quiet rfl rfl rfl rfl hl rfl) rfl rfl rfl rfl

/-- An engine's detector and reports changed: nothing of its work is. -/
theorem engineKept_detector (x : Engine) {d : Detector} {rs : List Report} (hd : x.detector.Sound → d.Sound)
    (hi : x.reports = [] → (∀ l ∈ x.detector.loadings, l.status = .stopping) → rs = [] ∧ ∀ l ∈ d.loadings, l.status = .stopping) :
    EngineKept x { x with detector := d, reports := rs } := by
  refine ⟨hd, fun h hp => ?_, .of_work rfl⟩
  obtain ⟨hx, hl⟩ := h hp
  have hrep : x.reports = [] := by rw [hx]; rfl
  obtain ⟨rfl, hs⟩ := hi hrep hl
  refine ⟨?_, hs⟩
  have := congrArg (fun y : Engine => { y with detector := d, reports := [] }) hx
  exact this

theorem Classifier.count_length (x : Classifier) (k : CadenceEntry) (p : Bool) : (x.count k p).1.length ≤ 255 := by
  unfold Classifier.count
  split
  · exact Nat.min_le_right _ _
  · split
    · exact Nat.min_le_right _ _
    · unfold Classifier.runEnd
      dsimp only
      split
      · split <;> exact (by decide : 2 ≤ 255)
      · split <;> exact (by decide : 2 ≤ 255)

theorem Classifier.frame_length (x : Classifier) (k : CadenceEntry) (p : Bool) : (x.frame k p).1.length ≤ 255 := by
  unfold Classifier.frame
  dsimp only
  split <;> exact x.count_length k p

theorem evaluate_length (d : Detector) (f : Nat) {l : Loading} (h : l.classifier.length ≤ 255) :
    (d.evaluate f l).1.classifier.length ≤ 255 := by
  unfold Detector.evaluate
  split
  · exact Classifier.frame_length _ _ _
  · exact h

theorem evaluate_stopping (d : Detector) (f : Nat) {l : Loading} (h : l.status = .stopping) : d.evaluate f l = (l, []) := by
  simp [Detector.evaluate, Loading.running, h]

/-- A bin at rest holds 0 whether it is free or taken (R83). -/
def Bin.Rest (b : Bin) : Prop := b.prev = 0 ∧ b.prev2 = 0

theorem startLoading_rest (l : Loading) {acc : List Loading × Vector Bin 6} (h : ∀ i, (vget acc.2 i).Rest) (i : Fin 6) :
    (vget (startLoading acc l).2 i).Rest := by
  have hmark (mine : List (Fin 6)) (bins : Vector Bin 6) (hb : ∀ i, (vget bins i).Rest) (i : Fin 6) :
      (vget (mine.foldl (fun bins i => vput bins i { vget bins i with used := true }) bins) i).Rest := by
    induction mine generalizing bins with
    | nil => exact hb i
    | cons j js ih =>
      refine ih _ fun k => ?_
      rw [vget_vput]
      split
      · exact hb j
      · exact hb k
  unfold startLoading
  split
  · exact hmark _ _ h i
  · exact h i

theorem startLoading_length {l : Loading} (hl : l.classifier.length ≤ 255) {acc : List Loading × Vector Bin 6}
    (h : ∀ k ∈ acc.1, k.classifier.length ≤ 255) : ∀ k ∈ (startLoading acc l).1, k.classifier.length ≤ 255 := by
  unfold startLoading
  intro k hk
  split at hk
  all_goals
    rcases List.mem_append.1 hk with hk | hk
    · exact h k hk
    · rw [List.mem_singleton.1 hk]; exact hl

theorem foldl_startLoading (ls : List Loading) {acc : List Loading × Vector Bin 6} (hb : ∀ i, (vget acc.2 i).Rest)
    (hc : ∀ k ∈ acc.1, k.classifier.length ≤ 255) (hl : ∀ l ∈ ls, l.classifier.length ≤ 255) :
    (∀ i, (vget (ls.foldl startLoading acc).2 i).Rest) ∧ ∀ k ∈ (ls.foldl startLoading acc).1, k.classifier.length ≤ 255 := by
  induction ls generalizing acc with
  | nil => exact ⟨hb, hc⟩
  | cons l ls ih =>
    exact ih (startLoading_rest l hb) (startLoading_length (hl l (.head _)) hc) fun k hk => hl k (.tail _ hk)

theorem boundary_sound {d : Detector} (h : ∀ l ∈ d.loadings, l.classifier.length ≤ 255) : d.boundary.Sound := by
  have hrest (i : Fin 6) : (vget d.removeStopping.bins i).Rest := by
    simp [Detector.removeStopping, vget, Bin.Rest]
  obtain ⟨hb, hc⟩ := foldl_startLoading d.removeStopping.loadings (acc := ([], d.removeStopping.bins)) hrest nofun
    fun l hl => h l (List.mem_of_mem_filter hl)
  have hbin (i : Fin 6) : (vget d.boundary.bins i).Rest := hb i
  refine ⟨fun i => ?_, hc⟩
  rw [(hbin i).1, (hbin i).2]
  decide

theorem boundary_stopping {d : Detector} (h : ∀ l ∈ d.loadings, l.status = .stopping) : d.boundary.loadings = [] := by
  have hnone : d.loadings.filter Loading.live = [] := List.filter_eq_nil_iff.2 fun l hl => by simp [Loading.live, h l hl]
  simp [Detector.boundary, Detector.removeStopping, hnone]

theorem engineKept_frameEnd (x : Engine) (f : Nat) : EngineKept x (x.frameEnd f) := by
  refine engineKept_detector x (fun hd => boundary_sound fun l hl => ?_) fun hr hs => ?_
  · simp only [List.map_map, List.mem_map, Function.comp_apply] at hl
    obtain ⟨k, hk, rfl⟩ := hl
    exact evaluate_length _ f (hd.2 k hk)
  · have hmap : x.detector.loadings.map (x.detector.evaluate f) = x.detector.loadings.map fun l => (l, []) :=
      List.map_congr_left fun l hl => evaluate_stopping _ f (hs l hl)
    rw [hmap]
    refine ⟨by simp [hr, List.flatMap_map], ?_⟩
    rw [boundary_stopping]
    · nofun
    · simpa using hs

theorem detectionFrameEnd_engine (s : State) (e : EngineId) :
    s.detectionFrameEnd.engine e = (s.engine e).frameEnd s.siteOr.silenceFloor := by cases e <;> rfl

theorem kept_detectionFrameEnd (s : State) : Kept s s.detectionFrameEnd := by
  refine .of_engines (fun e => ?_) fun e => ?_ <;> rw [detectionFrameEnd_engine]
  · exact engineKept_frameEnd _ _
  · exact .of_work rfl id rfl

theorem kept_frameEndDue (s : State) : Kept s s.frameEndDue := by
  unfold State.frameEndDue
  split
  · exact kept_detectionFrameEnd s
  · exact .refl s

/-! ### The highway frame (R119 to R127, R172) -/

theorem clampInt_bounds {limit : Int} (h : 0 ≤ limit) (x : Int) : -limit ≤ clampInt limit x ∧ clampInt limit x ≤ limit := by
  unfold clampInt
  omega

theorem sample_sound {d : Detector} (h : d.Sound) (x : Int) : (d.sample x).Sound := by
  unfold Detector.sample
  split
  · refine ⟨?_, h.2⟩
    obtain ⟨hb, -⟩ := h
    dsimp only
    generalize d.loadings.flatMap Loading.tuned = ps
    generalize d.bins = bins at *
    induction ps generalizing bins with
    | nil => exact hb
    | cons p ps ih =>
      refine ih _ fun i => ?_
      rw [vget_vput]
      split
      · exact ⟨(clampInt_bounds (by decide) _).1, (clampInt_bounds (by decide) _).2, (hb p.1).1, (hb p.1).2.1⟩
      · exact hb i
  · exact h

theorem sample_loadings (d : Detector) (x : Int) : (d.sample x).loadings = d.loadings := by
  unfold Detector.sample; split <;> rfl

theorem detectorFrame_engine (s : State) (tsi : List Word) (e : EngineId) :
    (s.detectorFrame tsi).engine e = s.detectorSample tsi e := by cases e <;> rfl

theorem kept_detectorFrame (s : State) (tsi : List Word) : Kept s (s.detectorFrame tsi) := by
  refine .of_engines (fun e => ?_) fun e => ?_ <;> rw [detectorFrame_engine, State.detectorSample] <;> split
  · exact engineKept_detector _ (sample_sound · _) fun hr hs => ⟨hr, by rw [sample_loadings]; exact hs⟩
  · exact .refl _
  · exact .of_work rfl id rfl
  · exact .refl _

theorem kept_settleDue (s : State) : Kept s s.settleDue := by
  unfold State.settleDue
  dsimp only
  refine (kept_endEmission s).trans ?_
  split
  · exact (kept_detectionFrameEnd _).trans (kept_hwi _ _)
  · exact kept_hwi _ _

theorem kept_applyPaths (s : State) : Kept s s.applyPaths := kept_hwi s _

theorem advanceSources_engine (s : State) (e : EngineId) :
    s.advanceSources.engine e = { s.engine e with generator := (s.engine e).generator.advance } := by cases e <;> rfl

theorem kept_advanceSources (s : State) : Kept s s.advanceSources := by
  refine .of_local (.trans (.trans (m := { s with hwi := s.advanceSources.hwi, engines := s.advanceSources.engines })
    (LocalKept.of_engines (fun e => ?_) rfl rfl rfl rfl rfl) (LocalKept.refl _)) (LocalKept.of_channel id rfl rfl rfl rfl rfl))
    (fun _ => bound_congr rfl) (fun e => ?_) rfl rfl
  · rw [show State.engine { s with hwi := s.advanceSources.hwi, engines := s.advanceSources.engines } e =
      s.advanceSources.engine e from rfl, advanceSources_engine]
    exact .of_idle rfl rfl rfl fun h => by
      have hg : (s.engine e).generator = Generator.silent := by rw [h]; rfl
      rw [hg, show Generator.silent.advance = Generator.silent from rfl, ← hg]
  · rw [advanceSources_engine]
    exact .of_work rfl id rfl

theorem Debounced.frame_count {x : Debounced} (h : x.count ≤ 15) (raw : Bool) : (x.frame raw).count ≤ 15 := by
  unfold Debounced.frame
  split
  · exact Nat.zero_le _
  · split
    · exact Nat.zero_le _
    · dsimp only; omega

theorem LineBits.frame_get (b : LineBits) (raw : LineSignal → Bool) (sig : LineSignal) :
    (b.frame raw).get sig = (b.get sig).frame (raw sig) := by cases sig <;> rfl

theorem debounceFrame_lines (s : State) (tsi pxi : List Word) (t : TrunkId) :
    vget (s.debounceFrame tsi pxi).hwi.lines t = (vget s.hwi.lines t).frame (rawSignal tsi pxi t) := by
  simp only [State.debounceFrame, vget_vmap]

theorem kept_debounceFrame (s : State) (tsi pxi : List Word) : Kept s (s.debounceFrame tsi pxi) :=
  .of_still (.of_lines fun h t sig => by
    rw [debounceFrame_lines, LineBits.frame_get]
    exact Debounced.frame_count (h t sig) _)

theorem kept_validCell (s : State) : Kept s s.validCell := by
  unfold State.validCell
  dsimp only
  split
  · exact .trans (.trans (.trans (kept_cmu s _) (kept_internalAlert _ _ _)) (kept_raise _ _)) (kept_cmu _ _)
  · exact kept_cmu s _

theorem kept_cellArrived (s : State) (c : InCell) : Kept s (s.cellArrived c) := by
  unfold State.cellArrived
  dsimp only
  refine (kept_validCell s).trans ?_
  split
  · next h => exact .of_still (.of_channel (fun hc => ⟨by simp; omega, hc.2⟩) rfl rfl rfl rfl rfl) rfl rfl rfl rfl
  · exact kept_ccp _ _ le_rfl le_rfl

theorem kept_setAssembler (s : State) (a : Assembler) : Kept s (s.setAssembler a) := kept_ccp s _ le_rfl le_rfl

theorem kept_assembleWord (s : State) (w : Word) : Kept s (s.assembleWord w) := by
  unfold State.assembleWord
  split
  · split
    · exact .refl s
    · split
      · split
        · exact kept_setAssembler s _
        · split
          · exact kept_setAssembler s _
          · exact kept_ccp s _ le_rfl le_rfl
      · exact kept_ccp s _ le_rfl le_rfl
  · split
    · exact kept_ccp s _ le_rfl le_rfl
    · split
      · exact kept_setAssembler s _
      · exact kept_setAssembler s _
  · dsimp only
    split
    · exact (kept_setAssembler s _).trans (kept_cellArrived _ _)
    · exact (kept_setAssembler s _).trans (kept_ccp _ _ le_rfl le_rfl)
  · split
    · exact kept_setAssembler s _
    · exact .refl s

theorem kept_highwayFrame (s : State) (tsi pxi : List Word) : Kept s (s.highwayFrame tsi pxi) :=
  .trans (.trans (.trans (.trans (.trans (.trans (kept_settleDue s) (kept_applyPaths _)) (kept_hwi _ _)) (kept_advanceSources _))
    (kept_detectorFrame _ tsi)) (kept_debounceFrame _ tsi pxi)) (kept_assembleWord _ _)

theorem kept_frameReceived (tsi pxi : List Word) (s : State) : Kept s (s.frameReceived tsi pxi) := by
  unfold State.frameReceived
  split
  · exact kept_highwayFrame s tsi pxi
  · exact .refl s

/-! ### Frame sync (R129 to R131) -/

theorem Trunk.Fits.syncLost {x : Trunk} {role : TrunkRole} (h : x.Fits role) : x.syncLost.Fits role := by
  have hcool (hs : x.state = .warning ∨ x.state = .taken ∨ x.state = .cooldown) :
      ({ x with state := .cooldown, holder := none, warnTimer := none, guard := .pending } : Trunk).Fits role := by
    obtain ⟨hr, -⟩ := h
    refine ⟨?_, by simp, by simp, by simp⟩
    rcases hs with hs | hs | hs <;> rw [hs] at hr <;> cases role <;> simp_all [roleAllows]
  unfold Trunk.syncLost
  split
  · next hs => exact hcool (.inl hs)
  · next hs => exact hcool (.inr (.inl hs))
  · next hs => exact hcool (.inr (.inr hs))
  · exact h

theorem syncLost_holder {x : Trunk} {e : EngineId} (h : x.syncLost.holder = some e) : x.holder = some e := by
  unfold Trunk.syncLost at h
  split at h
  · cases h
  · cases h
  · cases h
  · exact h

theorem Trunk.Fits.syncRestored {x : Trunk} {role : TrunkRole} (h : x.Fits role) (n : Nat) : (x.syncRestored n).Fits role := by
  unfold Trunk.syncRestored
  split
  · next hg =>
    obtain ⟨hr, hh, hw, hc⟩ := h
    rw [hg] at hc
    exact ⟨hr, hh, hw, by simpa using hc⟩
  · exact h

theorem syncRestored_holder (x : Trunk) (n : Nat) : (x.syncRestored n).holder = x.holder := by
  unfold Trunk.syncRestored; split <;> rfl

theorem lost_count (x : Hwi) (t : TrunkId) (sig : LineSignal) : ((vget x.lost.lines t).get sig).count = 0 := by
  unfold Hwi.lost
  rw [vget_vmap]
  cases sig <;> rfl

theorem kept_linesLost (s : State) : Kept s { s with hwi := s.hwi.lost } :=
  .of_still (.of_lines (fun _ t sig => by rw [lost_count]; exact Nat.zero_le _) rfl rfl rfl rfl rfl) rfl rfl rfl rfl

theorem kept_trunksLost (s : State) : Kept s { s with trunks := vmap (fun _ t => Trunk.syncLost t) s.trunks } := by
  have htrunk (u : TrunkId) : State.trunk { s with trunks := vmap (fun _ t => Trunk.syncLost t) s.trunks } u = (s.trunk u).syncLost :=
    vget_vmap ..
  refine .of_trunks (.of_quiet rfl rfl rfl rfl rfl rfl) (fun u h => ?_) (fun u e h => ?_) rfl rfl rfl
  · rw [htrunk]; exact h.syncLost
  · rw [htrunk] at h; exact syncLost_holder h

theorem kept_lineLost (s : State) :
    Kept s { s with hwi := s.hwi.lost, trunks := vmap (fun _ t => Trunk.syncLost t) s.trunks } :=
  (kept_linesLost s).trans (kept_trunksLost { s with hwi := s.hwi.lost })

theorem kept_detectorLost (s : State) (e : EngineId) : Kept s (s.detectorLost e) := by
  unfold State.detectorLost
  refine (kept_stopListening s e).trans (kept_modEngine _ e _ ?_ (.of_work rfl id rfl))
  generalize (s.stopListening e).engine e = x
  exact engineKept_detector x (fun _ => Detector.reset_sound) fun hr _ => ⟨hr, nofun⟩

theorem kept_loseSync (s : State) (taken : EngineSet) : Kept s (s.loseSync taken) := by
  unfold State.loseSync
  dsimp only
  exact (kept_channelLost s).trans ((kept_lineLost _).trans ((kept_postAborts _ _ _).trans
    ((foldl_kept kept_detectorLost _ _).trans (kept_raise _ _))))

theorem kept_restoreSync (s : State) (time : Nat) : Kept s (s.restoreSync time) := by
  have htrunks : Kept { s with hwi := { s.hwi with sync := .inSync (time + framePeriod) 0, grid := 0 } }
      { s with
        hwi := { s.hwi with sync := .inSync (time + framePeriod) 0, grid := 0 }
        trunks := vmap (fun _ t => Trunk.syncRestored s.siteOr.releaseGuard t) s.trunks } := by
    have htrunk (u : TrunkId) : State.trunk { s with
        hwi := { s.hwi with sync := .inSync (time + framePeriod) 0, grid := 0 }
        trunks := vmap (fun _ t => Trunk.syncRestored s.siteOr.releaseGuard t) s.trunks } u =
        (s.trunk u).syncRestored s.siteOr.releaseGuard := vget_vmap ..
    refine .of_trunks (.of_quiet rfl rfl rfl rfl rfl rfl) (fun u h => ?_) (fun u e h => ?_) rfl rfl rfl
    · rw [htrunk]; exact Trunk.Fits.syncRestored h _
    · rw [htrunk, syncRestored_holder] at h
      exact h
  unfold State.restoreSync
  dsimp only
  refine (kept_hwi s { s.hwi with sync := .inSync (time + framePeriod) 0, grid := 0 }).trans (htrunks.trans ((kept_cause _).trans ?_))
  split
  · exact kept_raise _ _
  · exact .refl _

theorem kept_pulse (s : State) (time : Nat) : Kept s (s.pulse time) := by
  unfold State.pulse
  split
  · split
    · exact kept_hwi s _
    · exact .refl s
  · split
    · split
      · exact kept_restoreSync s time
      · exact kept_hwi s _
    · exact kept_hwi s _

theorem kept_missedStart (s : State) : Kept s s.missedStart := by
  unfold State.missedStart
  split
  · split
    · exact kept_loseSync s _
    · exact kept_hwi s _
  · exact kept_hwi s _

theorem kept_thirdMissed (taken : EngineSet) (s : State) : Kept s (s.thirdMissed taken) := by
  unfold State.thirdMissed
  split
  · exact kept_loseSync s taken
  · exact .refl s

theorem kept_eighthPulse (time : Nat) (s : State) : Kept s (s.eighthPulse time) := by
  unfold State.eighthPulse
  split
  · exact kept_restoreSync s time
  · exact .refl s

theorem kept_holdInReset (s : State) : Kept s s.holdInReset := .of_still (.of_quiet rfl rfl rfl rfl rfl rfl) rfl rfl rfl rfl

/-! ### Time and the scheduler's timers -/

theorem kept_secondPasses (s : State) : Kept s s.secondPasses := by
  refine .of_map (localKept_secondPasses s) (f := Record.second) ⟨Record.second_handle, Record.second_key, Record.second_cls⟩
    (fun r _ e => ?_) rfl rfl rfl rfl
  rw [Record.second_state]
  cases r.state with
  | held n part => unfold RecordState.second; dsimp only; split <;> simp
  | _ => rfl

theorem kept_backoffEnd (h : Handle) (s : State) : Kept s (s.backoffEnd h) := by
  unfold State.backoffEnd
  split
  · next r hr =>
    split
    · next hb =>
      obtain rfl := handle_of_findRecord hr
      refine (kept_updateFound s (findRecord_mem hr) (f := fun r => { r with state := .waiting })
        ⟨fun _ => rfl, fun _ => rfl, fun _ => rfl⟩ ?_ rfl fun _ h => h).trans (kept_reportWaiting _ _)
      cases hs : r.state <;> simp_all [RecordState.backoffOver, RecordState.isInCall]
    · exact .refl s
  · exact .refl s

theorem kept_holdTimerEnd (s : State) : Kept s s.holdTimerEnd := by
  unfold State.holdTimerEnd
  split
  · exact kept_endHold s _
  · exact .refl s

theorem kept_slotExpired (s : State) : Kept s s.slotExpired := by
  unfold State.slotExpired
  split
  · exact (kept_cmu s _).trans (kept_raise _ _)
  all_goals exact .refl s

theorem kept_periodicEnd (s : State) : Kept s s.periodicEnd := by
  unfold State.periodicEnd
  split
  · exact (kept_internalAlert s _ _).trans (kept_cmu _ _)
  · exact .refl s

theorem kept_silenceEnd (s : State) : Kept s s.silenceEnd := by
  unfold State.silenceEnd
  split
  · exact .trans (.trans (kept_cmu s _) (kept_internalAlert _ _ _)) (kept_raise _ _)
  · exact .refl s

theorem Trunk.Fits.tick {x : Trunk} {role : TrunkRole} (h : x.Fits role) : x.tick.Fits role := by
  obtain ⟨hr, hh, hw, hg⟩ := h
  refine ⟨hr, hh, ?_, ?_⟩
  · simpa [Trunk.tick, timerTick_eq] using hw
  · rw [Trunk.tick, ← hg]
    cases x.guard <;> simp [GuardTimer.tick]

theorem kept_tick (s : State) : Kept s s.tick := by
  by_cases hlow : s.resetLow = true
  · rw [tick_held hlow]; exact .refl s
  · have hlow : s.resetLow = false := by simpa using hlow
    have hqueue : s.tick.queue = s.queue.map Record.tick := by rw [tick_live hlow]
    have hstate (r : Record) (e : EngineId) : r.tick.state = .inCall e ↔ r.state = .inCall e := by
      rw [Record.tick_state]
      cases r.state <;> simp [RecordState.tick]
    have hmap : RecordMap Record.tick := ⟨Record.tick_handle, Record.tick_key, Record.tick_cls⟩
    have hlocal : LocalKept s { s with queue := s.queue.map Record.tick } :=
      localKept_map s hmap (fun r _ h => by rw [Record.tick_state, RecordState.tick_isInCall]; exact h) fun _ h => h
    have hengine (e : EngineId) : EngineKept (s.engine e) (s.engine e).tick :=
      .of_idle rfl rfl rfl fun h => by rw [h]; rfl
    refine ⟨hlocal.trans (.of_engines (t := s.tick) (fun e => ?_) (by rw [tick_live hlow]) (by rw [tick_live hlow])
      (by rw [tick_live hlow]) (by rw [tick_live hlow]) (by rw [tick_live hlow])), ?_, fun _ _ hc e => ?_⟩
    · rw [tick_engine hlow]; exact hengine e
    · refine held_of (by rw [tick_live hlow]) (fun u h => ?_) (fun u e h => ?_) fun e => ?_
      · rw [tick_trunk hlow]; exact h.tick
      · rw [tick_trunk hlow] at h; exact h
      · rw [tick_engine hlow]; exact ⟨id, rfl⟩
    · refine State.CallHolds.kept (bound_map hmap hqueue (fun r _ => hstate r) e) ?_ (hc e)
      rw [tick_engine hlow]
      exact .of_work rfl id rfl

end Sys2Proof.Machine

namespace Sys2Proof.Machine

/-! ### Every command, every step -/

theorem kept_setNotify (s : State) (p : EventKind → Bool) : Kept s (s.setNotify p) := .of_still (localKept_setNotify s p)

theorem kept_clearEvents (s : State) (p : EventKind → Bool) : Kept s (s.clearEvents p) := .of_still (localKept_clearEvents s p)

/-- A meaning that does nothing in a held reset keeps what its operation keeps. -/
theorem kept_running {s m t : State} (hf : Kept s m)
    (h : (Host.Outcome.next (if s.resetLow then s else m) : Host.Outcome State Fault Refusal) = .next t) : Kept s t := by
  obtain rfl := Host.Outcome.next.inj h
  split
  · exact .refl s
  · exact hf

theorem exec_kept {c : Instr} (hc : c ≠ .powerOnReset) {s t : State} (h : exec c s = .next t) : Kept s t := by
  cases c with
  | resetNAsserted =>
    obtain rfl := Host.Outcome.next.inj h
    exact kept_holdInReset s
  | powerOnReset => exact absurd rfl hc
  | fsPulse time => exact kept_running (kept_pulse s time) h
  | missedFrameStart => exact kept_running (kept_missedStart s) h
  | syncLost taken => exact kept_running (kept_thirdMissed taken s) h
  | syncRestored time => exact kept_running (kept_eighthPulse time s) h
  | highwayFrame tsi pxi => exact kept_running (kept_frameReceived tsi pxi s) h
  | debouncedLChange u => exact kept_running (kept_onChange s u .l fun s v => kept_lChange s u v) h
  | debouncedGChange u => exact kept_running (kept_onChange s u .g fun s v => kept_gChange s u v) h
  | debouncedVChange u => exact kept_running (kept_onChange s u .v fun s v => kept_vChange s u v) h
  | debouncedFChange u o => exact kept_running (kept_onChange s u .f fun s v => kept_fChange s u o v) h
  | debouncedSChange u => exact kept_running (kept_onChange s u .s fun s _ => kept_officeChanged s s u) h
  | warningPartEnd u => exact kept_running (kept_hwi s _) h
  | detectionFrameEnd => exact kept_running (kept_frameEndDue s) h
  | dialToneMatchedTaken e tone =>
    exact kept_running (kept_onMatched s e tone (fun _ _ => rfl) fun m role hh _ => kept_dialToneMatched m e role (by
      simp only [Bool.and_eq_true, beq_iff_eq] at hh
      exact hh.1.1)) h
  | answerMatchedTaken e tone =>
    exact kept_running (kept_onMatched s e tone (fun _ _ => rfl) fun m role hh _ =>
      kept_answerMatched m e tone role (by simpa using hh)) h
  | ackMatchedTaken e tone =>
    exact kept_running (kept_onMatched s e tone (fun _ _ => rfl) fun m _ hh _ => kept_ackMatched m e tone (by simpa using hh)) h
  | lineTestToneMatched e tone =>
    exact kept_running (kept_onMatched s e tone (fun _ _ => rfl) fun m _ hh _ => kept_testToneMatched m e tone (by
      simp only [Bool.and_eq_true, beq_iff_eq] at hh
      exact hh.1)) h
  | absentTaken e tone => exact kept_running (kept_absentTaken e tone s) h
  | levelTaken e => exact kept_running (kept_levelTaken e s) h
  | secondTick => exact kept_running (kept_secondPasses s) h
  | backoffExpiry n => exact kept_running (kept_backoffEnd n s) h
  | selection => exact kept_running (kept_selectionStep s) h
  | preemptMarkTaken e => exact kept_running (kept_markTaken e s) h
  | warningTimerExpiry u => exact kept_running (kept_warningTimerEnd u s) h
  | ringRecentExpiry u => exact kept_running (kept_ringRecentEnd u s) h
  | guardTimerExpiry u => exact kept_running (kept_guardTimerEnd u s) h
  | releaseGuardExpiry e =>
    exact kept_running (kept_onTimer s e fun hh _ => kept_clearEnd s e (by simpa using hh)) h
  | loopTimeoutExpiry e => exact kept_running (kept_onTimer s e fun _ _ => kept_failWork s e _ _) h
  | dialToneTimeout e => exact kept_running (kept_onTimer s e fun _ _ => kept_failWork s e _ _) h
  | blindWaitExpiry e =>
    exact kept_running (kept_onTimer s e fun hh _ => kept_blindEnd s e (by
      simp only [Bool.and_eq_true, beq_iff_eq] at hh
      exact hh.1)) h
  | symbolEnd e => exact kept_running (kept_symbolEnd e s) h
  | answerTimeout e => exact kept_running (kept_onTimer s e fun _ _ => kept_failCall s e _) h
  | guardEnd e => exact kept_running (kept_onTimer s e fun hh _ => kept_guardDone s e (by simpa using hh)) h
  | ackTimeout e =>
    exact kept_running (kept_onTimer s e fun hh _ => by
      simp only [Bool.and_eq_true, beq_iff_eq] at hh
      exact kept_ackTimedOut s e hh.1 hh.2) h
  | ackToneHeardTimeout e =>
    exact kept_running (kept_onTimer s e fun hh hp => by
      simp only [Bool.and_eq_true, beq_iff_eq] at hh
      exact kept_enterGuard s e .guard hp (by simp [Engine.acknowledged, hh.1, hh.2])) h
  | resendGuardEnd e =>
    exact kept_running (kept_onTimer s e fun hh _ =>
      kept_startSending s e (acknowledged_eq_false (.inr (.inr (.inr (by simpa using hh)))))) h
  | loopLossExpiry e => exact kept_running (kept_loopLossEnd e s) h
  | levelWindowExpiry e => exact kept_running (kept_onTimer s e fun _ _ => kept_levelWindowEnd s e) h
  | engineAbort e => exact kept_running (kept_abortTaken e s) h
  | holdTimerExpiry => exact kept_running (kept_holdTimerEnd s) h
  | commandExpired => exact kept_running (kept_slotExpired s) h
  | periodicTestExpiry => exact kept_running (kept_periodicEnd s) h
  | silenceTimerExpiry => exact kept_running (kept_silenceEnd s) h
  | cellTaken => exact kept_running (kept_takeCell s) h
  | alert => exact kept_running (kept_onCell s 1 (kept_stationAlert s)) h
  | tableWrite => exact kept_running (kept_onCell s 3 (kept_writeTable s)) h
  | tableRead => exact kept_running (kept_onCell s 4 (kept_readTable s)) h
  | queueRead => exact kept_running (kept_onCell s 8 (kept_readQueue s)) h
  | statusRequest => exact kept_running (kept_onCell s 7 fun _ => kept_replyWith s _ _) h
  | cancel => exact kept_running (kept_onCell s 6 fun _ => kept_cancelSlot s) h
  | unknownKind => exact kept_running (kept_unknownCell s) h
  | lineTest => exact kept_running (kept_onCommand s 1 (kept_lineTestCommand s)) h
  | testCall => exact kept_running (kept_onCommand s 2 (kept_testCallCommand s)) h
  | bar => exact kept_running (kept_onCommand s 3 (kept_barCommand true s)) h
  | unbar => exact kept_running (kept_onCommand s 4 (kept_barCommand false s)) h
  | barAll =>
    exact kept_running (kept_onCommand s 5 (f := fun s _ => (s.setAllBarred true).answer .done []) fun _ => (kept_setAllBarred s true).trans (kept_answer _ _ _)) h
  | unbarAll =>
    exact kept_running (kept_onCommand s 6 (f := fun s _ => (s.setAllBarred false).answer .done []) fun _ => (kept_setAllBarred s false).trans (kept_answer _ _ _)) h
  | hold => exact kept_running (kept_onCommand s 7 fun _ => (kept_setHold s _).trans (kept_answer _ _ _)) h
  | resume => exact kept_running (kept_onCommand s 8 fun _ => (kept_endHold s _).trans (kept_answer _ _ _)) h
  | abortCalls taken => exact kept_running (kept_onCommand s 9 fun _ => (kept_postAborts s _ taken).trans (kept_answer _ _ _)) h
  | releaseStranded => exact kept_running (kept_onCommand s 10 fun _ => (kept_releaseStranded s).trans (kept_answer _ _ _)) h
  | purge => exact kept_running (kept_onCommand s 11 (kept_purgeCommand s)) h
  | setNotify =>
    exact kept_running (kept_onCommand s 12 fun _ => (kept_setNotify s _).trans (kept_answer _ _ _)) h
  | clearEvents =>
    exact kept_running (kept_onCommand s 13 fun _ => (kept_clearEvents s _).trans (kept_answer _ _ _)) h
  | init taken => exact kept_running (kept_onCommand s 14 (kept_initPart taken s)) h
  | badCommandCode => exact kept_running (kept_onCell s 5 (kept_badCode s)) h
  | answerEmissionStart => exact kept_running (kept_startAnswer s) h
  | eventCellStart => exact kept_running (kept_startEvent s) h
  | emissionEnd => exact kept_running (kept_endEmission s) h

/-- A step is a tick or a command, or it is the reset, which starts anew. -/
theorem step_kept {s t : State} (h : step s = .next t) : Kept s t ∨ ∃ p, t = { State.reset with pending := p } := by
  cases hp : s.pending with
  | nil =>
    rw [step_of_empty hp] at h
    obtain rfl := Host.Outcome.next.inj h
    exact .inl (kept_tick s)
  | cons c rest =>
    rw [step_of_front hp] at h
    by_cases hc : c = .powerOnReset
    · subst hc
      exact .inr ⟨rest, (Host.Outcome.next.inj h).symm⟩
    · have hqueued : Kept s { s with pending := rest } := .of_still (.of_quiet rfl rfl rfl rfl rfl rfl) rfl rfl rfl rfl
      exact .inl (hqueued.trans (exec_kept hc h))

end Sys2Proof.Machine

namespace Sys2Proof.Proofs

open Sys2Proof Sys2Proof.Machine

/-- Settles O6: every command keeps the queue by itself, and the calls where the queue and the IDLE engines are sound. -/
theorem stepKeepsQueueSound : Obligations.StepKeepsQueueSound := by
  intro s t hq h
  rcases step_kept h with hk | ⟨p, rfl⟩
  · exact ⟨hk.queue hq, hk.calls hq⟩
  · exact ⟨resetMeetsInvariants.1, fun _ _ => resetMeetsInvariants.2.2.2.2.2.1⟩

/-- Settles O7. -/
theorem stepKeepsRecordsInRange : Obligations.StepKeepsRecordsInRange := by
  intro s t hs h
  rcases step_kept h with hk | ⟨p, rfl⟩
  · exact hk.records hs
  · nofun

/-- Settles O8: a trunk's state and its holder change together with what the holder holds. -/
theorem stepKeepsTrunksHeld : Obligations.StepKeepsTrunksHeld := by
  intro s t hs hh h
  rcases step_kept h with hk | ⟨p, rfl⟩
  · exact hk.held hs hh
  · exact ⟨resetMeetsInvariants.2.2.1, resetMeetsInvariants.2.2.2.1⟩

/-- Settles O9: a call starts on a route on which no call is, and no call changes its route. -/
theorem stepKeepsRoutesDistinct : Obligations.StepKeepsRoutesDistinct := by
  intro s t hs h
  rcases step_kept h with hk | ⟨p, rfl⟩
  · exact hk.routes hs
  · nofun

/-- Settles O10. -/
theorem stepKeepsSignalsSound : Obligations.StepKeepsSignalsSound := by
  intro s t h
  rcases step_kept h with hk | ⟨p, rfl⟩
  · exact ⟨fun hd => ⟨hk.detectors .e0 hd.1, hk.detectors .e1 hd.2⟩, hk.debounce⟩
  · exact ⟨fun _ => resetMeetsInvariants.2.2.2.2.2.2.1, fun _ => resetMeetsInvariants.2.2.2.2.2.2.2.1⟩

/-- Settles O11. -/
theorem stepKeepsChannelSound : Obligations.StepKeepsChannelSound := by
  intro s t hs h
  rcases step_kept h with hk | ⟨p, rfl⟩
  · exact hk.channel hs
  · exact ⟨Nat.zero_le _, Nat.zero_le _⟩

/-- Settles O12: an occurrence, a snapshot and its restore each keep a count with its pending flag. -/
theorem stepKeepsEventsSound : Obligations.StepKeepsEventsSound := by
  intro s t hs h
  rcases step_kept h with hk | ⟨p, rfl⟩
  · exact hk.events hs
  · exact resetMeetsInvariants.2.2.2.2.2.2.2.2.2.1

/-- Settles O13: a write is parsed into the ranges of its fields before it is staged or applied. -/
theorem stepKeepsTablesSound : Obligations.StepKeepsTablesSound := by
  intro s t h
  rcases step_kept h with hk | ⟨p, rfl⟩
  · exact ⟨hk.ranges, hk.slots⟩
  · exact ⟨fun _ => tablesInRange_empty rfl, fun _ => slotsDistinct_empty rfl⟩

/-- Settles O14: an engine becomes IDLE through its closing, which puts away all it holds. -/
theorem stepKeepsIdleEnginesEmpty : Obligations.StepKeepsIdleEnginesEmpty := by
  intro s t hs h
  rcases step_kept h with hk | ⟨p, rfl⟩
  · exact fun e => hk.idle e (hs e)
  · obtain ⟨-, -, -, -, -, -, -, -, -, -, -, -, hidle⟩ := resetMeetsInvariants
    exact hidle

end Sys2Proof.Proofs

namespace Sys2Proof.Machine

/-! ### Frame sync: what a pulse and a missed start do (R129, R131) -/

theorem exec_fsPulse {s : State} (h : s.resetLow = false) (time : Nat) : exec (.fsPulse time) s = .next (s.pulse time) :=
  running_live (fun s : State => s.pulse time) h

theorem exec_missedFrameStart {s : State} (h : s.resetLow = false) : exec .missedFrameStart s = .next s.missedStart :=
  running_live State.missedStart h

theorem exec_syncLost {s : State} (h : s.resetLow = false) (taken : EngineSet) :
    exec (.syncLost taken) s = .next (s.thirdMissed taken) :=
  running_live (State.thirdMissed taken) h

theorem exec_syncRestored {s : State} (h : s.resetLow = false) (time : Nat) :
    exec (.syncRestored time) s = .next (s.eighthPulse time) :=
  running_live (State.eighthPulse time) h

theorem exec_highwayFrame {s : State} (h : s.resetLow = false) (hs : s.inSync = true) (tsi pxi : List Word) :
    exec (.highwayFrame tsi pxi) s = .next (s.highwayFrame tsi pxi) := by
  refine (running_live (State.frameReceived tsi pxi) h).trans ?_
  rw [State.frameReceived, if_pos hs]

theorem pulse_inSync {s : State} {x m : Nat} (h : s.hwi.sync = .inSync x m) (time : Nat) :
    s.pulse time = if time = x then { s with hwi := { s.hwi with sync := .inSync (x + 125) 0 } } else s := by
  simp [State.pulse, h, framePeriod]

theorem pulse_lost {s : State} {last : Option Nat} {good : Nat} (h : s.hwi.sync = .lost last good) (time : Nat) :
    s.pulse time =
      if last.map (· + 125) = some time then
        if good + 1 = 8 then s.restoreSync time
        else { s with hwi := { s.hwi with sync := .lost (some time) (good + 1) } }
      else { s with hwi := { s.hwi with sync := .lost (some time) 0 } } := by
  simp [State.pulse, h, framePeriod]

theorem missedStart_inSync {s : State} {x m : Nat} (h : s.hwi.sync = .inSync x m) :
    s.missedStart = if m ≥ 2 then s.loseSync ⟨true, true⟩
      else { s with hwi := { s.hwi with sync := .inSync (x + 125) (m + 1) } } := by
  simp [State.missedStart, h, framePeriod]

theorem missedStart_lost {s : State} {last : Option Nat} {good : Nat} (h : s.hwi.sync = .lost last good) :
    s.missedStart = { s with hwi := { s.hwi with sync := .lost last 0 } } := by
  simp [State.missedStart, h]

theorem thirdMissed_inSync {s : State} {x m : Nat} (h : s.hwi.sync = .inSync x m) (hm : 2 ≤ m) (taken : EngineSet) :
    s.thirdMissed taken = s.loseSync taken := by
  simp [State.thirdMissed, SyncState.thirdMiss, h, hm]

theorem eighthPulse_lost {s : State} {p : Nat} (h : s.hwi.sync = .lost (some p) 7) :
    s.eighthPulse (p + 125) = s.restoreSync (p + 125) := by
  simp [State.eighthPulse, SyncState.eighthGood, h, framePeriod]

theorem restoreSync_trunk (s : State) (time : Nat) (u : TrunkId) :
    (s.restoreSync time).trunk u = (s.trunk u).syncRestored s.siteOr.releaseGuard := by
  unfold State.restoreSync
  dsimp only
  split <;> exact vget_vmap ..

theorem syncRestored_eq (x : Trunk) (n : Nat) :
    x.syncRestored n = { x with guard := if x.guard = .pending then .running (ticksOfMs n) else x.guard } := by
  unfold Trunk.syncRestored
  split
  · next h => rw [if_pos h]
  · next h => rw [if_neg h]

/-! ### The words of a frame (R119 to R124) -/

theorem slotWord_append_low {ws xs : List Word} {k : Nat} (h : k < ws.length) : slotWord (ws ++ xs) k = slotWord ws k := by
  simp [slotWord, List.getElem?_append_left h]

theorem slotWord_map_range (f : Nat → Word) {n k : Nat} (h : k < n) : slotWord ((List.range n).map f) k = f k := by
  simp [slotWord, h]

theorem formTso_audio (s : State) (pxi : List Word) {k : Nat} (h : k < 29) :
    slotWord (s.formTso pxi) k = s.tsoAudio k (slotWord pxi k) := by
  rw [State.formTso, slotWord_append_low (by simpa using h), slotWord_map_range _ h]

theorem formPxo_audio (s : State) (tsi : List Word) {k : Nat} (h : k < 29) :
    slotWord (s.formPxo tsi) k = s.pxoAudio k (slotWord tsi k) := by
  rw [State.formPxo, slotWord_append_low (by simpa using h), slotWord_map_range _ h]

theorem formTso_length (s : State) (pxi : List Word) : (s.formTso pxi).length = 32 := by simp [State.formTso]

theorem formPxo_length (s : State) (tsi : List Word) : (s.formPxo tsi).length = 32 := by simp [State.formPxo]

theorem slotWord_append_high (f : Nat → Word) (xs : List Word) (i : Nat) :
    slotWord ((List.range 29).map f ++ xs) (29 + i) = xs.getD i 0 := by
  simp [slotWord, List.getElem?_append_right]

theorem formTso_control (s : State) (pxi : List Word) : slotWord (s.formTso pxi) 31 = slotWord pxi 31 :=
  slotWord_append_high _ _ 2

theorem formPxo_control (s : State) (tsi : List Word) : slotWord (s.formPxo tsi) 31 = s.controlWord :=
  slotWord_append_high _ _ 2

theorem slotOwner_spec {s : State} {k : Nat} {t : TrunkId} (h : s.slotOwner k = some t) : s.trunkSlot t = some k := by
  simpa using List.find?_some h

theorem slotOwner_none {s : State} {k : Nat} (h : s.slotOwner k = none) (t : TrunkId) : s.trunkSlot t ≠ some k := by
  simpa using List.find?_eq_none.1 h t (List.mem_finRange t)

/-- R141: a slot has one trunk. -/
theorem trunkSlot_inj {s : State} (hd : SlotsDistinct s) {t u : TrunkId} {k : Nat} (ht : s.trunkSlot t = some k)
    (hu : s.trunkSlot u = some k) : t = u := by
  by_contra hne
  have hentry {v : TrunkId} (hv : s.trunkSlot v = some k) :
      ∃ e, (vget s.tables.trunks v).applied = some e ∧ e.role ≠ .unused ∧ e.slot = k := by
    unfold State.trunkSlot at hv
    split at hv
    · next e he =>
      split at hv
      · cases hv
      · next hr => exact ⟨e, he, hr, Option.some.inj hv⟩
    · cases hv
  obtain ⟨a, ha, har, hak⟩ := hentry ht
  obtain ⟨b, hb, hbr, hbk⟩ := hentry hu
  exact hd t u hne _ (.head _) _ (.head _) a b ha hb har hbr (hak.trans hbk.symm)

theorem slotOwner_of_trunkSlot {s : State} (hd : SlotsDistinct s) {u : TrunkId} {k : Nat} (hu : s.trunkSlot u = some k) :
    s.slotOwner k = some u := by
  cases h : s.slotOwner k with
  | none => exact absurd hu (slotOwner_none h u)
  | some t => rw [trunkSlot_inj hd (slotOwner_spec h) hu]

theorem tsoAudio_unmanaged {s : State} {k : Nat} (h : ∀ u, s.managed u = true → s.trunkSlot u ≠ some k) (w : Word) :
    s.tsoAudio k w = w := by
  unfold State.tsoAudio
  split
  · rfl
  · next t ht => rw [if_neg fun hm => h t hm (slotOwner_spec ht)]

theorem pxoAudio_unmanaged {s : State} {k : Nat} (h : ∀ u, s.managed u = true → s.trunkSlot u ≠ some k) (w : Word) :
    s.pxoAudio k w = w := by
  unfold State.pxoAudio
  split
  · rfl
  · next t ht => rw [if_neg fun hm => h t hm (slotOwner_spec ht)]

theorem tsoAudio_managed {s : State} {k : Nat} {u : TrunkId} (hd : SlotsDistinct s) (hm : s.managed u = true)
    (hu : s.trunkSlot u = some k) (w : Word) : s.tsoAudio k w = match vget s.hwi.applied u with
      | .through => w
      | .warnMix => saturate16 (w.toInt + (vget s.hwi.warnings u).output)
      | .taken => BitVec.ofInt 16 (s.generatorSample u)
      | .blocked => 0 := by
  rw [State.tsoAudio, slotOwner_of_trunkSlot hd hu]
  exact if_pos hm

theorem pxoAudio_managed {s : State} {k : Nat} {u : TrunkId} (hd : SlotsDistinct s) (hm : s.managed u = true)
    (hu : s.trunkSlot u = some k) (w : Word) : s.pxoAudio k w = match vget s.hwi.applied u with
      | .through => w
      | .warnMix => saturate16 (w.toInt + (vget s.hwi.warnings u).output)
      | .taken => 0
      | .blocked => 0 := by
  rw [State.pxoAudio, slotOwner_of_trunkSlot hd hu]
  exact if_pos hm

/-! ### The state in which a frame's words are formed -/

/-- The state of a frame once what is due has been settled and the path states have been applied. -/
def State.framed (s : State) : State := s.settleDue.applyPaths

@[simp] theorem endEmission_hwi (s : State) : s.endEmission.hwi = s.hwi := by
  unfold State.endEmission
  split
  · exact iteInduction (motive := fun x => State.hwi x = s.hwi) (fun _ => rfl) fun _ => rfl
  all_goals rfl

@[simp] theorem endEmission_tables (s : State) : s.endEmission.tables = s.tables := by
  unfold State.endEmission
  split
  · exact iteInduction (motive := fun x => State.tables x = s.tables) (fun _ => rfl) fun _ => rfl
  all_goals rfl

@[simp] theorem endEmission_trunks (s : State) : s.endEmission.trunks = s.trunks := by
  unfold State.endEmission
  split
  · exact iteInduction (motive := fun x => State.trunks x = s.trunks) (fun _ => rfl) fun _ => rfl
  all_goals rfl

@[simp] theorem endEmission_engines (s : State) : s.endEmission.engines = s.engines := by
  unfold State.endEmission
  split
  · exact iteInduction (motive := fun x => State.engines x = s.engines) (fun _ => rfl) fun _ => rfl
  all_goals rfl

@[simp] theorem endEmission_clock (s : State) : s.endEmission.clock = s.clock := by
  unfold State.endEmission
  split
  · exact iteInduction (motive := fun x => State.clock x = s.clock) (fun _ => rfl) fun _ => rfl
  all_goals rfl

theorem settleDue_cases (s : State) : ∃ m, (m = s.endEmission ∨ m = s.endEmission.detectionFrameEnd) ∧
    s.settleDue = { m with hwi := { m.hwi with warnings := vmap (fun _ w => w.turn m.siteOr) m.hwi.warnings } } := by
  unfold State.settleDue
  dsimp only
  split
  · exact ⟨_, .inr rfl, rfl⟩
  · exact ⟨_, .inl rfl, rfl⟩

@[simp] theorem settleDue_tables (s : State) : s.settleDue.tables = s.tables := by
  obtain ⟨m, rfl | rfl, h⟩ := settleDue_cases s <;> rw [h] <;> exact endEmission_tables s

@[simp] theorem settleDue_trunks (s : State) : s.settleDue.trunks = s.trunks := by
  obtain ⟨m, rfl | rfl, h⟩ := settleDue_cases s <;> rw [h] <;> exact endEmission_trunks s

theorem settleDue_warnings (s : State) (u : TrunkId) :
    vget s.settleDue.hwi.warnings u = (vget s.hwi.warnings u).turn s.siteOr := by
  obtain ⟨m, hm, h⟩ := settleDue_cases s
  have hwarn : m.hwi.warnings = s.hwi.warnings := by
    rcases hm with rfl | rfl
    · rw [endEmission_hwi]
    · show s.endEmission.hwi.warnings = _
      rw [endEmission_hwi]
  have hsite : m.siteOr = s.siteOr := by
    refine siteOr_congr ?_ ?_ <;> rcases hm with rfl | rfl
    · exact endEmission_tables s
    · exact endEmission_tables s
    · exact endEmission_clock s
    · exact endEmission_clock s
  rw [h]
  simp only [vget_vmap, hwarn, hsite]

@[simp] theorem settleDue_clock (s : State) : s.settleDue.clock = s.clock := by
  obtain ⟨m, rfl | rfl, h⟩ := settleDue_cases s <;> rw [h] <;> exact endEmission_clock s

/-- A frame that ends changes an engine's reports and detector alone. -/
theorem settleDue_engine (s : State) (e : EngineId) : ∃ rs d, s.settleDue.engine e = { s.engine e with reports := rs, detector := d } := by
  obtain ⟨m, rfl | rfl, h⟩ := settleDue_cases s
  · rw [h]
    exact ⟨(s.engine e).reports, (s.engine e).detector, engine_of_engines (endEmission_engines s) e⟩
  · rw [h]
    show ∃ rs d, s.endEmission.detectionFrameEnd.engine e = _
    rw [detectionFrameEnd_engine, engine_of_engines (endEmission_engines s)]
    exact ⟨_, _, rfl⟩

@[simp] theorem framed_tables (s : State) : s.framed.tables = s.tables := settleDue_tables s
@[simp] theorem framed_trunks (s : State) : s.framed.trunks = s.trunks := settleDue_trunks s

theorem applyPaths_applied (s : State) (u : TrunkId) : vget s.applyPaths.hwi.applied u = pathOf (s.trunk u).state := by
  simp only [State.applyPaths, vget_vmap, State.trunk]

theorem applyPaths_warnings (s : State) (u : TrunkId) : vget s.applyPaths.hwi.warnings u =
    if pathOf (s.trunk u).state = .warnMix then
      (if vget s.hwi.warnings u = .stopped then WarnSource.startOn s.siteOr else vget s.hwi.warnings u)
    else .stopped := by
  simp only [State.applyPaths, vget_vmap]

theorem framed_applied (s : State) (u : TrunkId) : vget s.framed.hwi.applied u = pathOf (s.trunk u).state := by
  rw [State.framed, applyPaths_applied, trunk_of_trunks (settleDue_trunks s)]

theorem turn_eq_stopped (w : WarnSource) (x : SiteRecord) : w.turn x = .stopped ↔ w = .stopped := by
  cases w with
  | stopped => simp [WarnSource.turn]
  | on left i f l => by_cases h : left = 0 <;> simp [WarnSource.turn, h, WarnSource.startOff]
  | off left => by_cases h : left = 0 <;> simp [WarnSource.turn, h, WarnSource.startOn]

theorem framed_warnings (s : State) (u : TrunkId) : vget s.framed.hwi.warnings u =
    if pathOf (s.trunk u).state = .warnMix then
      (if vget s.hwi.warnings u = .stopped then WarnSource.startOn s.siteOr else (vget s.hwi.warnings u).turn s.siteOr)
    else .stopped := by
  have hsite : s.settleDue.siteOr = s.siteOr := siteOr_congr (settleDue_tables s) (settleDue_clock s)
  rw [State.framed, applyPaths_warnings, trunk_of_trunks (settleDue_trunks s), settleDue_warnings, hsite]
  simp only [turn_eq_stopped]

theorem applyPaths_engine (s : State) (e : EngineId) : s.applyPaths.engine e = s.engine e :=
  engine_of_engines (applyPaths_engines s) e

/-- A frame's start changes an engine's reports and detector alone. -/
theorem framed_engine (s : State) (e : EngineId) : ∃ rs d, s.framed.engine e = { s.engine e with reports := rs, detector := d } := by
  obtain ⟨rs, d, h⟩ := settleDue_engine s e
  exact ⟨rs, d, (applyPaths_engine _ e).trans h⟩

theorem framed_generator (s : State) (e : EngineId) : (s.framed.engine e).generator = (s.engine e).generator := by
  obtain ⟨rs, d, h⟩ := framed_engine s e
  rw [h]

theorem framed_seize (s : State) (e : EngineId) : (s.framed.engine e).seize = (s.engine e).seize := by
  obtain ⟨rs, d, h⟩ := framed_engine s e
  rw [h]

theorem framed_trunk (s : State) (u : TrunkId) : s.framed.trunk u = s.trunk u := trunk_of_trunks (framed_trunks s) u

theorem framed_generatorSample (s : State) (u : TrunkId) : s.framed.generatorSample u = s.generatorSample u := by
  simp only [State.generatorSample, framed_trunk, framed_generator]

theorem framed_seizeOf (s : State) (u : TrunkId) : s.framed.seizeOf u = s.seizeOf u := by
  simp only [State.seizeOf, framed_trunk, framed_seize]

theorem framed_managed (s : State) (u : TrunkId) : s.framed.managed u = s.managed u := by
  simp only [State.managed, State.trunkRole, framed_tables]

theorem framed_trunkSlot (s : State) (u : TrunkId) : s.framed.trunkSlot u = s.trunkSlot u := by
  simp only [State.trunkSlot, framed_tables]

/-! ### The words sent and the port (R172) -/

/-- The words of the frame, put out. -/
def State.wordsOut (s : State) (tsi pxi : List Word) : State :=
  { s with hwi := { s.hwi with tso := some (s.formTso pxi), pxo := some (s.formPxo tsi) } }

theorem highwayFrame_eq (s : State) (tsi pxi : List Word) : s.highwayFrame tsi pxi =
    ((((s.framed.wordsOut tsi pxi).advanceSources).detectorFrame tsi).debounceFrame tsi pxi).assembleWord (slotWord pxi 31) := rfl

@[simp] theorem validCell_hwi (s : State) : s.validCell.hwi = s.hwi := by
  unfold State.validCell; dsimp only; split <;> simp

@[simp] theorem validCell_tables (s : State) : s.validCell.tables = s.tables := by
  unfold State.validCell; dsimp only; split <;> simp

@[simp] theorem validCell_trunks (s : State) : s.validCell.trunks = s.trunks := by
  unfold State.validCell; dsimp only; split <;> simp

@[simp] theorem validCell_ccp (s : State) : s.validCell.ccp = s.ccp := by
  unfold State.validCell; dsimp only; split <;> simp

@[simp] theorem cellArrived_hwi (s : State) (c : InCell) : (s.cellArrived c).hwi = s.hwi := by
  unfold State.cellArrived; dsimp only; split <;> simp

@[simp] theorem assembleWord_hwi (s : State) (w : Word) : (s.assembleWord w).hwi = s.hwi := by
  unfold State.assembleWord
  split
  · repeat' split
    all_goals rfl
  · repeat' split
    all_goals rfl
  · dsimp only
    split
    · exact cellArrived_hwi _ _
    · rfl
  · split <;> rfl

theorem highwayFrame_tso (s : State) (tsi pxi : List Word) : (s.highwayFrame tsi pxi).hwi.tso = some (s.framed.formTso pxi) := by
  rw [highwayFrame_eq, assembleWord_hwi]; rfl

theorem highwayFrame_pxo (s : State) (tsi pxi : List Word) : (s.highwayFrame tsi pxi).hwi.pxo = some (s.framed.formPxo tsi) := by
  rw [highwayFrame_eq, assembleWord_hwi]; rfl

end Sys2Proof.Machine

namespace Sys2Proof.Proofs

open Sys2Proof Sys2Proof.Machine

/-- Settles O15: each clause is a branch of the judgement of a pulse or of a missed start. -/
theorem framePulsesJudged : Obligations.FramePulsesJudged := by
  intro s hlow
  simp only [exec_fsPulse hlow, exec_missedFrameStart hlow, exec_syncLost hlow, exec_syncRestored hlow]
  refine ⟨fun x m h => ?_, fun last good h => ?_⟩
  · simp only [pulse_inSync h, missedStart_inSync h]
    refine ⟨rfl, fun time hne => by rw [if_neg hne], fun hm => by rw [if_neg (by omega)], fun hm => ?_⟩
    rw [if_pos hm, thirdMissed_inSync h hm]
  · simp only [pulse_lost h, missedStart_lost h]
    refine ⟨True.intro, fun time hne => by rw [if_neg hne], fun p hp hg => ?_, fun p hp hg => ?_⟩
    · rw [if_pos (by rw [hp]; rfl), if_neg (by omega)]
    · subst hp hg
      rw [if_pos (by rfl), if_pos (by rfl), eighthPulse_lost h]

/-- Settles O16. -/
theorem syncRestoredEffect : Obligations.SyncRestoredEffect := by
  intro s p hlow h
  refine ⟨s.restoreSync (p + 125), ?_, ?_, fun u => ?_, ?_⟩
  · rw [exec_syncRestored hlow, eighthPulse_lost h]
  · unfold State.restoreSync
    dsimp only
    split <;> simp [framePeriod]
  · rw [restoreSync_trunk, syncRestored_eq]
  · unfold State.restoreSync
    dsimp only
    split
    · refine ⟨rfl, raise_record_same _ (.highway true), fun k hk => raise_record_other _ (.highway true) hk, rfl, rfl, rfl, rfl,
        rfl, rfl, rfl, rfl, rfl⟩
    · exact ⟨rfl, rfl, fun _ _ => rfl, rfl, rfl, rfl, rfl, rfl, rfl, rfl, rfl, rfl⟩

/-- Settles O18: a slot has at most one owner, whose path state decides the two words. -/
theorem highwayFrameAudio : Obligations.HighwayFrameAudio := by
  intro s tsi pxi hlow hsync hdist
  have hd : SlotsDistinct s.framed := slotsDistinct_congr (framed_tables s) hdist
  refine ⟨_, _, _, exec_highwayFrame hlow hsync tsi pxi, highwayFrame_tso s tsi pxi, highwayFrame_pxo s tsi pxi,
    formTso_length _ _, formPxo_length _ _, formTso_control _ _, fun k hk hfree => ?_, fun k u hk hm hu => ?_⟩
  · have hfree (u : TrunkId) (h : s.framed.managed u = true) : s.framed.trunkSlot u ≠ some k := by
      rw [framed_trunkSlot]
      exact hfree u (framed_managed s u ▸ h)
    rw [formTso_audio _ _ hk, formPxo_audio _ _ hk]
    exact ⟨tsoAudio_unmanaged hfree _, pxoAudio_unmanaged hfree _⟩
  · have hm : s.framed.managed u = true := (framed_managed s u).trans hm
    have hu : s.framed.trunkSlot u = some k := (framed_trunkSlot s u).trans hu
    rw [formTso_audio _ _ hk, formPxo_audio _ _ hk, tsoAudio_managed hd hm hu, pxoAudio_managed hd hm hu, framed_applied,
      framed_generatorSample, framed_warnings]
    refine ⟨fun h => ?_, fun h => ?_, fun h => ?_, fun h w hw => ?_⟩ <;> rw [h]
    · exact ⟨rfl, rfl⟩
    · exact ⟨rfl, rfl⟩
    · exact ⟨rfl, rfl⟩
    · rw [if_pos rfl, hw]
      exact ⟨rfl, rfl⟩

end Sys2Proof.Proofs

namespace Sys2Proof.Machine

/-! ### One frame of debounce and of the generator (R125, R61) -/

theorem Debounced.frame_agree {x : Debounced} {raw : Bool} (h : raw = x.value) : x.frame raw = { x with count := 0 } := by
  rw [Debounced.frame, if_pos h]

theorem Debounced.frame_disagree {x : Debounced} {raw : Bool} (h : raw ≠ x.value) : x.frame raw =
    if x.count + 1 = 16 then { value := raw, count := 0 } else { x with count := x.count + 1 } := by
  rw [Debounced.frame, if_neg h]

theorem debounce_run (v : Bool) {n : Nat} (h : n ≤ 15) : (List.replicate n (!v)).foldl Debounced.frame ⟨v, 0⟩ = ⟨v, n⟩ := by
  induction n with
  | zero => rfl
  | succ n ih =>
    rw [List.replicate_succ', List.foldl_append, ih (by omega)]
    show Debounced.frame ⟨v, n⟩ (!v) = _
    rw [Debounced.frame_disagree (by simp), if_neg (by dsimp only; omega)]

theorem debounce_sixteen (v : Bool) : (List.replicate 16 (!v)).foldl Debounced.frame ⟨v, 0⟩ = ⟨!v, 0⟩ := by
  rw [List.replicate_succ', List.foldl_append, debounce_run v (le_refl 15)]
  show Debounced.frame ⟨v, 15⟩ (!v) = _
  rw [Debounced.frame_disagree (by simp), if_pos rfl]

/-- A generator after `k` frames. -/
def Generator.after (g : Generator) (k : Nat) : Generator := (List.range k).foldl (fun g _ => g.advance) g

@[simp] theorem Generator.after_zero (g : Generator) : g.after 0 = g := rfl

theorem Generator.after_succ (g : Generator) (k : Nat) : g.after (k + 1) = (g.after k).advance := by
  simp [Generator.after, List.range_succ]

theorem Generator.advance_on {g : Generator} {v : Fin 16} (hs : g.symbol = .tone v) (ho : g.onPart = true) : g.advance =
    if g.left ≤ 1 then { g with onPart := false, left := g.offFrames, index := g.index + 1 }
    else { g with left := g.left - 1, index := g.index + 1 } := by
  simp [Generator.advance, hs, ho]

theorem Generator.advance_off {g : Generator} (hs : g.symbol ≠ .none) (ho : g.onPart = false) :
    g.advance = { g with left := g.left - 1 } := by
  simp [Generator.advance, hs, ho]

/-- R61: a symbol of `on` ON frames and `off` OFF frames after `k` frames. -/
def Generator.symbolAt (v : Fin 16) (level on off k : Nat) : Generator :=
  if k < on then { symbol := .tone v, onPart := true, left := on - k, index := k, offFrames := off, level := level }
  else { symbol := .tone v, onPart := false, left := off - (k - on), index := on, offFrames := off, level := level }

theorem Generator.symbolAt_advance (v : Fin 16) (level : Nat) {on off : Nat} (k : Nat) :
    (Generator.symbolAt v level on off k).advance = Generator.symbolAt v level on off (k + 1) := by
  unfold Generator.symbolAt
  rcases Nat.lt_trichotomy (k + 1) on with h | h | h
  · rw [if_pos (by omega), if_pos h, Generator.advance_on rfl rfl, if_neg (by dsimp only; omega)]
    simp only [Nat.sub_sub]
  · rw [if_pos (by omega), if_neg (by omega), Generator.advance_on rfl rfl, if_pos (by dsimp only; omega)]
    simp [h]
  · rw [if_neg (by omega), if_neg (by omega), Generator.advance_off (by simp) rfl]
    have : off - (k - on) - 1 = off - (k + 1 - on) := by omega
    simp only [this]

theorem Generator.start_after (site : SiteRecord) (v : Fin 16) (h : 0 < timerFrames site.symbolOn) (k : Nat) :
    (Generator.start site v).after k =
      Generator.symbolAt v site.generatorLevel (timerFrames site.symbolOn) (timerFrames site.symbolOff) k := by
  induction k with
  | zero => rw [Generator.after_zero, Generator.symbolAt, if_pos h]; rfl
  | succ k ih => rw [Generator.after_succ, ih, Generator.symbolAt_advance]

theorem Generator.startPause_after (k : Nat) :
    Generator.startPause.after k = { Generator.startPause with left := 16000 - k } := by
  induction k with
  | zero => rfl
  | succ k ih => rw [Generator.after_succ, ih, Generator.advance_off (by simp [Generator.startPause]) rfl, Nat.sub_sub]

theorem Generator.output_silent {g : Generator} (h : g.onPart = false) : g.output = 0 := by
  unfold Generator.output
  split
  · rw [if_neg (by rw [h]; simp)]
  · rfl
  · rfl

/-! ### The signalling nibbles (R119, R124) -/

theorem packNibbles_toNat (f : TrunkId → Nat) (base : Nat) : (packNibbles f base).toNat =
    f (Fin.ofNat 8 base) % 16 * 4096 + f (Fin.ofNat 8 (base + 1)) % 16 * 256 + f (Fin.ofNat 8 (base + 2)) % 16 * 16 +
      f (Fin.ofNat 8 (base + 3)) % 16 := by
  simp only [packNibbles, wordOf, List.range_succ, List.range_zero, List.nil_append, List.cons_append, List.map_cons, List.map_nil,
    List.sum_cons, List.sum_nil, BitVec.toNat_ofNat, Nat.add_zero]
  omega

theorem nibbleOf_packNibbles (f : TrunkId → Nat) (u : TrunkId) :
    nibbleOf (packNibbles f (if u.val < 4 then 0 else 4)) u = f u % 16 := by
  unfold nibbleOf
  rw [packNibbles_toNat]
  fin_cases u <;> simp [Fin.ofNat] <;> omega

theorem lineNibble_append (f : Nat → Word) (g : TrunkId → Nat) (x : Word) (u : TrunkId) :
    lineNibble ((List.range 29).map f ++ [packNibbles g 0, packNibbles g 4, x]) u = g u % 16 := by
  have hslot : slotWord ((List.range 29).map f ++ [packNibbles g 0, packNibbles g 4, x]) (nibbleSlot u) =
      packNibbles g (if u.val < 4 then 0 else 4) := by
    unfold nibbleSlot
    split
    · exact slotWord_append_high f _ 0
    · exact slotWord_append_high f _ 1
  rw [lineNibble, hslot, nibbleOf_packNibbles]

theorem lineNibble_lt (ws : List Word) (u : TrunkId) : lineNibble ws u < 16 := Nat.mod_lt _ (by decide)

theorem tsoNibble_eq (s : State) (u : TrunkId) (n : Nat) : s.tsoNibble u n =
    if s.managed u then
      match vget s.hwi.applied u with
      | .through => n / 8 * 8
      | .warnMix => n / 8 * 8
      | .taken => if s.seizeOf u then 8 else 0
      | .blocked => 0
    else n := rfl

theorem formTso_nibble (s : State) (pxi : List Word) (u : TrunkId) :
    lineNibble (s.formTso pxi) u = s.tsoNibble u (lineNibble pxi u) := by
  have hlt := lineNibble_lt pxi u
  rw [State.formTso, lineNibble_append]
  apply Nat.mod_eq_of_lt
  rw [tsoNibble_eq]
  split
  · split
    · exact (Nat.div_mul_le_self _ _).trans_lt hlt
    · exact (Nat.div_mul_le_self _ _).trans_lt hlt
    · split <;> decide
    · decide
  · exact hlt

theorem formPxo_nibble (s : State) (tsi : List Word) (u : TrunkId) :
    lineNibble (s.formPxo tsi) u = s.pxoNibble u (lineNibble tsi u) := by
  have hlt := lineNibble_lt tsi u
  rw [State.formPxo, lineNibble_append]
  apply Nat.mod_eq_of_lt
  unfold State.pxoNibble
  split
  · split
    · exact hlt
    · exact hlt
    · decide
    · decide
  · exact hlt

/-! ### A frame that nothing due comes before -/

theorem settleDue_quiet {s : State} (he : s.ccp.emitter = .idle) (hg : s.hwi.grid < 80) :
    s.settleDue = { s with hwi := { s.hwi with warnings := vmap (fun _ w => w.turn s.siteOr) s.hwi.warnings } } := by
  have hend : s.endEmission = s := by simp [State.endEmission, he]
  have hfull : s.frameFull = false := by simp [State.frameFull]; omega
  simp [State.settleDue, hend, hfull]

theorem framed_quiet {s : State} (he : s.ccp.emitter = .idle) (hg : s.hwi.grid < 80) :
    ∃ x : Hwi, s.framed = { s with hwi := x } ∧ x.lines = s.hwi.lines ∧ x.deliveries = s.hwi.deliveries ∧ x.grid = s.hwi.grid ∧
      x.sync = s.hwi.sync := by
  refine ⟨s.framed.hwi, ?_, ?_, ?_, ?_, ?_⟩ <;> rw [State.framed, settleDue_quiet he hg] <;> rfl

theorem assembleWord_idle {s : State} (h : s.ccp.assembler = .hunt) : s.assembleWord 0xFFFF = s := by
  simp [State.assembleWord, h, stationIdle]

theorem advanceSources_warnings (s : State) (u : TrunkId) :
    vget s.advanceSources.hwi.warnings u = (vget s.hwi.warnings u).advance := by
  simp only [State.advanceSources, vget_vmap]

/-- The highway frame of a part whose port sends and receives nothing, but for its words' ends. -/
theorem highwayFrame_quiet {s : State} (hh : s.ccp.assembler = .hunt) {tsi pxi : List Word}
    (hw : slotWord pxi 31 = 0xFFFF) (he : s.ccp.emitter = .idle) (hg : s.hwi.grid < 80) : s.highwayFrame tsi pxi =
      (((s.framed.wordsOut tsi pxi).advanceSources).detectorFrame tsi).debounceFrame tsi pxi := by
  obtain ⟨x, hx, -⟩ := framed_quiet he hg
  rw [highwayFrame_eq, hw, assembleWord_idle]
  rw [hx, debounceFrame_ccp]
  exact hh

theorem advanceSources_idle_ccp {s : State} (he : s.ccp.emitter = .idle) : s.advanceSources.ccp = s.ccp := by
  simp only [State.advanceSources, he]
  rw [← he]

theorem detectorSample_eq (s : State) (tsi : List Word) (e : EngineId) : s.detectorSample tsi e =
    { s.engine e with
      detector := match (s.engine e).work.trunk.bind s.trunkSlot with
        | some k => (s.engine e).detector.sample (scaleSample (tsi.getD k 0))
        | none => (s.engine e).detector } := by
  unfold State.detectorSample
  dsimp only
  cases (s.engine e).work.trunk.bind s.trunkSlot <;> rfl

theorem mem_changes (t : TrunkId) (before after : LineBits) (u : TrunkId) (sig : LineSignal) (v : Bool) :
    (⟨u, sig, v⟩ : Delivery) ∈ changes t before after ↔
      u = t ∧ v = (after.get sig).value ∧ v ≠ (before.get sig).value := by
  have hall : sig ∈ lineSignals := by cases sig <;> decide
  simp only [changes, List.mem_map, List.mem_filter, bne_iff_ne, Delivery.mk.injEq]
  constructor
  · rintro ⟨x, ⟨-, hne⟩, rfl, rfl, rfl⟩
    exact ⟨rfl, rfl, fun h => hne h.symm⟩
  · rintro ⟨rfl, rfl, hne⟩
    exact ⟨sig, ⟨hall, fun h => hne h.symm⟩, rfl, rfl, rfl⟩

theorem mem_debounceFrame (s : State) (tsi pxi : List Word) (u : TrunkId) (sig : LineSignal) (v : Bool) :
    (⟨u, sig, v⟩ : Delivery) ∈ (s.debounceFrame tsi pxi).hwi.deliveries ↔ ⟨u, sig, v⟩ ∈ s.hwi.deliveries ∨
      s.managed u = true ∧ v = ((vget (s.debounceFrame tsi pxi).hwi.lines u).get sig).value ∧
        v ≠ ((vget s.hwi.lines u).get sig).value := by
  simp only [State.debounceFrame, List.mem_append, List.mem_flatMap, List.mem_filter, List.mem_finRange, true_and, mem_changes]
  refine or_congr_right ⟨?_, fun ⟨hm, hv⟩ => ⟨u, hm, rfl, hv⟩⟩
  rintro ⟨t, hm, rfl, hv⟩
  exact ⟨hm, hv⟩

end Sys2Proof.Machine

namespace Sys2Proof.Proofs

open Sys2Proof Sys2Proof.Machine

theorem symbol_frames (site : SiteRecord) (v : Fin 16) (k : Nat) (h : 0 < site.symbolOn) :
    ((Generator.start site v).after k).symbol = .tone v ∧
    (k < timerFrames site.symbolOn → ((Generator.start site v).after k).onPart = true ∧
      ((Generator.start site v).after k).index = k ∧
      ((Generator.start site v).after k).output = symbolSample v site.generatorLevel k ∧
      ((Generator.start site v).after k).ended = false) ∧
    (timerFrames site.symbolOn ≤ k → ((Generator.start site v).after k).onPart = false ∧
      ((Generator.start site v).after k).output = 0 ∧
      ((Generator.start site v).after k).ended = decide (timerFrames site.symbolOn + timerFrames site.symbolOff ≤ k)) := by
  have hpos : 0 < timerFrames site.symbolOn := by simp only [timerFrames, ticksOfMs]; omega
  rw [Generator.start_after site v hpos]
  unfold Generator.symbolAt
  refine ⟨by split <;> rfl, fun hk => ?_, fun hk => ?_⟩
  · rw [if_pos hk]
    exact ⟨rfl, rfl, rfl, rfl⟩
  · rw [if_neg (by omega)]
    refine ⟨rfl, Generator.output_silent rfl, ?_⟩
    simp only [Generator.ended]
    rw [Bool.eq_iff_iff]
    simp
    omega

/-- Settles O19: the frames of a bit, of a symbol and of a pause are counted off; the frame is then read field by field. -/
theorem highwayFrameMovesOn : Obligations.HighwayFrameMovesOn := by
  refine ⟨fun x raw => ⟨Debounced.frame_agree, fun h hc => ?_, fun h hc => ?_⟩,
    fun v => ⟨debounce_sixteen v, fun n hn => debounce_run v hn⟩, fun site v k on off g h hon hoff hg => ?_, fun k g hg => ?_,
    fun g h => ?_, fun s tsi pxi hlow hsync hidle hgrid hhunt hw => ?_⟩
  · rw [Debounced.frame_disagree h, if_neg (by omega)]
  · rw [Debounced.frame_disagree h, if_pos (by omega)]
  · subst hon hoff hg
    exact symbol_frames site v k h
  · have hg : g = Generator.startPause.after k := hg
    rw [hg, Generator.startPause_after]
    refine ⟨rfl, rfl, ?_⟩
    simp only [Generator.ended, Generator.startPause]
    rw [Bool.eq_iff_iff]
    simp
    omega
  · exact ⟨by simp [Generator.advance, h], by simp [Generator.output, h], by simp [Generator.ended, h]⟩
  · have htso := highwayFrame_tso s tsi pxi
    have hpxo := highwayFrame_pxo s tsi pxi
    obtain ⟨x, hx, hlines, hdel, hg, hsy⟩ := framed_quiet hidle hgrid
    have hcontrol : s.framed.controlWord = s.idleWord := by
      rw [hx]
      simp only [State.controlWord, hidle]
      rfl
    have hframe := highwayFrame_quiet (tsi := tsi) hhunt hw hidle hgrid
    refine ⟨_, exec_highwayFrame hlow hsync tsi pxi, fun u => ⟨⟨_, htso, ?_⟩, _, hpxo, ?_, ?_⟩, fun u => ?_, fun u => ?_,
      fun u sig => ?_, fun u sig v => ?_, ?_, ?_, fun e => ?_, ?_⟩
    · rw [formTso_nibble, tsoNibble_eq, framed_managed, framed_applied, framed_seizeOf] <;> rfl
    · rw [formPxo_control, hcontrol]
    · rw [formPxo_nibble, State.pxoNibble, framed_managed, framed_applied] <;> rfl
    all_goals rw [hframe]
    · exact framed_applied s u
    · refine (advanceSources_warnings (s.framed.wordsOut tsi pxi) u).trans ?_
      show (vget s.framed.hwi.warnings u).advance = _
      rw [framed_warnings]
      split <;> rfl
    · rw [debounceFrame_lines, LineBits.frame_get, ← hlines, hx]
      rfl
    · rw [mem_debounceFrame, hx, ← hlines, ← hdel]
      rfl
    · show s.framed.hwi.grid + 1 = _
      rw [hx, ← hg]
    · show s.framed.hwi.sync = _
      rw [hx, ← hsy]
    · rw [engine_of_engines (debounceFrame_engines _ tsi pxi), detectorFrame_engine, hx, detectorSample_eq, advanceSources_engine]
      rfl
    · rw [hx]
      exact ⟨rfl, rfl, rfl, advanceSources_idle_ccp hidle, rfl, rfl, rfl, rfl, rfl, rfl⟩

end Sys2Proof.Proofs

namespace Sys2Proof.Machine

/-! ### Arrivals beside the Command Unit (R12) -/

theorem lateJoin_with_cmu (s : State) (h : Handle) (m : Cmu) : ({ s with cmu := m } : State).lateJoin h = { s.lateJoin h with cmu := m } := by
  unfold State.lateJoin
  rw [show ({ s with cmu := m } : State).findRecord h = s.findRecord h from rfl]
  cases s.findRecord h with
  | none => rfl
  | some r =>
    dsimp only
    rw [show ({ s with cmu := m } : State).currentRoute r = s.currentRoute r from rfl]
    cases s.currentRoute r with
    | none => rfl
    | some rt =>
      dsimp only
      rw [show ({ s with cmu := m } : State).joinableCall rt = s.joinableCall rt from rfl]
      cases s.joinableCall rt with
      | none => rfl
      | some e =>
        dsimp only
        unfold State.takeRecord
        rw [show ({ s with cmu := m } : State).findRecord h = s.findRecord h from rfl]
        cases s.findRecord h with
        | none => rfl
        | some r =>
          by_cases hw : r.state = .waiting
          · simp only [if_pos hw]
            cases e <;> rfl
          · simp only [if_neg hw]

theorem reportWaiting_with_cmu (s : State) (h : Handle) (m : Cmu) :
    ({ s with cmu := m } : State).reportWaiting h = { s.reportWaiting h with cmu := m } :=
  lateJoin_with_cmu s.cause h m

theorem admitAlert_with_cmu (s : State) (k : Key) (c : ClassId) (m : Cmu) :
    ({ s with cmu := m } : State).admitAlert k c = (s.admitAlert k c).map fun p => ({ p.1 with cmu := m }, p.2) := by
  unfold State.admitAlert
  rw [show ({ s with cmu := m } : State).lowestFree = s.lowestFree from rfl]
  cases s.lowestFree with
  | none => rfl
  | some h => exact congrArg some (Prod.ext (reportWaiting_with_cmu { s with queue := placeRecord (newRecord h k c) s.queue } h m) rfl)

/-- R6: an arrival is decided whatever the Command Unit holds. -/
theorem offer_with_cmu (s : State) (k : Key) (c : ClassId) (m : Cmu) :
    ({ s with cmu := m } : State).offer k c = ({ (s.offer k c).1 with cmu := m }, (s.offer k c).2) := by
  unfold State.offer
  by_cases hk : (!k.inRange) = true
  · simp only [if_pos hk]
  · simp only [if_neg hk]
    cases s.queue.find? fun r => r.key == k && r.state.coalesces with
    | some r => rfl
    | none =>
      cases s.queue.find? fun r => r.key == k && r.state == .stranded with
      | some r => exact Prod.ext (reportWaiting_with_cmu (s.updateRecord r.handle Record.rearm) r.handle m) rfl
      | none =>
        dsimp only
        rw [show ({ s with cmu := m } : State).cancelTarget k = s.cancelTarget k from rfl]
        cases s.cancelTarget k with
        | some r => rfl
        | none =>
          dsimp only
          by_cases hl : s.queue.length < 32
          · rw [if_pos hl, if_pos hl, admitAlert_with_cmu]
            cases s.admitAlert k c <;> rfl
          · rw [if_neg hl, if_neg hl, show ({ s with cmu := m } : State).evictionCandidate = s.evictionCandidate from rfl]
            cases s.evictionCandidate with
            | none => rfl
            | some r =>
              dsimp only
              by_cases hc : c < r.cls
              · rw [if_pos hc, if_pos hc]
                rw [show (({ s with cmu := m } : State).removeRecord r.handle).raise (.evicted r.handle r.key) =
                  { (s.removeRecord r.handle).raise (.evicted r.handle r.key) with cmu := m } from rfl, admitAlert_with_cmu]
                cases ((s.removeRecord r.handle).raise (.evicted r.handle r.key)).admitAlert k c <;> rfl
              · rw [if_neg hc, if_neg hc]

theorem internalAlert_with_cmu (s : State) (k : Key) (c : ClassId) (m : Cmu) :
    ({ s with cmu := m } : State).internalAlert k c = { s.internalAlert k c with cmu := m } :=
  congrArg Prod.fst (offer_with_cmu s k c m)

theorem admitAlert_evr {s s' : State} {k : Key} {c : ClassId} {h : Handle} (hs : s.admitAlert k c = some (s', h)) : s'.evr = s.evr := by
  rw [(admit_eq hs).2]
  simp

/-- An arrival raises EVICTED alone (R11). -/
theorem offer_record (s : State) (k : Key) (c : ClassId) {j : EventKind} (hj : j ≠ 4) :
    vget (s.offer k c).1.evr.records j = vget s.evr.records j := by
  unfold State.offer
  split
  · rfl
  · split
    · simp
    · split
      · simp
      · split
        · simp
        · split
          · split
            · next hs => rw [admitAlert_evr hs]
            · rfl
          · split
            · split
              · split
                · next hs => rw [admitAlert_evr hs, raise_record_other _ _ hj]; simp
                · rfl
              · rfl
            · rfl

theorem internalAlert_record (s : State) (k : Key) (c : ClassId) {j : EventKind} (hj : j ≠ 4) :
    vget (s.internalAlert k c).evr.records j = vget s.evr.records j := offer_record s k c hj

/-! ### The inbound assembler (R172, R173) -/

theorem checkWord_eq_iff (h w : Word) (ws : List Word) :
    checkWord h ws = w ↔ w.toNat = ((65535 - h.toNat) + (ws.map BitVec.toNat).sum) % 65536 := by
  rw [← BitVec.toNat_inj, checkWord, BitVec.toNat_ofNat]
  exact eq_comm

theorem validCell_cmu (s : State) : s.validCell.cmu = { s.cmu with
    silent := false, silenceTimer := s.tables.site.bind fun x => silenceTimerAt x.silenceTime } := by
  unfold State.validCell
  dsimp only
  split
  · simp
  · next h => simp [show s.cmu.silent = false by simpa using h]

theorem cellArrived_queued {s : State} (h : s.ccp.inbound.length < 4) (c : InCell) :
    s.cellArrived c = { s.validCell with ccp := { s.ccp with inbound := s.ccp.inbound ++ [c] } } := by
  simp [State.cellArrived, h]

theorem cellArrived_overrun {s : State} (h : 4 ≤ s.ccp.inbound.length) (c : InCell) :
    s.cellArrived c = { s.validCell with ccp := { s.ccp with flags := { s.ccp.flags with overrun := true } } } := by
  simp [State.cellArrived, Nat.not_lt.2 h]

/-- Beside the port a cell does what the monitor makes of it. -/
theorem cellArrived_monitor (s : State) (c : InCell) : ∃ x, s.cellArrived c = { s.validCell with ccp := x } := by
  rcases Nat.lt_or_ge s.ccp.inbound.length 4 with h | h
  · exact ⟨_, cellArrived_queued h c⟩
  · exact ⟨_, cellArrived_overrun h c⟩

theorem validCell_silent {s : State} (h : s.cmu.silent = true) {x : SiteRecord} (hx : s.tables.site = some x) :
    vget s.validCell.evr.records 11 = (vget s.evr.records 11).occur (.stationSilent false) ∧
      s.validCell.queue = (s.internalAlert ⟨0, 0, x.silenceEvent, .restore⟩ 4).queue := by
  have hsite : s.siteOr = x := by simp [State.siteOr, hx]
  unfold State.validCell
  dsimp only
  rw [if_pos h, hsite, internalAlert_with_cmu]
  refine ⟨(raise_record_same _ (.stationSilent false)).trans ?_, rfl⟩
  rw [show (Detail.stationSilent false).kind = 11 from rfl]
  exact congrArg (EventRecord.occur · _) (internalAlert_record s _ _ (by decide))

theorem validCell_listening {s : State} (h : s.cmu.silent = false) : s.validCell.evr = s.evr ∧ s.validCell.queue = s.queue := by
  unfold State.validCell
  dsimp only
  rw [if_neg (by rw [h]; decide)]
  exact ⟨rfl, rfl⟩

end Sys2Proof.Machine

namespace Sys2Proof.Proofs

open Sys2Proof Sys2Proof.Machine

/-- Settles O20: the assembler's states in turn, then the monitor's share of a valid cell. -/
theorem assemblerTakesWord : Obligations.AssemblerTakesWord := by
  have hidle {w : Word} (h : bitsOf w 15 12 = 10) : w ≠ stationIdle := by rintro rfl; revert h; decide
  refine ⟨fun s w => ⟨fun hs => ?_, fun h ws n hs => ?_, fun h ws hs => ?_, fun hs => ?_⟩, fun s c x hx => ?_⟩
  · simp only [State.assembleWord, hs]
    refine ⟨fun hw => if_pos hw, fun hb hl => ?_, fun hb h1 h2 => ?_, fun hb h1 => ?_, fun hw hb => ?_⟩
    · rw [if_neg (hidle hb), if_pos hb, if_pos hl]; rfl
    · rw [if_neg (hidle hb), if_pos hb, if_neg (by omega), if_pos h2]; rfl
    · rw [if_neg (hidle hb), if_pos hb, if_neg (by omega), if_neg (by omega)]
    · exact (if_neg hw).trans (if_neg hb)
  · simp only [State.assembleWord, hs]
    refine ⟨fun hw => if_pos hw, fun hw hn => ?_, fun hw hn => ?_⟩
    · exact (if_neg hw).trans (if_neg (by omega))
    · exact (if_neg hw).trans (if_pos hn)
  · simp only [State.assembleWord, hs, ne_eq, ← checkWord_eq_iff]
    exact ⟨fun hw => if_pos hw, fun hw => if_neg hw⟩
  · simp only [State.assembleWord, hs]
    exact ⟨fun hw => if_pos hw, fun hw => if_neg hw⟩
  · obtain ⟨p, hp⟩ := cellArrived_monitor s c
    refine ⟨fun h => by rw [cellArrived_queued h], fun h => by rw [cellArrived_overrun h], ?_⟩
    rw [hp]
    refine ⟨by rw [validCell_cmu], ?_, fun h => validCell_silent h hx, validCell_listening, validCell_hwi s, validCell_tables s,
      validCell_trunks s⟩
    rw [validCell_cmu, hx]
    rfl

end Sys2Proof.Proofs

namespace Sys2Proof.Machine

/-! ### Band energy and presence (R81 to R85) -/

theorem fdiv_eq_div (x : Int) {n : Int} (h : 0 ≤ n) : Int.fdiv x n = x / n := Int.fdiv_eq_ediv_of_nonneg x h

theorem Bin.sample_eq (c x : Int) (b : Bin) : b.sample c x =
    { b with prev := max (-8388607) (min 8388607 (x + Int.fdiv (c * b.prev) 16384 - b.prev2)), prev2 := b.prev } := by
  rw [fdiv_eq_div _ (by decide)]; rfl

theorem ToneEntry.used_one {t : ToneEntry} (h : t.components = 1) : t.used = [t.first] := by
  rw [ToneEntry.used, if_neg (by omega)]

theorem ToneEntry.used_two {t : ToneEntry} (h : t.components = 2) : t.used = [t.first, t.second] := by
  rw [ToneEntry.used, if_pos h]

theorem Loading.running_iff (l : Loading) : l.running = true ↔ l.status = .running := by simp [Loading.running]

theorem Loading.tuned_running {l : Loading} (h : l.status = .running) : l.tuned = l.bins.zip l.copy.used := by
  rw [Loading.tuned, if_pos (l.running_iff.2 h)]

theorem Detector.sample_one {d : Detector} {l : Loading} {i : Fin 6} (hd : d.loadings = [l]) (hl : l.status = .running)
    (hc : l.copy.components = 1) (hb : l.bins = [i]) (x : Int) : d.sample x =
      { d with bins := vput d.bins i ((vget d.bins i).sample l.copy.first.coefficient x), energy := d.energy + (x * x).toNat } := by
  have hany : d.loadings.any Loading.running = true := by simp [hd, l.running_iff.2 hl]
  have htuned : d.loadings.flatMap Loading.tuned = [(i, l.copy.first)] := by
    simp [hd, Loading.tuned_running hl, hb, ToneEntry.used_one hc]
  rw [Detector.sample, if_pos hany, htuned]
  rfl

theorem bandEnergy_eq (b : Bin) (c : Int) : (b.bandEnergy c : Int) =
    min (Int.fdiv (max (b.prev * b.prev + b.prev2 * b.prev2 - Int.fdiv (c * b.prev) 16384 * b.prev2) 0) 64) 4294967295 := by
  rw [fdiv_eq_div _ (by decide), fdiv_eq_div _ (by decide)]
  unfold Bin.bandEnergy
  push_cast
  rw [Int.toNat_eq_max]

theorem Component.present_iff (k : Component) (f et band : Nat) :
    k.present f et band = true ↔ f * 64 ≤ et ∧ k.threshold * 256 ≤ band ∧ k.ratio * et ≤ 64 * band := by
  simp [Component.present, and_assoc]

/-! ### The cadence classifier (R88 to R92) -/

theorem Classifier.frame_cadenced {k : CadenceEntry} (h : k.offMax ≠ 0) (x : Classifier) (p : Bool) : x.frame k p = x.count k p := by
  have hc : k.continuous = false := by simp [CadenceEntry.continuous, h]
  simp [Classifier.frame, hc]

theorem Classifier.count_agree {x : Classifier} {p : Bool} (h : p = x.onRun) (k : CadenceEntry) :
    x.count k p = ({ x with length := min (x.length + 1) 255, disagree := false }, false) := by
  rw [Classifier.count, if_pos h]

theorem Classifier.count_first {x : Classifier} {p : Bool} (h : p ≠ x.onRun) (hd : x.disagree = false) (k : CadenceEntry) :
    x.count k p = ({ x with length := min (x.length + 1) 255, disagree := true }, false) := by
  rw [Classifier.count, if_neg h, if_pos (by rw [hd]; rfl)]

theorem Classifier.count_second {x : Classifier} {p : Bool} (h : p ≠ x.onRun) (hd : x.disagree = true) (k : CadenceEntry) :
    x.count k p = x.runEnd k := by
  rw [Classifier.count, if_neg h, if_neg (by rw [hd]; decide)]

theorem Classifier.runEnd_on {x : Classifier} {k : CadenceEntry} (hk : k.offMax ≠ 0) (ho : x.onRun = true) :
    x.runEnd k = ({ x with
      onRun := false, length := 2, disagree := false
      verdict := if k.onMin ≤ x.length ∧ x.length ≤ k.onMax then .within else .outside }, false) := by
  have hc : k.continuous = false := by simp [CadenceEntry.continuous, hk]
  simp [Classifier.runEnd, hc, ho, CadenceEntry.onVerdict]

theorem Classifier.runEnd_off {x : Classifier} {k : CadenceEntry} (hk : k.offMax ≠ 0) (ho : x.onRun = false) :
    x.runEnd k = ({ x with onRun := true, length := 2, disagree := false, cycles := (x.offRunEnd k x.length).1 },
      (x.offRunEnd k x.length).2) := by
  have hc : k.continuous = false := by simp [CadenceEntry.continuous, hk]
  simp [Classifier.runEnd, hc, ho]

theorem Classifier.offRunEnd_eq (x : Classifier) (k : CadenceEntry) (n : Nat) : x.offRunEnd k n =
    if k.offMin ≤ n ∧ n ≤ k.offMax ∧ x.verdict = .within then
      if k.cyclesRequired ≤ x.cycles + 1 then (0, true) else (x.cycles + 1, false)
    else (0, false) := by
  simp [Classifier.offRunEnd, and_assoc]

theorem Classifier.count_continuous {k : CadenceEntry} (hk : k.offMax = 0) (x : Classifier) (p : Bool) : x.count k p =
    (if p = x.onRun then { x with length := min (x.length + 1) 255, disagree := false }
      else if x.disagree = false then { x with length := min (x.length + 1) 255, disagree := true }
      else { x with onRun := p, length := 2, disagree := false,
                    continuousMatch := if x.onRun then false else x.continuousMatch }, false) := by
  by_cases h : p = x.onRun
  · rw [Classifier.count_agree h, if_pos h]
  · rw [if_neg h]
    cases hd : x.disagree with
    | false => rw [Classifier.count_first h hd, if_pos rfl]
    | true =>
      have hc : k.continuous = true := by simp [CadenceEntry.continuous, hk]
      have hp : p = !x.onRun := by cases p <;> cases hx : x.onRun <;> simp_all
      rw [Classifier.count_second h hd, if_neg (by decide), Classifier.runEnd, if_pos hc, hp]
      cases x.onRun <;> rfl

/-! ### A loading's evaluation (R86, R93, R94) -/

theorem absenceFrame_eq (w : Option Nat) (p : Bool) : absenceFrame w p =
    match w with
    | none => (none, false)
    | some n => if p then (some 0, false) else if n = 1 then (none, true) else (some (n + 1), false) := by
  cases w <;> simp [absenceFrame]

theorem Detector.evaluate_running (d : Detector) (f : Nat) {l : Loading} (h : l.status = .running) : d.evaluate f l =
    ({ l with
      classifier := (l.classifier.frame l.cadenceCopy (d.present f l)).1
      absence := (absenceFrame l.absence (d.present f l)).1 },
      (if (l.classifier.frame l.cadenceCopy (d.present f l)).2 then [Report.matched l.tone] else []) ++
        (if (absenceFrame l.absence (d.present f l)).2 then [Report.absent l.tone] else []) ++
        (if l.levelWatch then [Report.level l.tone (d.firstBand l)] else [])) := by
  rw [Detector.evaluate, if_pos (l.running_iff.2 h)]

theorem used_head (t : ToneEntry) : ∃ ks, t.used = t.first :: ks := by
  unfold ToneEntry.used
  split
  · exact ⟨_, rfl⟩
  · exact ⟨_, rfl⟩

theorem Detector.firstBand_running (d : Detector) {l : Loading} (h : l.status = .running) {i : Fin 6} {is : List (Fin 6)}
    (hb : l.bins = i :: is) : d.firstBand l = (vget d.bins i).bandEnergy l.copy.first.coefficient := by
  obtain ⟨ks, hk⟩ := used_head l.copy
  rw [Detector.firstBand, Loading.tuned_running h, hb, hk]
  rfl

end Sys2Proof.Machine

namespace Sys2Proof.Proofs

open Sys2Proof Sys2Proof.Machine

/-- Settles O22: one sample, the presence at a frame's end, one frame of a classifier, and what they come to for a loading. -/
theorem detectorArithmetic : Obligations.DetectorArithmetic := by
  refine ⟨fun d l i x hd hl hc hb v hv => ?_, fun b c p hp => ?_, Component.present_iff, fun d l i j f hl hb hc => ?_,
    fun d l i f hl hb hc => ?_, fun x k p hk => ?_, fun x y k p hk hy => ?_, fun d l i rest f hl hb p hp => ?_⟩
  · rw [Detector.sample_one hd hl hc hb]
    refine ⟨?_, fun j hj => vget_vput_other _ _ hj, ?_, rfl⟩
    · rw [vget_vput_same, Bin.sample_eq, hv]
    · push_cast
      rw [Int.toNat_of_nonneg (mul_self_nonneg x)]
  · rw [hp]; exact bandEnergy_eq b c
  · rw [Detector.present, Loading.tuned_running hl, hb, ToneEntry.used_two hc]
    simp
  · rw [Detector.present, Loading.tuned_running hl, hb, ToneEntry.used_one hc]
    simp
  · simp only [Classifier.frame_cadenced hk]
    refine ⟨fun h => Classifier.count_agree h k, fun h hd => Classifier.count_first h hd k, fun h ho hd => ?_, fun h ho hd => ?_⟩
    · rw [Classifier.count_second (by rw [h, ho]; decide) hd, Classifier.runEnd_on hk ho]
    · rw [Classifier.count_second (by rw [h, ho]; decide) hd, Classifier.runEnd_off hk ho, Classifier.offRunEnd_eq]
      refine ⟨fun h1 h2 h3 hn => ?_, fun h1 h2 h3 hn => ?_, fun hn => ?_⟩
      · rw [if_pos ⟨h1, h2, h3⟩, if_neg (by omega)]
      · rw [if_pos ⟨h1, h2, h3⟩, if_pos hn]
      · rw [if_neg hn]
  · have hc : k.continuous = true := by simp [CadenceEntry.continuous, hk]
    have hcount := Classifier.count_continuous hk x p
    rw [← hy] at hcount
    simp [Classifier.frame, hcount, hc, and_assoc]
  · rw [Detector.evaluate_running d f hl, ← hp, absenceFrame_eq, Detector.firstBand_running d hl hb]
    refine ⟨_, rfl, fun h => by rw [h], fun h hpt => ?_, fun h hpf => by rw [h, hpf]; rfl, fun h hpf => by rw [h, hpf]; rfl, ?_⟩
    · obtain ⟨n, hn⟩ := Option.isSome_iff_exists.1 h
      rw [hn, hpt]
      rfl
    · cases l.absence with
      | none => rfl
      | some n =>
        cases p with
        | true => simp
        | false => by_cases hn : n = 1 <;> simp [hn]

end Sys2Proof.Proofs

namespace Sys2Proof.Machine
open Sys2Proof Sys2Proof.Machine

/-! ### The boundary of a detection frame (R79, R80) -/

theorem Detector.evaluate_kept (d : Detector) (f : Nat) (l : Loading) :
    (d.evaluate f l).1.status = l.status ∧ (d.evaluate f l).1.bins = l.bins ∧ (d.evaluate f l).1.copy = l.copy := by
  unfold Detector.evaluate
  split <;> exact ⟨rfl, rfl, rfl⟩

theorem Detector.evaluate_starting (d : Detector) (f : Nat) {l : Loading} (h : l.status = .starting) :
    d.evaluate f l = (l, []) := by simp [Detector.evaluate, Loading.running, h]

theorem Loading.live_iff (l : Loading) : l.live = true ↔ l.status = .running ∨ l.status = .starting := by
  cases h : l.status <;> simp [Loading.live, h]

/-- What a boundary makes of a loading that stays. -/
def Loading.Started (l m : Loading) : Prop :=
  m.status = .running ∧ (l.status = .running → m = l) ∧
    (l.status = .starting → m = { l with status := .running, bins := m.bins })

/-- How many bins a loading that stays holds after the boundary. -/
def Loading.need (l : Loading) : Nat := if l.status = .running then l.bins.length else if l.copy.components = 2 then 2 else 1

theorem ToneEntry.used_length (t : ToneEntry) : t.used.length = if t.components = 2 then 2 else 1 := by
  unfold ToneEntry.used
  split <;> rfl

theorem startLoading_running (acc : List Loading × Vector Bin 6) {l : Loading} (h : l.status = .running) :
    startLoading acc l = (acc.1 ++ [l], acc.2) := if_neg (by simp [h])

/-- A STARTING loading with its bins. -/
def Loading.onBins (l : Loading) (mine : List (Fin 6)) : Loading := { l with status := .running, bins := mine }

/-- The bins of `mine` marked used. -/
def markUsed (bins : Vector Bin 6) (mine : List (Fin 6)) : Vector Bin 6 :=
  mine.foldl (fun bins i => vput bins i { vget bins i with used := true }) bins

theorem startLoading_starting (acc : List Loading × Vector Bin 6) {l : Loading} (h : l.status = .starting) :
    startLoading acc l = (acc.1 ++ [l.onBins (freeBins acc.2 l.copy.used.length)],
      markUsed acc.2 (freeBins acc.2 l.copy.used.length)) := if_pos h

theorem markUsed_used (bins : Vector Bin 6) (mine : List (Fin 6)) (i : Fin 6) :
    (vget (markUsed bins mine) i).used = true ↔ (vget bins i).used = true ∨ i ∈ mine := by
  unfold markUsed
  induction mine generalizing bins with
  | nil => simp
  | cons j mine ih =>
    rw [List.foldl_cons, ih, vget_vput]
    by_cases hij : i = j
    · simp [hij]
    · simp [hij]

/-- The bins that are marked used are exactly those of the loadings `held`, each held once. -/
def BinsOf (bins : Vector Bin 6) (held : List (Fin 6)) : Prop :=
  held.Nodup ∧ ∀ i, (vget bins i).used = true ↔ i ∈ held

theorem BinsOf.free_length {bins : Vector Bin 6} {held : List (Fin 6)} (h : BinsOf bins held) :
    ((List.finRange 6).filter fun i => !(vget bins i).used).length + held.length = 6 := by
  have hperm : ((List.finRange 6).filter fun i => (vget bins i).used).Perm held :=
    (List.perm_ext_iff_of_nodup ((List.nodup_finRange 6).filter _) h.1).2 fun i => by simp [h.2 i]
  have hsplit := List.length_eq_length_filter_add (l := List.finRange 6) fun i => (vget bins i).used
  rw [hperm.length_eq, List.length_finRange] at hsplit
  omega

theorem BinsOf.freeBins {bins : Vector Bin 6} {held : List (Fin 6)} (h : BinsOf bins held) {n : Nat}
    (hn : held.length + n ≤ 6) :
    (freeBins bins n).length = n ∧ (freeBins bins n).Nodup ∧ ∀ i ∈ freeBins bins n, i ∉ held := by
  have hfree := h.free_length
  refine ⟨?_, ((List.nodup_finRange 6).filter _).take, fun i hi hh => ?_⟩
  · rw [Machine.freeBins, List.length_take]
    omega
  · have hunused := (List.mem_filter.1 (List.mem_of_mem_take hi)).2
    simp [(h.2 i).2 hh] at hunused

theorem foldl_started {ls : List Loading} (hl : ∀ l ∈ ls, l.live = true) (acc : List Loading × Vector Bin 6) :
    ∃ ms, (ls.foldl startLoading acc).1 = acc.1 ++ ms ∧ ls.Forall₂ Loading.Started ms := by
  induction ls generalizing acc with
  | nil => exact ⟨[], by simp, .nil⟩
  | cons l ls ih =>
    obtain ⟨ms, hms, hall⟩ := ih (fun k hk => hl k (.tail _ hk)) (startLoading acc l)
    rw [List.foldl_cons, hms]
    rcases l.live_iff.1 (hl l (.head _)) with hr | hs
    · rw [startLoading_running acc hr]
      exact ⟨l :: ms, by simp, .cons ⟨hr, fun _ => rfl, by simp [hr]⟩ hall⟩
    · rw [startLoading_starting acc hs]
      exact ⟨_ :: ms, List.append_assoc .., .cons ⟨rfl, by simp [hs], fun _ => rfl⟩ hall⟩

/-- With room for all, every loading that starts gets its bins, and no bin is had twice. -/
theorem foldl_startLoading_bins {ls : List Loading} (hl : ∀ l ∈ ls, l.live = true)
    (hempty : ∀ l ∈ ls, l.status = .starting → l.bins = []) {acc : List Loading × Vector Bin 6}
    (hb : BinsOf acc.2 ((acc.1 ++ ls).flatMap Loading.bins))
    (hroom : (acc.1.flatMap Loading.bins).length + (ls.map Loading.need).sum ≤ 6) :
    BinsOf (ls.foldl startLoading acc).2 ((ls.foldl startLoading acc).1.flatMap Loading.bins) ∧
      ∃ ms, (ls.foldl startLoading acc).1 = acc.1 ++ ms ∧
        ls.Forall₂ (fun l m => l.status = .starting → m.bins.length = l.copy.used.length) ms := by
  induction ls generalizing acc with
  | nil => exact ⟨by simpa using hb, [], by simp, .nil⟩
  | cons l ls ih =>
    have hlive := l.live_iff.1 (hl l (.head _))
    replace ih := @ih (fun k hk => hl k (.tail _ hk)) (fun k hk => hempty k (.tail _ hk)) (startLoading acc l)
    rw [List.foldl_cons]
    rw [List.map_cons, List.sum_cons] at hroom
    rcases hlive with hr | hs
    · rw [startLoading_running acc hr] at ih ⊢
      have hneed : l.need = l.bins.length := if_pos hr
      obtain ⟨hbins, ms, hms, hall⟩ := ih (by simpa using hb) (by simp at hroom ⊢; omega)
      exact ⟨hbins, l :: ms, by simp [hms], .cons (by simp [hr]) hall⟩
    · have hnone := hempty l (.head _) hs
      have hneed : l.need = l.copy.used.length := by rw [Loading.need, if_neg (by simp [hs]), ToneEntry.used_length]
      have hheld : (acc.1 ++ l :: ls).flatMap Loading.bins = acc.1.flatMap Loading.bins ++ ls.flatMap Loading.bins := by
        simp [hnone]
      have hrest : (ls.flatMap Loading.bins).length ≤ (ls.map Loading.need).sum := by
        rw [List.length_flatMap]
        refine List.sum_le_sum fun k hk => ?_
        rcases k.live_iff.1 (hl k (.tail _ hk)) with h | h
        · rw [Loading.need, if_pos h]
        · simp [hempty k (.tail _ hk) h]
      rw [hheld] at hb
      obtain ⟨hlen, hnodup, hfree⟩ := hb.freeBins (n := l.copy.used.length) (by rw [List.length_append]; omega)
      rw [startLoading_starting acc hs] at ih ⊢
      generalize freeBins acc.2 l.copy.used.length = mine at *
      have hperm : ((acc.1 ++ [l.onBins mine] ++ ls).flatMap Loading.bins).Perm
          (mine ++ (acc.1.flatMap Loading.bins ++ ls.flatMap Loading.bins)) := by
        simpa [Loading.onBins] using List.perm_append_comm_assoc _ _ _
      obtain ⟨hbins, ms, hms, hall⟩ := ih
        ⟨hperm.nodup_iff.2 (List.nodup_append.2 ⟨hnodup, hb.1, fun i hi j hj hij => hfree i hi (hij ▸ hj)⟩),
          fun i => by rw [markUsed_used, hperm.mem_iff, List.mem_append, hb.2, or_comm]⟩
        (by
          simp only [List.flatMap_append, List.flatMap_singleton, List.length_append, Loading.onBins]
          omega)
      exact ⟨hbins, _ :: ms, by rw [hms, List.append_assoc, List.singleton_append], .cons (fun _ => hlen) hall⟩

theorem forall₂_getElem? {α β : Type} {R : α → β → Prop} {ls : List α} {ms : List β} (h : ls.Forall₂ R ms) {i : Nat} {l : α}
    {m : β} (hl : ls[i]? = some l) (hm : ms[i]? = some m) : R l m := by
  induction h generalizing i with
  | nil => simp at hl
  | cons hr _ ih =>
    cases i with
    | zero => simp_all
    | succ i => exact ih (by simpa using hl) (by simpa using hm)

theorem boundary_loadings {d : Detector} :
    (d.loadings.filter Loading.live).Forall₂ Loading.Started d.boundary.loadings := by
  obtain ⟨ms, hms, hall⟩ := foldl_started (ls := d.loadings.filter Loading.live)
    (fun l hl => (List.mem_filter.1 hl).2) ([], d.removeStopping.bins)
  have hout : d.boundary.loadings = ms := hms
  rwa [hout]

theorem boundary_rest (d : Detector) (i : Fin 6) : (vget d.boundary.bins i).Rest := by
  have hrest (i : Fin 6) : (vget d.removeStopping.bins i).Rest := by simp [Detector.removeStopping, vget, Bin.Rest]
  have hfold (ls : List Loading) {acc : List Loading × Vector Bin 6} (h : ∀ i, (vget acc.2 i).Rest) :
      ∀ i, (vget (ls.foldl startLoading acc).2 i).Rest := by
    induction ls generalizing acc with
    | nil => exact h
    | cons l ls ih => exact ih (startLoading_rest l h)
  exact hfold _ (acc := ([], d.removeStopping.bins)) hrest i

theorem boundary_bins {d : Detector} {kept : List Loading} (hk : d.loadings.filter Loading.live = kept)
    (hempty : ∀ l ∈ kept, l.status = .starting → l.bins = []) (hnodup : (kept.flatMap Loading.bins).Nodup)
    (hroom : (kept.map Loading.need).sum ≤ 6) :
    BinsOf d.boundary.bins (d.boundary.loadings.flatMap Loading.bins) ∧
      kept.Forall₂ (fun l m => l.status = .starting → m.bins.length = l.copy.used.length) d.boundary.loadings := by
  subst hk
  have hinit : BinsOf d.removeStopping.bins ((d.loadings.filter Loading.live).flatMap Loading.bins) := by
    refine ⟨hnodup, fun i => ?_⟩
    simp [Detector.removeStopping, vget, and_assoc]
  obtain ⟨hbins, ms, hms, hall⟩ := foldl_startLoading_bins (fun l hl => (List.mem_filter.1 hl).2) hempty
    (acc := ([], d.removeStopping.bins)) hinit (by simpa using hroom)
  have hout : d.boundary.loadings = ms := hms
  exact ⟨hbins, by rwa [hout]⟩

end Sys2Proof.Machine

namespace Sys2Proof.Proofs
open Sys2Proof Sys2Proof.Machine

/-- Settles O21: a loading that stays keeps its place, and the bins in use are those of the loadings that stay, so the
free ones are as many as the loadings that start need. -/
theorem detectionFrameEndEffect : Obligations.DetectionFrameEndEffect := by
  unfold Obligations.DetectionFrameEndEffect
  intro s hlow hgrid
  have hexec : exec .detectionFrameEnd s = .next s.detectionFrameEnd := by
    refine (running_live State.frameEndDue hlow).trans (congrArg Host.Outcome.next (if_pos ?_))
    simp [State.frameFull, hgrid]
  refine ⟨_, hexec, rfl, fun e => ?_, rfl, rfl, rfl, rfl, rfl, rfl, rfl, rfl, rfl, rfl⟩
  rw [detectionFrameEnd_engine]
  generalize s.engine e = x
  generalize s.siteOr.silenceFloor = f
  let d : Detector := { x.detector with loadings := (x.detector.loadings.map (x.detector.evaluate f)).map Prod.fst }
  have hd : (x.frameEnd f).detector = d.boundary := rfl
  have hlive : d.loadings.filter Loading.live =
      (x.detector.loadings.filter Loading.live).map fun l => (x.detector.evaluate f l).1 := by
    have hsame (l : Loading) : (x.detector.evaluate f l).1.live = l.live := by
      simp only [Loading.live, (x.detector.evaluate_kept f l).1]
    simp only [d, List.map_map, List.filter_map]
    exact congrArg _ (List.filter_congr fun l _ => hsame l)
  refine ⟨?_, rfl, fun i => by rw [hd]; exact boundary_rest d i, fun kept hk => ?_⟩
  · simp only [Engine.frameEnd, List.flatMap_map]
  have hstarted := boundary_loadings (d := d)
  rw [hlive, ← hk, List.forall₂_map_left_iff] at hstarted
  rw [hd]
  refine ⟨hstarted.length_eq.symm, fun i l m hl hm => ?_, fun hempty hnodup hroom => ?_⟩
  · obtain ⟨hm, hrun, hstart⟩ := forall₂_getElem? hstarted hl hm
    have hst := (x.detector.evaluate_kept f l).1
    refine ⟨hm, fun h => hrun (hst.trans h), fun h => ?_⟩
    have := hstart (hst.trans h)
    rwa [x.detector.evaluate_starting f h] at this
  · obtain ⟨⟨hdistinct, hused⟩, hlen⟩ := boundary_bins hlive (by
        rw [← hk]
        simp only [List.mem_map, forall_exists_index, and_imp]
        rintro _ l hl rfl h
        obtain ⟨hst, hb, -⟩ := x.detector.evaluate_kept f l
        rw [hb]
        exact hempty l hl (hst.symm.trans h))
      (by rw [← hk, List.flatMap_map]; simpa only [(x.detector.evaluate_kept f _).2.1] using hnodup)
      (by
        rw [← hk, List.map_map]
        have hneed (l : Loading) : (x.detector.evaluate f l).1.need = l.need := by
          obtain ⟨hst, hb, hc⟩ := x.detector.evaluate_kept f l
          simp only [Loading.need, hst, hb, hc]
        simp only [Function.comp_def, hneed]
        exact hroom)
    rw [← hk, List.forall₂_map_left_iff] at hlen
    refine ⟨hdistinct, fun i l m hl hm hs => ?_, fun i => by rw [hused i, List.mem_flatMap]⟩
    obtain ⟨hst, -, hc⟩ := x.detector.evaluate_kept f l
    rw [forall₂_getElem? hlen hl hm (hst.trans hs), hc, ToneEntry.used_length]

end Sys2Proof.Proofs

namespace Sys2Proof.Machine
open Sys2Proof Sys2Proof.Machine

/-! ### Seconds, backoffs and the report of a WAITING record (R4, R5, R20, R36) -/

theorem RecordState.second_eq (st : RecordState) : st.second = match st with
    | .held n part => if 100 ≤ part then .held (n - 1) (part - 100) else .held n part
    | st => st := by cases st <;> rfl

theorem Record.second_eq (r : Record) : r.second = { r with
    age := if 100 ≤ r.agePart then min (r.age + 1) 65535 else r.age
    agePart := if 100 ≤ r.agePart then r.agePart - 100 else r.agePart
    state := r.state.second } := by
  have ht : secondTicks = 100 := rfl
  unfold Record.second
  by_cases h : 100 ≤ r.agePart <;> simp [ht, h]

theorem exec_secondTick {s : State} (h : s.resetLow = false) : exec .secondTick s = .next s.secondPasses :=
  running_live State.secondPasses h

theorem exec_backoffExpiry {s : State} (h : s.resetLow = false) (g : Handle) :
    exec (.backoffExpiry g) s = .next (s.backoffEnd g) := running_live (State.backoffEnd g) h

theorem backoffEnd_over {s : State} {h : Handle} {r : Record} {part : Nat} (hr : s.findRecord h = some r)
    (hst : r.state = .held 0 part) :
    s.backoffEnd h = (s.updateRecord h fun r => { r with state := .waiting }).reportWaiting h := by
  simp [State.backoffEnd, hr, hst, RecordState.backoffOver]

theorem currentRoute_some {s : State} {r : Record} {ce : ClassEntry} (h : s.classEntry r.cls = some ce) :
    s.currentRoute r = ce.routes[r.routePos]? := by rw [State.currentRoute, h]

theorem joinableCall_iff {s : State} {rt : RouteId} {e : EngineId} : s.joinableCall rt = some e ↔
    s.callOn rt = some e ∧ ∃ c, (s.engine e).work = .alertCall c ∧ (s.engine e).phase ≠ .idle ∧
      (s.engine e).phase ≠ .closing ∧ c.preempt = false ∧ c.blocks.length < (s.routeOr rt).blocksPerCall ∧
      s.dsc.hold = none := by
  unfold State.joinableCall
  cases hc : s.callOn rt with
  | none => simp
  | some f =>
    have hsome (x : EngineId) (hx : (some f : Option EngineId) = some x) : x = f := (Option.some.inj hx).symm
    cases hw : (s.engine f).work with
    | alertCall c =>
      simp only [hw]
      constructor
      · intro h
        simp only [Option.ite_none_right_eq_some, Bool.and_eq_true, bne_iff_ne, Bool.not_eq_true',
          decide_eq_true_eq, Option.isNone_iff_eq_none] at h
        obtain ⟨⟨⟨⟨⟨hi, hcl⟩, hp⟩, hl⟩, hh⟩, he⟩ := h
        obtain rfl := hsome e he
        exact ⟨rfl, c, hw, hi, hcl, hp, hl, hh⟩
      · rintro ⟨he, c', hw', hi, hcl, hp, hl, hh⟩
        obtain rfl := hsome e he
        obtain rfl : c = c' := by rw [hw] at hw'; exact Work.alertCall.inj hw'
        simp [hi, hcl, hp, hl, hh]
    | _ =>
      simp only [hw]
      refine ⟨nofun, ?_⟩
      rintro ⟨he, c', hw', -⟩
      obtain rfl := hsome e he
      rw [hw] at hw'
      cases hw'

/-- R36: a record that may join no call is reported, and that is all. -/
theorem reportWaiting_of_not_joinable {s : State} {h : Handle} {r : Record} (hr : s.findRecord h = some r)
    (hn : ∀ rt, s.currentRoute r = some rt → s.joinableCall rt = none) : s.reportWaiting h = s.cause := by
  have hr' : s.cause.findRecord h = some r := hr
  have hroute : s.cause.currentRoute r = s.currentRoute r := rfl
  rw [State.reportWaiting, State.lateJoin, hr']
  simp only [hroute]
  cases hc : s.currentRoute r with
  | none => rfl
  | some rt =>
    have hj : s.cause.joinableCall rt = none := hn rt hc
    simp only [hj]

theorem reportWaiting_of_joinable {s : State} {h : Handle} {r : Record} {rt : RouteId} {e : EngineId}
    (hr : s.findRecord h = some r) (hw : r.state = .waiting) (hc : s.currentRoute r = some rt)
    (hj : s.joinableCall rt = some e) : s.reportWaiting h = s.cause.joined h e := by
  have hr' : s.cause.findRecord h = some r := hr
  have hc' : s.cause.currentRoute r = some rt := hc
  have hj' : s.cause.joinableCall rt = some e := hj
  simp only [State.reportWaiting, State.lateJoin, hr', hc', hj', State.takeRecord, if_pos hw, State.joined]

/-! ### The queue's places and handles (R2, R3, R10, R11) -/

theorem placeRecord_split {r : Record} {q : List Record} (hq : q.Pairwise fun a b => a.cls ≤ b.cls) :
    ∃ a b, q = a ++ b ∧ placeRecord r q = a ++ r :: b ∧ (∀ x ∈ a, x.cls ≤ r.cls) ∧ ∀ x ∈ b, r.cls < x.cls := by
  refine ⟨_, _, (List.takeWhile_append_dropWhile (p := fun x : Record => decide (x.cls ≤ r.cls))).symm, rfl,
    fun x hx => by simpa using List.mem_takeWhile_imp hx, ?_⟩
  cases hd : q.dropWhile fun x => decide (x.cls ≤ r.cls) with
  | nil => simp
  | cons y ys =>
    have hy : r.cls < y.cls := by
      have := List.head?_dropWhile_not (fun x : Record => decide (x.cls ≤ r.cls)) q
      simpa [hd] using this
    have hsorted := hq.sublist (List.dropWhile_sublist fun x => decide (x.cls ≤ r.cls))
    rw [hd, List.pairwise_cons] at hsorted
    intro x hx
    rcases List.mem_cons.1 hx with rfl | hx
    · exact hy
    · exact lt_of_lt_of_le hy (hsorted.1 x hx)

theorem lowestFree_lowest {s : State} {h : Handle} (hs : s.lowestFree = some h) {g : Handle} (hg : g < h) :
    ∃ r ∈ s.queue, r.handle = g := by
  obtain ⟨-, i, hi, hget, hbefore⟩ := List.find?_eq_some_iff_getElem.1 hs
  have hih : i = h.val := by rw [← hget]; simp
  have := hbefore g.val (by rw [hih]; exact hg)
  simpa using this

theorem find?_of_unique {α : Type} {q : List α} {p : α → Bool} {r : α} (hr : r ∈ q) (hp : p r = true)
    (huniq : ∀ x ∈ q, p x = true → x = r) : q.find? p = some r := by
  cases hf : q.find? p with
  | none => exact absurd hp (List.find?_eq_none.1 hf r hr)
  | some x => rw [huniq x (List.mem_of_find?_eq_some hf) (List.find?_some hf)]

theorem evictionCandidate_of_last {s : State} {pre post : List Record} {r : Record} (hq : s.queue = pre ++ r :: post)
    (hr : r.state.isInCall = false) (hpost : ∀ x ∈ post, x.state.isInCall = true) : s.evictionCandidate = some r := by
  have hnone : post.reverse.find? (fun r => !r.state.isInCall) = none :=
    List.find?_eq_none.2 fun x hx => by simp [hpost x (List.mem_reverse.1 hx)]
  simp [State.evictionCandidate, hq, List.find?_append, hnone, hr]

theorem evictionCandidate_none {s : State} (h : ∀ r ∈ s.queue, r.state.isInCall = true) : s.evictionCandidate = none :=
  List.find?_eq_none.2 fun x hx => by simp [h x (List.mem_reverse.1 hx)]

/-! ### Arrivals row by row (R6 to R11) -/

section
variable {s : State} {k : Key} {cls : ClassId}

theorem offer_outOfRange (hk : k.inRange = false) : s.offer k cls = (s, .refused) := by
  rw [State.offer, if_pos (by simp [hk])]

theorem offer_coalesces (hk : k.inRange = true) {r : Record}
    (hr : s.queue.find? (fun r => r.key == k && r.state.coalesces) = some r) : s.offer k cls =
      (s.updateRecord r.handle fun r => { r with repeats := min (r.repeats + 1) 15 }, .coalesced r.handle) := by
  simp [State.offer, hk, hr]

theorem offer_rearms (hk : k.inRange = true) {r : Record}
    (hc : s.queue.find? (fun r => r.key == k && r.state.coalesces) = none)
    (hr : s.queue.find? (fun r => r.key == k && r.state == .stranded) = some r) : s.offer k cls =
      ((s.updateRecord r.handle Record.rearm).reportWaiting r.handle, .coalesced r.handle) := by
  simp [State.offer, hk, hc, hr]

/-- No record of the key stands outside a call. -/
def State.NoOpen (s : State) (k : Key) : Prop := ∀ r ∈ s.queue, r.key = k → r.state.isInCall = true

theorem State.NoOpen.find_coalesces (h : s.NoOpen k) :
    s.queue.find? (fun r => r.key == k && r.state.coalesces) = none := List.find?_eq_none.2 fun r hr hp => by
  simp only [Bool.and_eq_true, beq_iff_eq] at hp
  have := h r hr hp.1
  cases hst : r.state <;> simp_all [RecordState.isInCall, RecordState.coalesces]

theorem State.NoOpen.find_stranded (h : s.NoOpen k) :
    s.queue.find? (fun r => r.key == k && r.state == .stranded) = none := List.find?_eq_none.2 fun r hr hp => by
  simp only [Bool.and_eq_true, beq_iff_eq] at hp
  simpa [hp.2, RecordState.isInCall] using h r hr hp.1

theorem offer_cancels (hk : k.inRange = true) (hopen : s.NoOpen k) {r : Record} (hc : s.cancelTarget k = some r) :
    s.offer k cls = (s.removeRecord r.handle, .cancelled r.handle r.key) := by
  simp [State.offer, hk, hopen.find_coalesces, hopen.find_stranded, hc]

/-- R10, R11: the rows of an arrival that meets no record. -/
theorem offer_new (hk : k.inRange = true) (hopen : s.NoOpen k) (hc : s.cancelTarget k = none) : s.offer k cls =
    if s.queue.length < 32 then
      match s.admitAlert k cls with
      | some (s', h) => (s', .accepted h)
      | none => (s, .queueFull)
    else
      match s.evictionCandidate with
      | some r =>
        if cls < r.cls then
          match ((s.removeRecord r.handle).raise (.evicted r.handle r.key)).admitAlert k cls with
          | some (s', h) => (s', .acceptedEvicting h)
          | none => (s, .queueFull)
        else (s, .queueFull)
      | none => (s, .queueFull) := by
  rw [State.offer, if_neg (by simp [hk])]
  simp only [hopen.find_coalesces, hopen.find_stranded, hc] <;> rfl

theorem admitAlert_of_free {h : Handle} (hf : s.lowestFree = some h) : s.admitAlert k cls =
    some (({ s with queue := placeRecord (newRecord h k cls) s.queue } : State).reportWaiting h, h) := by
  rw [State.admitAlert, hf]

theorem Key.inRange_iff (k : Key) : k.inRange = true ↔ k.source ≤ 63 ∧ k.zone ≤ 999 ∧ k.event ≤ 999 := by
  simp [Key.inRange, and_assoc]

theorem onCell_of_held {kind : Nat} {c : InCell} (hc : s.held kind = some c) (f : State → InCell → State) :
    s.onCell kind f = f s c := by rw [State.onCell, hc]

theorem exec_alert (hlow : s.resetLow = false) {c : InCell} (hc : s.held 1 = some c) :
    exec .alert s = .next (s.stationAlert c) :=
  (running_live (State.onCell · 1 State.stationAlert) hlow).trans (congrArg Host.Outcome.next (onCell_of_held hc _))

/-- R6, R12: an alert decided by `offer` is decided for the part and the station alike. -/
theorem decidesAlert_of_offer {t : State} {res : AlertResult} {result : Result} {detail : List Word}
    (hoff : s.offer k cls = (t, res)) (hans : t.answerAlert res = t.answer result detail) :
    s.DecidesAlert k cls t result detail := by
  refine ⟨by rw [State.internalAlert, hoff], fun c hlow hc ha => ?_⟩
  rw [exec_alert hlow hc, State.stationAlert, ha]
  exact congrArg Host.Outcome.next (by simp only [hoff, hans])

end

/-! ### Cancellation (R9) -/

theorem cancelTarget_of_waiting {s : State} (hs : QueueSound s) {k : Key} {r : Record} (hr : r ∈ s.queue)
    (hq : k.qualifier = .restore) (hkey : r.key = { k with qualifier := .new }) (hout : r.state.isInCall = false) :
    s.cancelTarget k =
      if r.state = .waiting && !r.isProtected && decide (r.age < s.cancelWindow r.cls) then some r else none := by
  have hf : s.queue.find? (fun r => r.key == { k with qualifier := .new } && !r.state.isInCall) = some r :=
    find?_of_unique hr (by simp [hkey, hout]) fun x hx hp => by
      simp only [Bool.and_eq_true, beq_iff_eq, Bool.not_eq_true'] at hp
      exact hs.eq_of_key hx hr hp.2 hout (hp.1.trans hkey.symm)
  rw [State.cancelTarget, if_pos hq, hf]

/-! ### An ALERT cell's fields (R182) -/

theorem qualifierOf_alert (n : Nat) (q : Qualifier) : qualifierOf n = some q ∧ q ≠ .test ↔
    (n = 1 ∨ n = 2) ∧ q = if n = 1 then .new else .restore := by
  unfold qualifierOf
  split <;> cases q <;> simp_all

theorem alertArrival_iff {c : InCell} {k : Key} {n : ClassId} : c.alertArrival = some (k, n) ↔
    n.val = bitsOf (c.word 1) 10 8 ∧ k.source = bitsOf (c.word 1) 5 0 ∧ k.zone = c.field 2 ∧ k.event = c.field 3 ∧
      (qualifierOf (bitsOf (c.word 1) 7 6) = some k.qualifier ∧ k.qualifier ≠ .test) ∧ k.zone ≤ 999 ∧ k.event ≤ 999 := by
  have hsource : bitsOf (c.word 1) 5 0 ≤ 63 := Nat.le_of_lt_succ (bitsOf_lt (c.word 1) 5 0)
  unfold InCell.alertArrival
  cases hq : qualifierOf (bitsOf (c.word 1) 7 6) with
  | none => simp
  | some q =>
    by_cases hn : bitsOf (c.word 1) 10 8 < 6
    · obtain ⟨source, zone, event, qual⟩ := k
      simp only [finOf, dif_pos hn, Option.ite_none_right_eq_some, Bool.and_eq_true, Key.inRange_iff, bne_iff_ne,
        Option.some.injEq, Prod.mk.injEq, Key.mk.injEq, Fin.ext_iff]
      grind
    · simp only [finOf, dif_neg hn]
      have := n.isLt
      constructor
      · nofun
      · rintro ⟨h, -⟩
        omega

end Sys2Proof.Machine

namespace Sys2Proof.Proofs
open Sys2Proof Sys2Proof.Machine

/-- Settles O42: a second of a record's own is `Record.second`, and a backoff at 0 is over. -/
theorem secondsAndBackoffs : Obligations.SecondsAndBackoffs := by
  intro s hlow
  refine ⟨?_, fun h r part hr hst => ?_⟩
  · rw [exec_secondTick hlow, State.secondPasses]
    refine congrArg (fun q => Host.Outcome.next { s with queue := q }) (List.map_congr_left fun r _ => ?_)
    rw [Record.second_eq, RecordState.second_eq] <;> rfl
  · rw [exec_backoffExpiry hlow, backoffEnd_over hr hst]
    rfl

/-- Settles O43: a late join is made exactly with the call that `joinableCall` names. -/
theorem lateJoinMade : Obligations.LateJoinMade := by
  rintro s h r hr hw s1 rfl
  have hstay (hn : ∀ rt, s.currentRoute r = some rt → s.joinableCall rt = none) :
      s.reportWaiting h = { s with dsc := { s.dsc with selectionsDue := s.dsc.selectionsDue + 1 } } :=
    reportWaiting_of_not_joinable hr hn
  refine ⟨fun hend => hstay fun rt hrt => ?_, fun ce rt hce hrt => ?_⟩
  · cases hce : s.classEntry r.cls with
    | none => simp [State.currentRoute, hce] at hrt
    | some ce =>
      rw [currentRoute_some hce, List.getElem?_eq_none (hend ce hce)] at hrt
      cases hrt
  have hroute : s.currentRoute r = some rt := (currentRoute_some hce).trans hrt
  have hstay' (hn : ∀ e, s.joinableCall rt ≠ some e) :
      s.reportWaiting h = { s with dsc := { s.dsc with selectionsDue := s.dsc.selectionsDue + 1 } } :=
    hstay fun rt' hrt' => by
      obtain rfl := Option.some.inj (hroute.symm.trans hrt')
      exact Option.eq_none_iff_forall_ne_some.2 hn
  refine ⟨fun hnone => hstay' fun e he => ?_, fun e he => ⟨fun hno => hstay' fun f hf => ?_, fun c hc =>
    ⟨fun hbar => hstay' fun f hf => ?_, fun hi hcl hp hl hh => ?_⟩⟩⟩
  · cases hnone.symm.trans (joinableCall_iff.1 he).1
  · obtain ⟨hon, c, hc, -⟩ := joinableCall_iff.1 hf
    obtain rfl := Option.some.inj (he.symm.trans hon)
    rw [hc] at hno
    cases hno
  · obtain ⟨hon, c', hc', hi, hcl, hp, hl, hh⟩ := joinableCall_iff.1 hf
    obtain rfl := Option.some.inj (he.symm.trans hon)
    obtain rfl := Work.alertCall.inj (hc.symm.trans hc')
    rcases hbar with h | h | h | h
    · exact hcl h
    · exact absurd h (by simp [hp])
    · omega
    · simp [hh] at h
  · rw [reportWaiting_of_joinable hr hw hroute (joinableCall_iff.2 ⟨he, c, hc, hi, hcl, hp, hl, hh⟩)]
    have hengine : (s.cause.updateRecord h fun r => { r with state := .inCall e, isProtected := true }).engine e =
        s.engine e := rfl
    rw [State.joined, State.appendBlock, hengine, hc]
    rfl

/-- Settles O44: the cell's decoding, the place of a record, and the rows of R6 for an arrival that meets no record. -/
theorem alertAdmission : Obligations.AlertAdmission := by
  refine ⟨?_, fun h k cls => rfl, fun r q hq => placeRecord_split hq, fun s c hlow hc ha => ?_, fun s k cls =>
    ⟨fun hout => ?_, fun hs hz he hopen hcancel => ?_⟩⟩
  · rintro c source qualifier cls zone event rfl hqual hcls rfl rfl
    have hsrc : bitsOf (c.word 1) 5 0 = (c.word 1).toNat % 64 := by simp [bitsOf]
    have hq : bitsOf (c.word 1) 7 6 = qualifier := by rw [hqual]; rfl
    have hn : bitsOf (c.word 1) 10 8 = cls := by rw [hcls]; rfl
    have hf (i : Nat) : c.field i = (c.word i).toNat % 32768 := by simp [InCell.field, bitsOf]
    have hiff := fun k n => alertArrival_iff (c := c) (k := k) (n := n)
    simp only [hsrc, hq, hn, hf, qualifierOf_alert] at hiff
    refine ⟨?_, fun k n h => ?_⟩
    · rw [Option.eq_none_iff_forall_ne_some]
      constructor
      · intro hnone
        by_contra hin
        refine hnone (⟨(c.word 1).toNat % 64, (c.word 2).toNat % 32768, (c.word 3).toNat % 32768,
          if qualifier = 1 then .new else .restore⟩, ⟨cls, by omega⟩) ((hiff _ _).2 ⟨rfl, rfl, rfl, rfl, ⟨?_, rfl⟩, ?_, ?_⟩)
        · omega
        · dsimp only; omega
        · dsimp only; omega
      · rintro hout ⟨k, n⟩ h
        obtain ⟨h1, -, h3, h4, ⟨h5, -⟩, h6, h7⟩ := (hiff _ _).1 h
        have := n.isLt
        omega
    · obtain ⟨h1, h2, h3, h4, ⟨-, h5⟩, -⟩ := (hiff _ _).1 h
      exact ⟨h1, by cases k; simp_all⟩
  · rw [exec_alert hlow hc, State.stationAlert, ha]
    rfl
  · rw [State.internalAlert, offer_outOfRange]
    rw [Bool.eq_false_iff, Ne, Key.inRange_iff]
    omega
  have hk : k.inRange = true := k.inRange_iff.2 ⟨hs, hz, he⟩
  have hnew := offer_new (cls := cls) hk hopen hcancel
  refine ⟨fun h hroom hf => ⟨fun g => lowestFree_lowest hf, lowestFree_free hf,
      decidesAlert_of_offer (res := .accepted h) ?_ rfl⟩,
    fun pre r post hfull hq hr hpost => ?_, fun hfull hall => decidesAlert_of_offer (res := .queueFull) ?_ rfl⟩
  · rw [hnew, if_pos hroom, admitAlert_of_free hf]
  · rw [if_neg (by omega), evictionCandidate_of_last hq hr hpost] at hnew
    refine ⟨fun hle => decidesAlert_of_offer (hnew.trans (if_neg (not_lt.2 hle))) rfl, ?_⟩
    rintro hlt s1 rfl h hf
    refine decidesAlert_of_offer (res := .acceptedEvicting h) (hnew.trans ((if_pos hlt).trans ?_)) rfl
    have hadmit := admitAlert_of_free (k := k) (cls := cls) hf
    exact (congrArg (fun o : Option (State × Handle) => match o with
      | some (s', h) => (s', AlertResult.acceptedEvicting h)
      | none => (s, AlertResult.queueFull)) hadmit)
  · rw [hnew, if_neg (by omega), evictionCandidate_none hall]

/-- Settles O45: outside a call a key names one record (R11), so the row that applies is that record's. -/
theorem alertMeetsRecord : Obligations.AlertMeetsRecord := by
  intro s k cls hs hz he hsound
  have hk : k.inRange = true := k.inRange_iff.2 ⟨hs, hz, he⟩
  have hunique (p : Record → Bool) {r : Record} (hr : r ∈ s.queue) (hkey : r.key = k) (hout : r.state.isInCall = false)
      (hp : p r = true) (hpout : ∀ x, p x = true → x.state.isInCall = false) :
      s.queue.find? (fun r => r.key == k && p r) = some r :=
    find?_of_unique hr (by simp [hkey, hp]) fun x hx hxp => by
      simp only [Bool.and_eq_true, beq_iff_eq] at hxp
      exact hsound.eq_of_key hx hr (hpout x hxp.2) hout (hxp.1.trans hkey.symm)
  have hco (x : Record) (h : x.state.coalesces = true) : x.state.isInCall = false := by
    cases hst : x.state <;> simp_all [RecordState.coalesces, RecordState.isInCall]
  refine ⟨fun r hr hkey hc => ?_, fun r hr hkey hst => ?_, fun r hr ce hq hopen hkey hst hp hce hage => ?_,
    fun r hr hkey hout hbar => ?_, fun hall => ?_⟩
  · exact decidesAlert_of_offer (offer_coalesces hk (hunique (fun r => r.state.coalesces) hr hkey (hco r hc) hc hco)) rfl
  · have hout : r.state.isInCall = false := by rw [hst]; rfl
    have hno : s.queue.find? (fun r => r.key == k && r.state.coalesces) = none := List.find?_eq_none.2 fun x hx hp => by
      simp only [Bool.and_eq_true, beq_iff_eq] at hp
      obtain rfl := hsound.eq_of_key hx hr (hco x hp.2) hout (hp.1.trans hkey.symm)
      rw [hst] at hp
      cases hp.2
    exact decidesAlert_of_offer (offer_rearms hk hno (hunique (fun r => r.state == .stranded) hr hkey hout (by simp [hst])
      fun x hx => by rw [beq_iff_eq.1 hx]; rfl)) rfl
  · have hwin : s.cancelWindow r.cls = ce.cancelWindow := by rw [State.cancelWindow, hce]
    have ht := cancelTarget_of_waiting hsound hr hq hkey (by rw [hst]; rfl)
    rw [if_pos (by simp [hst, hp, hwin, hage])] at ht
    exact decidesAlert_of_offer (offer_cancels hk hopen ht) rfl
  · by_cases hq : k.qualifier = .restore
    · rw [cancelTarget_of_waiting hsound hr hq hkey hout, if_neg]
      rcases hbar with h | h | h | h | ⟨ce, hce, h⟩
      · exact absurd hq h
      · simp [h]
      · simp [h]
      · simp [State.cancelWindow, h]
      · simp [State.cancelWindow, hce, h]
    · exact if_neg hq
  · unfold State.cancelTarget
    rw [List.find?_eq_none.2 fun x hx hp => by
      simp only [Bool.and_eq_true, beq_iff_eq] at hp
      simp [hall x hx hp.1] at hp]
    split <;> rfl

end Sys2Proof.Proofs

namespace Sys2Proof.Machine
open Sys2Proof Sys2Proof.Machine

/-! ### Running a command and taking a cell (R154, R174) -/

theorem run_command {s : State} {c : InCell} {code : Nat} (hlow : s.resetLow = false) (hc : s.heldCommand code = some c)
    (f : State → InCell → State) : running (State.onCommand · code f) s = .next (f s c) := by
  rw [running_live _ hlow, onCommand_of_heldCommand hc]

theorem run_cell {s : State} {c : InCell} {kind : Nat} (hlow : s.resetLow = false) (hc : s.held kind = some c)
    (f : State → InCell → State) : running (State.onCell · kind f) s = .next (f s c) := by
  rw [running_live _ hlow, onCell_of_held hc]

theorem held_of_inHand {s : State} {c : InCell} {kind : Nat} (hc : s.ccp.inHand = some c) (hk : c.kind = kind) :
    s.held kind = some c := by rw [State.held, hc]; exact if_pos hk

theorem replyWith_eq {s : State} {c : InCell} (h : s.ccp.inHand = some c) (content : AnswerContent) (done : Bool) :
    s.replyWith content done =
      { s with ccp := { s.ccp with answers := s.ccp.answers ++ [⟨c.tag, content, done⟩], inHand := none } } := by
  simp [State.replyWith, h]

/-! ### The timers of the scheduler and of the Command Unit (R42, R152, R159, R160) -/

@[simp] theorem timerDue_iff (timer : Option Nat) : timerDue timer = true ↔ timer = some 0 := by
  simp [timerDue]

theorem exec_holdTimerExpiry {s : State} (h : s.resetLow = false) : exec .holdTimerExpiry s = .next s.holdTimerEnd :=
  running_live State.holdTimerEnd h

theorem exec_commandExpired {s : State} (h : s.resetLow = false) : exec .commandExpired s = .next s.slotExpired :=
  running_live State.slotExpired h

theorem exec_periodicTestExpiry {s : State} (h : s.resetLow = false) : exec .periodicTestExpiry s = .next s.periodicEnd :=
  running_live State.periodicEnd h

theorem exec_silenceTimerExpiry {s : State} (h : s.resetLow = false) : exec .silenceTimerExpiry s = .next s.silenceEnd :=
  running_live State.silenceEnd h

theorem siteOr_loaded {s : State} {x : SiteRecord} (h : s.tables.site = some x) : s.siteOr = x := by
  rw [State.siteOr, h]; rfl

theorem periodicTimerAt_eq (hours : Nat) :
    periodicTimerAt hours = if hours = 0 then none else some (hours * 360000) := by
  unfold periodicTimerAt ticksOfSeconds
  congr 2
  omega

theorem slotExpired_due {s : State} {c : SlotCommand} (h : s.cmu.slot = .held c 0) :
    s.slotExpired = ({ s with cmu := { s.cmu with slot := .empty } } : State).raise (.commandExpired c) := by
  simp [State.slotExpired, h]

theorem slotExpired_notDue {s : State} (h : ∀ c, s.cmu.slot ≠ .held c 0) : s.slotExpired = s := by
  unfold State.slotExpired
  split
  · next c hc => exact absurd hc (h c)
  all_goals rfl

/-! ### Cells taken (R174) -/

theorem takeCell_ready {s : State} {c : InCell} {rest : List InCell} (hin : s.ccp.inbound = c :: rest)
    (hhand : s.ccp.inHand = none) (hroom : s.ccp.answers.length < 4) (hwait : s.ccp.initWait = false) :
    s.takeCell = if c.lengthOk then { s with ccp := { s.ccp with inbound := rest, inHand := some c } }
      else ({ s with ccp := { s.ccp with inbound := rest, inHand := some c } } : State).answer .badArgument [] := by
  simp [State.takeCell, hin, hhand, hroom, hwait]

theorem takeCell_notReady {s : State} (h : s.ccp.inHand.isSome = true ∨ 4 ≤ s.ccp.answers.length ∨ s.ccp.initWait = true) :
    s.takeCell = s := by
  unfold State.takeCell
  split
  · rfl
  · refine if_neg fun hp => ?_
    simp only [Bool.and_eq_true, Option.isNone_iff_eq_none, decide_eq_true_eq, Bool.not_eq_true'] at hp
    obtain ⟨⟨hhand, hroom⟩, hwait⟩ := hp
    rcases h with h | h | h
    · simp [hhand] at h
    · omega
    · simp [hwait] at h

theorem findRecord_isSome {s : State} {h : Handle} : (s.findRecord h).isSome = true ↔ ∃ r ∈ s.queue, r.handle = h := by
  simp [State.findRecord]

theorem readQueue_handle {s : State} {c : InCell} {h : Handle} (hc : c.field 1 = h.val) :
    s.readQueue c = if (s.findRecord h).isSome then s.replyWith (.queueRecord h) false else s.refuse .badArgument := by
  have hne : ¬ c.field 1 = summaryRequest := by
    have : summaryRequest = 32767 := rfl
    omega
  rw [State.readQueue, if_neg hne, hc]
  simp only [finOf_val]

theorem readQueue_noHandle {s : State} {c : InCell} (hc : 32 ≤ c.field 1) (hne : c.field 1 ≠ 32767) :
    s.readQueue c = s.refuse .badArgument := by
  have hne : ¬ c.field 1 = summaryRequest := hne
  rw [State.readQueue, if_neg hne]
  simp only [finOf_eq_none hc]

theorem badCode_unnamed {s : State} {c : InCell} (h : c.code = 0 ∨ 15 ≤ c.code) :
    s.badCode c = s.answer .badArgument [] := if_neg (by simp; omega)

/-! ### The command slot (R150, R153) -/

theorem placeInSlot_empty {s : State} (c : SlotCommand) (h : s.cmu.slot = .empty) : s.placeInSlot c =
    ({ s with cmu := { s.cmu with slot := .held c slotTicks } } : State).cause.answer .pending [] := by
  simp [State.placeInSlot, h]

theorem placeInSlot_taken {s : State} (c : SlotCommand) (h : s.cmu.slot ≠ .empty) :
    s.placeInSlot c = s.answer .slotBusy [] := by
  unfold State.placeInSlot
  split
  · next he => exact absurd he h
  all_goals rfl

/-- R150: a command for the slot with its argument, a trunk or a route. -/
theorem slot_decided {s : State} {c : InCell} (run : State) (mk : Fin 8 → SlotCommand)
    (hrun : run = match finOf 8 (c.field 2) with
      | some n => s.placeInSlot (mk n)
      | none => s.answer .badArgument []) :
    (∀ n : Fin 8, c.field 2 = n.val →
      (s.cmu.slot = .empty → run = ({ s with
        cmu := { s.cmu with slot := .held (mk n) 3000 }
        dsc := { s.dsc with selectionsDue := s.dsc.selectionsDue + 1 } } : State).answer .pending []) ∧
      (s.cmu.slot ≠ .empty → run = s.answer .slotBusy [])) ∧
    (8 ≤ c.field 2 → run = s.answer .badArgument []) := by
  subst hrun
  refine ⟨fun n hn => ⟨fun hempty => ?_, fun hbusy => ?_⟩, fun hout => ?_⟩
  · simp only [hn, finOf_val, placeInSlot_empty (mk n) hempty]
    rfl
  · simp only [hn, finOf_val, placeInSlot_taken (mk n) hbusy]
  · simp only [finOf_eq_none hout]

/-! ### Barring (R112) -/

theorem grantable_congr {s t : State} {u : TrunkId} (ht : t.tables = s.tables) (hh : t.hwi = s.hwi)
    (hu : t.trunk u = s.trunk u) (m : PreemptMode) : t.grantable m u = s.grantable m u := by
  simp only [State.grantable, State.managed, State.trunkRole, State.ringRecently, State.debounced, State.ringFallWaits, ht,
    hh, hu]

/-- R112, R102: whether a change of its barred flag makes a trunk grantable under a mode under which it was not. -/
def State.gainsGrant (s : State) (barred : Bool) (u : TrunkId) : Bool :=
  [PreemptMode.none, .afterWarning, .immediate].any fun m =>
    !s.grantable m u && (s.setTrunk u { s.trunk u with barred := barred }).grantable m u

theorem grantable_barred {s : State} {u : TrunkId} (h : (s.trunk u).barred = true) (m : PreemptMode) :
    s.grantable m u = false := by simp [State.grantable, h]

theorem gainsGrant_bar (s : State) (u : TrunkId) : s.gainsGrant true u = false := by
  simp [State.gainsGrant, grantable_barred]

theorem setBarred_eq (s : State) (barred : Bool) (u : TrunkId) : s.setBarred barred u =
    { s with trunks := vput s.trunks u { s.trunk u with barred := barred }, dsc := { s.dsc with
        selectionsDue := s.dsc.selectionsDue + (if s.gainsGrant barred u then 1 else 0) } } := by
  unfold State.setBarred State.reportGrantable
  cases h : s.gainsGrant barred u
  · exact if_neg (Bool.eq_false_iff.1 h)
  · exact if_pos h

theorem gainsGrant_setBarred (s : State) (barred : Bool) {t u : TrunkId} (h : u ≠ t) :
    (s.setBarred barred t).gainsGrant barred u = s.gainsGrant barred u := by
  have htrunk : (s.setBarred barred t).trunk u = s.trunk u := by
    rw [setBarred_eq]
    exact vget_vput_other _ _ h
  have htables : (s.setBarred barred t).tables = s.tables := by rw [setBarred_eq]
  have hhwi : (s.setBarred barred t).hwi = s.hwi := by rw [setBarred_eq]
  have hbefore := grantable_congr htables hhwi htrunk
  have hafter (m : PreemptMode) :
      ((s.setBarred barred t).setTrunk u { (s.setBarred barred t).trunk u with barred := barred }).grantable m u =
        (s.setTrunk u { s.trunk u with barred := barred }).grantable m u :=
    grantable_congr (u := u) (s := s.setTrunk u _) (t := State.setTrunk _ u _) htables hhwi
      (by rw [trunk_setTrunk_same, trunk_setTrunk_same, htrunk]) m
  simp only [State.gainsGrant, hbefore, hafter]

/-- R112: the barred flags of the trunks of a list, set or cleared in turn. -/
theorem foldl_setBarred (barred : Bool) {us : List TrunkId} (hn : us.Nodup) (s : State) :
    us.foldl (fun s t => s.setBarred barred t) s =
      { s with
        trunks := vmap (fun u x => if u ∈ us then { x with barred := barred } else x) s.trunks
        dsc := { s.dsc with selectionsDue := s.dsc.selectionsDue + (us.filter (s.gainsGrant barred)).length } } := by
  induction us generalizing s with
  | nil =>
    have hsame : vmap (fun _ x => x) s.trunks = s.trunks := vector_ext_vget fun u => vget_vmap _ _ u
    simp only [List.foldl_nil, List.not_mem_nil, if_false, List.filter_nil, List.length_nil, Nat.add_zero, hsame]
  | cons t us ih =>
    rw [List.nodup_cons] at hn
    have hrest : us.filter ((s.setBarred barred t).gainsGrant barred) = us.filter (s.gainsGrant barred) :=
      List.filter_congr fun u hu => gainsGrant_setBarred s barred fun h => hn.1 (h ▸ hu)
    have htrunks : vmap (fun u x => if u ∈ us then { x with barred := barred } else x)
        (vput s.trunks t { s.trunk t with barred := barred }) =
        vmap (fun u x => if u ∈ t :: us then { x with barred := barred } else x) s.trunks := by
      refine vector_ext_vget fun u => ?_
      by_cases hu : u = t
      · subst hu
        simp [State.trunk]
      · simp [hu]
    rw [List.foldl_cons, ih hn.2, hrest, setBarred_eq, htrunks]
    cases h : s.gainsGrant barred t <;> simp [h, Nat.add_assoc, Nat.add_comm]

theorem setAllBarred_eq (s : State) (barred : Bool) : s.setAllBarred barred =
    { s with
      trunks := vmap (fun _ x => { x with barred := barred }) s.trunks
      dsc := { s.dsc with
        selectionsDue := s.dsc.selectionsDue + ((List.finRange 8).filter (s.gainsGrant barred)).length } } := by
  rw [State.setAllBarred, foldl_setBarred barred (List.nodup_finRange 8)]
  simp only [List.mem_finRange, if_true]

end Sys2Proof.Machine

namespace Sys2Proof.Proofs
open Sys2Proof Sys2Proof.Machine

/-- Settles O51: each timer acts exactly when it stands at 0. -/
theorem schedulerTimersEnd : Obligations.SchedulerTimersEnd := by
  intro s hlow
  rw [exec_holdTimerExpiry hlow, exec_commandExpired hlow, exec_periodicTestExpiry hlow, exec_silenceTimerExpiry hlow]
  refine ⟨fun h => ?_, fun h => ?_, fun c h => by rw [slotExpired_due h], fun h => by rw [slotExpired_notDue h],
    fun h => ?_, fun h => ?_, fun x hx h => ?_, fun x hx h hs => ?_⟩
  · rw [State.holdTimerEnd, if_pos ((timerDue_iff _).2 h), State.endHold, if_pos (by simp [h])]
    rfl
  · rw [State.holdTimerEnd, if_neg (mt (timerDue_iff _).1 h)]
  · rw [State.periodicEnd, if_neg (mt (timerDue_iff _).1 h)]
  · rw [State.silenceEnd, if_neg (by simpa [imp_iff_not_or] using h)]
  · rintro s1 rfl
    have hsite : (s.internalAlert ⟨0, 0, x.periodicEvent, .test⟩ classTest).siteOr = x := siteOr_loaded (by simpa using hx)
    have hkey : s.testKey = ⟨0, 0, x.periodicEvent, .test⟩ := by rw [State.testKey, siteOr_loaded hx]
    rw [State.periodicEnd, if_pos ((timerDue_iff _).2 h)]
    simp only [hkey, hsite, internalAlert_cmu, periodicTimerAt_eq]
    rfl
  · rw [State.silenceEnd, if_pos (by simp [h, hs]), siteOr_loaded hx]
    rfl

/-- Settles O52: a cell is taken when nothing is in hand and its answer has room, and each read becomes one answer. -/
theorem cellsTakenAndRead : Obligations.CellsTakenAndRead := by
  intro s c hlow
  have htake : exec .cellTaken s = .next s.takeCell := running_live State.takeCell hlow
  refine ⟨fun rest hin hhand hroom hwait => ⟨fun hok => ?_, fun hbad => ?_⟩, fun h => by rw [htake, takeCell_notReady h],
    fun hhand => ⟨fun hk => ?_, fun hk hcode => ?_, fun hk => ?_, fun hk hsum => ?_, fun h hk hf => ⟨fun hr => ?_, fun hr => ?_⟩,
      fun hk hout hne => ?_, fun hk => ⟨fun ref href => ?_, fun href => ?_⟩⟩⟩
  · rw [htake, takeCell_ready hin hhand hroom hwait, if_pos hok]
  · rw [htake, takeCell_ready hin hhand hroom hwait, if_neg (by simp [hbad])]
    simp only [State.answer, State.replyWith, hhand]
  · have hunknown : exec .unknownKind s = .next s.unknownCell := running_live State.unknownCell hlow
    rw [hunknown, State.unknownCell, hhand]
    simp [hk]
  · exact (run_cell hlow (held_of_inHand hhand hk) State.badCode).trans
      (congrArg Host.Outcome.next (badCode_unnamed hcode))
  · exact (run_cell hlow (held_of_inHand hhand hk) fun s _ => s.replyWith .status false).trans
      (congrArg Host.Outcome.next (replyWith_eq hhand _ _))
  · exact (run_cell hlow (held_of_inHand hhand hk) State.readQueue).trans
      (congrArg Host.Outcome.next ((if_pos hsum).trans (replyWith_eq hhand _ _)))
  · exact (run_cell hlow (held_of_inHand hhand hk) State.readQueue).trans (congrArg Host.Outcome.next
      ((readQueue_handle hf).trans ((if_pos (findRecord_isSome.2 hr)).trans (replyWith_eq hhand _ _))))
  · exact (run_cell hlow (held_of_inHand hhand hk) State.readQueue).trans (congrArg Host.Outcome.next
      ((readQueue_handle hf).trans (if_neg fun h => by obtain ⟨r, hm, he⟩ := findRecord_isSome.1 h; exact hr r hm he)))
  · exact (run_cell hlow (held_of_inHand hhand hk) State.readQueue).trans
      (congrArg Host.Outcome.next (readQueue_noHandle hout hne))
  · refine (run_cell hlow (held_of_inHand hhand hk) State.readTable).trans (congrArg Host.Outcome.next ?_)
    rw [State.readTable, href]
    exact replyWith_eq hhand _ _
  · refine (run_cell hlow (held_of_inHand hhand hk) State.readTable).trans (congrArg Host.Outcome.next ?_)
    rw [State.readTable, href]
    rfl

/-- Settles O55: LINE_TEST and TEST_CALL by `slot_decided`, CANCEL by what the slot holds. -/
theorem slotCommandsDecided : Obligations.SlotCommandsDecided := by
  intro s c hlow
  refine ⟨?_, fun hc => ?_⟩
  · rintro cmd k mk (⟨rfl, rfl, rfl⟩ | ⟨rfl, rfl, rfl⟩) hc
    · have hrun : exec .lineTest s = .next (s.lineTestCommand c) := run_command hlow hc State.lineTestCommand
      simp only [hrun, Host.Outcome.next.injEq]
      exact slot_decided (s.lineTestCommand c) .lineTest (by unfold State.lineTestCommand; rfl)
    · have hrun : exec .testCall s = .next (s.testCallCommand c) := run_command hlow hc State.testCallCommand
      simp only [hrun, Host.Outcome.next.injEq]
      exact slot_decided (s.testCallCommand c) .testCall (by unfold State.testCallCommand; rfl)
  · have hrun : exec .cancel s = .next s.cancelSlot := run_cell hlow hc fun s _ => s.cancelSlot
    rw [hrun, State.cancelSlot]
    refine ⟨fun k n h => ?_, fun k e h => ?_, fun h => ?_⟩
    all_goals simp only [h, SlotCommand.words]

/-- Settles O56: the barred flags set or cleared in turn, with a cause for each trunk that gains a grant. -/
theorem barringCommands : Obligations.BarringCommands := by
  intro s c hlow
  refine ⟨fun u hu => ⟨fun hc => ?_, fun hc => ?_⟩, fun hout => ⟨fun hc => ?_, fun hc => ?_⟩, fun hc => ?_, ?_⟩
  · refine (run_command hlow hc (State.barCommand true)).trans (congrArg Host.Outcome.next ?_)
    simp only [State.barCommand, hu, finOf_val, setBarred_eq, gainsGrant_bar]
    rfl
  · rintro s1 rfl
    have hrun : exec .unbar s = .next ((s.setBarred false u).answer .done []) := by
      refine (run_command hlow hc (State.barCommand false)).trans (congrArg Host.Outcome.next ?_)
      simp only [State.barCommand, hu, finOf_val]
    have hgain : s.gainsGrant false u = true ↔
        ∃ m, s.grantable m u = false ∧ (s.setTrunk u { s.trunk u with barred := false }).grantable m u = true := by
      rw [State.gainsGrant, List.any_eq_true]
      refine exists_congr fun m => ?_
      cases m <;> simp
    rw [hrun, setBarred_eq]
    refine ⟨fun hex => ?_, fun hno => ?_⟩
    · rw [if_pos (hgain.2 hex)]
      rfl
    · rw [if_neg fun h => ?_]
      · rfl
      · obtain ⟨m, hbefore, hafter⟩ := hgain.1 h
        rw [hno m hafter] at hbefore
        cases hbefore
  · refine (run_command hlow hc (State.barCommand true)).trans (congrArg Host.Outcome.next ?_)
    simp only [State.barCommand, finOf_eq_none hout]
  · refine (run_command hlow hc (State.barCommand false)).trans (congrArg Host.Outcome.next ?_)
    simp only [State.barCommand, finOf_eq_none hout]
  · refine (run_command hlow hc fun s _ => (s.setAllBarred true).answer .done []).trans (congrArg Host.Outcome.next ?_)
    have hnone : (List.finRange 8).filter (s.gainsGrant true) = [] :=
      List.filter_eq_nil_iff.2 fun u _ => by simp [gainsGrant_bar]
    rw [setAllBarred_eq, hnone]
    rfl
  · rintro hc s1 rfl
    refine (run_command hlow hc fun s _ => (s.setAllBarred false).answer .done []).trans (congrArg Host.Outcome.next ?_)
    have hgain : s.gainsGrant false = fun u => [PreemptMode.none, .afterWarning, .immediate].any fun m =>
        !s.grantable m u &&
          ({ s with trunks := vmap (fun _ x => { x with barred := false }) s.trunks } : State).grantable m u := by
      funext u
      unfold State.gainsGrant
      have hafter := grantable_congr (u := u)
        (s := { s with trunks := vmap (fun _ x => { x with barred := false }) s.trunks })
        (t := s.setTrunk u { s.trunk u with barred := false }) rfl rfl (by
          rw [trunk_setTrunk_same]
          exact (vget_vmap (fun _ (x : Trunk) => { x with barred := false }) s.trunks u).symm)
      simp only [hafter]
    rw [setAllBarred_eq, hgain]

/-- Settles O57. -/
theorem holdAndEventCommands : Obligations.HoldAndEventCommands := by
  intro s c hlow
  refine ⟨fun hc => ?_, fun hc => ⟨fun hnone => ?_, fun hon => ?_⟩, fun hc => ?_, fun hc => ?_⟩
  · refine (run_command hlow hc fun s c => (s.setHold (c.field 2)).answer .done []).trans (congrArg Host.Outcome.next ?_)
    have hticks : ticksOfSeconds (clampTo 1 60 (c.field 2) * 60) = max 1 (min 60 (c.field 2)) * 6000 := by
      unfold ticksOfSeconds clampTo
      omega
    rw [State.setHold, hticks]
  · refine (run_command hlow hc fun s _ => (s.endHold .resume).answer .done []).trans (congrArg Host.Outcome.next ?_)
    rw [State.endHold, if_neg (by simp [hnone])]
  · refine (run_command hlow hc fun s _ => (s.endHold .resume).answer .done []).trans (congrArg Host.Outcome.next ?_)
    rw [State.endHold, if_pos hon]
    rfl
  · exact ⟨s.setNotify c.maskBit, run_command hlow hc fun s c => (s.setNotify c.maskBit).answer .done [],
      rfl,
      fun k => by simp [State.setNotify]⟩
  · refine ⟨s.clearEvents c.maskBit, run_command hlow hc fun s c => (s.clearEvents c.maskBit).answer .done [], rfl,
      fun k hk => ?_, fun k hk => ?_, fun h => ?_, fun m h => ?_⟩
    · simp [State.clearEvents, hk, EventRecord.clear]
    · simp [State.clearEvents, hk]
    · simp [State.clearEvents, h]
    · simp [State.clearEvents, h]

end Sys2Proof.Proofs

namespace Sys2Proof.Machine
open Sys2Proof Sys2Proof.Machine

/-! ### What an applied write tells (R24, R116, R145, R159, R160) -/

theorem apply_staged (x : Tables) (w : Write) : (x.apply w).stagedWrite w.ref = none := by
  cases w <;> simp [Tables.apply, Tables.stagedWrite, Write.ref]

theorem apply_entryWords (x : Tables) (w : Write) : (x.apply w).entryWords w.ref ≠ none := by
  cases w <;> simp [Tables.apply, Tables.entryWords, Write.ref]

theorem ready_of_tables {s t : State} (h : t.tables = s.tables) : t.ready = s.ready := by
  simp only [State.ready, State.routeValid, State.routeEntry, h]

theorem tellReaders_evr (m b : State) (w : Write) : (m.tellReaders b w).evr = (m.cause.tellOwner b w).evr := by
  unfold State.tellReaders
  rw [readinessCause_evr]

theorem tellReaders_cmu (m b : State) (w : Write) : (m.tellReaders b w).cmu =
    { (m.cause.tellOwner b w).cmu with periodic := (m.cause.tellOwner b w).periodicAfter b } := by
  unfold State.tellReaders
  rw [readinessCause_cmu]

/-- Of an event kind other than the trunk faults nothing is told. -/
theorem tellReaders_record (m b : State) (w : Write) {k : EventKind} (hk : k ≠ 5) :
    vget (m.tellReaders b w).evr.records k = vget m.evr.records k := by
  rw [tellReaders_evr]
  cases w with
  | site e => simp [State.tellOwner]
  | trunk t e =>
    unfold State.tellOwner State.trunkEntryApplied
    rw [reportGrantable_evr]
    split
    · unfold State.cardFaultRise
      split
      · rw [raise_record_other _ _ hk]
        rfl
      · rfl
    · rfl
  | _ => rfl

theorem tellOwner_hold (m b : State) (w : Write) : (m.tellOwner b w).dsc.hold = m.dsc.hold := by
  cases w with
  | site e => simp [State.tellOwner]
  | trunk t e =>
    unfold State.tellOwner State.trunkEntryApplied State.reportGrantable State.cardFaultRise
    dsimp only
    split <;> split <;> (try split) <;> rfl
  | _ => rfl

theorem tellReaders_hold (m b : State) (w : Write) : (m.tellReaders b w).dsc.hold = m.dsc.hold := by
  unfold State.tellReaders State.readinessCause
  dsimp only
  split
  · exact tellOwner_hold m.cause b w
  · exact tellOwner_hold m.cause b w

theorem tellOwner_cmu {m b : State} {w : Write} (hw : w.ref ≠ .site) : (m.tellOwner b w).cmu = m.cmu := by
  cases w with
  | site e => exact absurd rfl hw
  | trunk t e => exact trunkEntryApplied_cmu _ _ _ _
  | _ => rfl

theorem siteToMonitor_cmu (m : State) (e : SiteRecord) : (m.siteToMonitor e).cmu = { m.cmu with
    silenceTimer := if m.cmu.silent then m.cmu.silenceTimer else silenceTimerAt e.silenceTime } := by
  unfold State.siteToMonitor
  split <;> rfl

theorem tellOwner_slot (m b : State) (w : Write) : (m.tellOwner b w).cmu.slot = m.cmu.slot ∧
    (m.tellOwner b w).cmu.periodic = m.cmu.periodic := by
  by_cases hw : w.ref = .site
  · cases w with
    | site e =>
      have hcmu : (m.tellOwner b (.site e)).cmu = _ := siteToMonitor_cmu m e
      rw [hcmu]
      exact ⟨rfl, rfl⟩
    | _ => cases hw
  · rw [tellOwner_cmu hw]
    exact ⟨rfl, rfl⟩

theorem silenceTimerAt_eq (n : Nat) : silenceTimerAt n = if n = 0 then none else some (n * 100) := rfl

theorem adjust_eq (r : Record) (ce : ClassEntry) : r.adjust ce = { r with
    routePos := if ce.routes.length ≤ r.routePos then 0 else r.routePos
    routeFailures := if ce.routes.length ≤ r.routePos then 0 else r.routeFailures
    cycles := if r.state ≠ .stranded ∧ ce.maxCycles ≤ r.cycles then ce.maxCycles - 1 else r.cycles } := by
  unfold Record.adjust
  by_cases hpos : ce.routes.length ≤ r.routePos <;> by_cases hcyc : r.state ≠ .stranded ∧ ce.maxCycles ≤ r.cycles <;>
    simp [hpos, hcyc]

theorem tellReaders_queue_class (m b : State) (k : ClassId) (ce : ClassEntry) :
    (m.tellReaders b (.cls k ce)).queue = m.queue.map fun r => if r.cls == k then r.adjust ce else r := by
  unfold State.tellReaders
  rw [readinessCause_queue]
  rfl

/-! ### The role of a trunk (R114, R116) -/

theorem trunkEntryApplied_unmanaged (s b : State) (u : TrunkId) {role : TrunkRole} (h : role = .unused ∨ role = .office) :
    (s.trunkEntryApplied b u role).trunk u = { Trunk.reset with barred := (s.trunk u).barred } ∧
      (s.trunkEntryApplied b u role).evr = s.evr := by
  have hno : managedRole role = false := by rcases h with rfl | rfl <;> rfl
  have hx : s.trunkOfRole u role (b.managed u) = { Trunk.reset with barred := (s.trunk u).barred } := by
    rcases h with rfl | rfl <;> rfl
  unfold State.trunkEntryApplied
  rw [reportGrantable_evr, trunk_of_trunks (reportGrantable_trunks _ _ _), if_neg (by simp [hno]), trunk_setTrunk_same, hx]
  exact ⟨rfl, rfl⟩

/-- What the new role leaves of a managed trunk. -/
theorem trunkOfRole_managed (s : State) (u : TrunkId) {role : TrunkRole} (h : role = .reserved ∨ role = .shared)
    (was f : Bool) (kept : Trunk) (hkept : kept = { s.trunk u with
      holder := none, warnTimer := none, guard := .absent
      faulted := if was then (s.trunk u).faulted else f
      failures := if was then (s.trunk u).failures else 0 }) :
    { s.trunkOfRole u role was with faulted := kept.faulted } =
      if role = .reserved then { kept with state := .idleReserved, busySince := none }
      else if s.officeUse u then { kept with state := .officeBusy, busySince := some s.clock }
      else { kept with state := .idleOffice, busySince := none } := by
  subst hkept
  rcases h with rfl | rfl
  · cases was <;> rfl
  · simp only [State.trunkOfRole, State.officeState, reduceCtorEq, if_false]
    cases was <;> split <;> rfl

theorem trunkOfRole_faulted (s : State) (u : TrunkId) {role : TrunkRole} (h : role = .reserved ∨ role = .shared) (was : Bool) :
    (s.trunkOfRole u role was).faulted = (was && (s.trunk u).faulted) := by
  rcases h with rfl | rfl
  · cases was <;> rfl
  · simp only [State.trunkOfRole, State.officeState]
    cases was <;> split <;> rfl

theorem trunkEntryApplied_managed (s b : State) (u : TrunkId) {role : TrunkRole} (h : role = .reserved ∨ role = .shared)
    (hrole : s.trunkRole u = role) (kept : Trunk) (hkept : kept = { s.trunk u with
      holder := none, warnTimer := none, guard := .absent
      faulted := if b.managed u then (s.trunk u).faulted else s.debounced u .f
      failures := if b.managed u then (s.trunk u).failures else 0 }) :
    (s.trunkEntryApplied b u role).trunk u =
        (if role = .reserved then { kept with state := .idleReserved, busySince := none }
        else if s.officeUse u then { kept with state := .officeBusy, busySince := some s.clock }
        else { kept with state := .idleOffice, busySince := none }) ∧
      vget (s.trunkEntryApplied b u role).evr.records 5 = (if b.managed u = false ∧ s.debounced u .f = true
        then (vget s.evr.records 5).occur (.trunkFault u .card) else vget s.evr.records 5) := by
  have hyes : managedRole role = true := by rcases h with rfl | rfl <;> rfl
  have hfault := trunkOfRole_faulted s u h (b.managed u)
  rw [← trunkOfRole_managed s u h (b.managed u) (s.debounced u .f) kept hkept]
  have hf : kept.faulted = if b.managed u then (s.trunk u).faulted else s.debounced u .f := by rw [hkept]
  unfold State.trunkEntryApplied
  rw [reportGrantable_evr, trunk_of_trunks (reportGrantable_trunks _ _ _), hf, hyes]
  by_cases hnew : b.managed u = false ∧ s.debounced u .f = true
  · obtain ⟨hb, hd⟩ := hnew
    rw [hb] at hfault ⊢
    have hmanaged : (s.setTrunk u (s.trunkOfRole u role false)).managed u = true :=
      (congrArg managedRole hrole).trans hyes
    simp only [hd, Bool.not_false, Bool.and_self, if_true, State.cardFaultRise, hmanaged, trunk_setTrunk_same, hfault,
      Bool.false_and, raise_trunk, Bool.false_eq_true, if_false, and_self]
    exact ⟨trivial, raise_record_same _ (.trunkFault u .card)⟩
  · have hstay : ¬ (true && !b.managed u && s.debounced u .f) = true := by
      simpa using hnew
    rw [if_neg hstay, if_neg hnew, trunk_setTrunk_same]
    refine ⟨?_, rfl⟩
    have hsame : (if b.managed u = true then (s.trunk u).faulted else s.debounced u .f) =
        (s.trunkOfRole u role (b.managed u)).faulted := by
      rw [hfault]
      cases hb : b.managed u
      · simpa [hb] using hnew
      · simp
    rw [hsame]

end Sys2Proof.Machine

namespace Sys2Proof.Proofs
open Sys2Proof Sys2Proof.Machine

/-- R145: what the end of the last use of an entry with a staged write makes. -/
theorem endUse_applies {s : State} {ref : TableRef} {w : Write} (hw : s.tables.stagedWrite ref = some w)
    (hu : s.inUse ref = false) :
    (s.endUse ref).tables = s.tables.apply w ∧ (s.endUse ref).tables.stagedWrite ref = none ∧
      vget (s.endUse ref).evr.records 12 = (vget s.evr.records 12).occur (.tableApplied ref) ∧
      s.dsc.selectionsDue < (s.endUse ref).dsc.selectionsDue := by
  obtain ⟨-, hr⟩ := stagedWrite_stageable hw
  have heq : s.endUse ref = s.applyStaged w := by simp [State.endUse, hw, hu]
  have htables : (s.applyStaged w).tables = s.tables.apply w := by simp [State.applyStaged]
  rw [heq, htables]
  refine ⟨rfl, hr ▸ apply_staged s.tables w, ?_, applyStaged_due s w⟩
  rw [State.applyStaged, tellReaders_record _ _ _ (by decide), ← hr]
  exact raise_record_same _ (.tableApplied w.ref)

/-- Settles O53: a write is refused, staged or applied by `writeTable`'s branches, and `tellReaders` says what each reader of an
applied one does. -/
theorem tableWriteDecided : Obligations.TableWriteDecided := by
  refine ⟨fun s ref => ⟨fun h => ?_, fun w => endUse_applies⟩, fun s c hlow hc => ?_⟩
  · unfold State.endUse
    split
    · next w hw =>
      rcases h with h | h
      · rw [hw] at h
        cases h
      · exact if_pos h
    · rfl
  have hrun : exec .tableWrite s = .next (s.writeTable c) := run_cell hlow hc State.writeTable
  obtain ⟨hhand, hkind⟩ : s.ccp.inHand = some c ∧ c.kind = 3 := by
    unfold State.held at hc
    split at hc
    · next d hd =>
      obtain ⟨hk, hdc⟩ := by simpa using hc
      exact ⟨hdc ▸ hd, hdc ▸ hk⟩
    · cases hc
  refine ⟨fun reason hr => ?_, fun p hp => ⟨fun hu => ?_, fun hu => ?_⟩⟩
  · rw [hrun, State.writeTable, hr]
    rfl
  · rw [hrun, State.writeTable, hp]
    simp only [hu, if_true]
  obtain ⟨w, ks⟩ := p
  have happ : ∃ result detail, s.writeTable c = (s.applyWrite w).answer result detail ∧
      AnswerContent.answer 3 result detail =
        if ks = [] then .answer 3 .accepted [] else .answer 3 .clamped (maskWords ks) := by
    rw [State.writeTable, hp]
    simp only [hu, Bool.false_eq_true, if_false]
    split
    · exact ⟨_, _, rfl, rfl⟩
    · exact ⟨_, _, rfl, rfl⟩
  obtain ⟨result, detail, hwrite, hcontent⟩ := happ
  refine ⟨_, hrun, ?_⟩
  rw [hwrite, ← hcontent]
  have htables : (s.applyWrite w).tables = s.tables.apply w := by simp [State.applyWrite]
  have hccp : ((s.applyWrite w).answer result detail).ccp = _ :=
    answer_ccp (s := s.applyWrite w) (c := c) (by simpa using hhand) result detail
  have hcmu : (s.applyWrite w).cmu = _ := tellReaders_cmu _ s w
  have hmid : (({ s with tables := s.tables.apply w } : State).cause.tellOwner s w).tables = s.tables.apply w := by simp
  obtain ⟨hslot, hper⟩ := tellOwner_slot ({ s with tables := s.tables.apply w } : State).cause s w
  have hready : (s.applyWrite w).ready = (({ s with tables := s.tables.apply w } : State).cause.tellOwner s w).ready :=
    ready_of_tables (htables.trans hmid.symm)
  simp only [answer_tables, answer_dsc, answer_cmu, answer_pending, answer_resetLow, answer_clock, answer_hwi, answer_engines,
    answer_queue, answer_evr, answer_trunk, ready_of_tables (answer_tables (s.applyWrite w) result detail), htables]
  refine ⟨trivial, apply_staged _ _, apply_entryWords _ _, by rw [hccp, hkind, applyWrite_ccp],
    tellReaders_due { s with tables := s.tables.apply w } s w, tellReaders_hold _ _ _, by rw [hcmu]; exact hslot,
    applyWrite_pending _ _, applyWrite_resetLow _ _, applyWrite_clock _ _, applyWrite_hwi _ _, applyWrite_engines _ _,
    ?_, fun hw => ?_, fun hr => ?_, fun x hr hx => ?_, fun u hu => ?_, fun hw => ?_, ?_, ?_⟩
  · rintro x rfl
    rw [hcmu]
    have hsite := siteToMonitor_cmu ({ s with tables := s.tables.apply (.site x) } : State).cause x
    simp only [State.tellOwner, hsite, silenceTimerAt_eq]
    exact ⟨rfl, rfl⟩
  · rw [hcmu, tellOwner_cmu hw]
    exact ⟨rfl, rfl⟩
  · rw [hcmu]
    rw [hready] at hr
    simp only [State.periodicAfter, hr]
    split <;> rfl
  · rw [hcmu]
    rw [hready] at hr
    simp only [State.periodicAfter, hr, hmid, hx, hper, periodicTimerAt_eq]
    cases s.ready
    · simp
    · by_cases hsame : s.tables.site.map SiteRecord.periodicInterval = some x.periodicInterval <;> simp [hsame]
  · rw [State.applyWrite, tellReaders_trunk]
    cases w with
    | trunk t en => exact trunkEntryApplied_other _ _ _ fun h => hu (congrArg _ h.symm)
    | site e => exact trunk_of_trunks (siteToMonitor_trunks _ _) u
    | _ => rfl
  · refine tellReaders_queue _ _ ?_
    rintro k ce rfl
    exact hw k rfl
  · rintro k ce rfl
    rw [State.applyWrite, tellReaders_queue_class]
    simp only [beq_iff_eq, adjust_eq]
  · rintro u en rfl
    rw [State.applyWrite, tellReaders_trunk, tellReaders_evr]
    refine ⟨fun hrole => ?_, fun hrole kept hkept => ?_⟩
    · obtain ⟨htrunk, hevr⟩ := trunkEntryApplied_unmanaged
        ({ s with tables := s.tables.apply (.trunk u en) } : State).cause s u hrole
      exact ⟨htrunk, congrArg (fun v : Evr => vget v.records 5) hevr⟩
    · refine trunkEntryApplied_managed ({ s with tables := s.tables.apply (.trunk u en) } : State).cause s u hrole ?_ kept hkept
      simp [State.trunkRole, Tables.apply]

end Sys2Proof.Proofs

namespace Sys2Proof.Machine
open Sys2Proof Sys2Proof.Machine

/-! ### The fields of a write's body (R136, R182) -/

theorem packed_eq (c : InCell) (k i : Nat) : c.packed k i = c.symbolAt k i := by
  have hcases : i % 3 = 0 ∨ i % 3 = 1 ∨ i % 3 = 2 := by omega
  unfold InCell.packed InCell.symbolAt bitsOf
  rcases hcases with h | h | h <;> simp [h]

theorem symbolAt_lt (c : InCell) (k i : Nat) : c.symbolAt k i < 16 := Nat.mod_lt _ (by decide)

theorem field16_eq (c : InCell) (k : Nat) : c.field16 k = c.wide k := by simp [InCell.field16, InCell.wide, bitsOf]

theorem wide_lt (c : InCell) (k : Nat) : c.wide k < 65536 := by
  unfold InCell.wide
  omega

theorem coefficient_eq (c : InCell) (k : Nat) :
    c.coefficient k = if c.wide k < 32768 then (c.wide k : Int) else c.wide k - 65536 := by
  have hlt := wide_lt c k
  rw [InCell.coefficient, field16_eq, BitVec.toInt_eq_toNat_cond, BitVec.toNat_ofNat, Nat.mod_eq_of_lt hlt]
  by_cases h : c.wide k < 32768
  · rw [if_pos h, if_pos (by omega)]
  · rw [if_neg h, if_neg (by omega)]
    rfl

theorem clampTo_within {lo hi x : Nat} (h : lo ≤ x) (h' : x ≤ hi) : clampTo lo hi x = x := by
  unfold clampTo
  omega

theorem rangeField_within (k : Nat) {lo hi x : Nat} (h : lo ≤ x) (h' : x ≤ hi) :
    rangeField k lo hi x = ⟨k, x, false⟩ := by
  rw [rangeField, clampTo_within h h']
  simp

theorem rangeField_below (k : Nat) {lo hi x : Nat} (hle : lo ≤ hi) (h : x < lo) : rangeField k lo hi x = ⟨k, lo, true⟩ := by
  have hclamp : clampTo lo hi x = lo := by
    unfold clampTo
    omega
  have hne : (lo != x) = true := by simpa using Nat.ne_of_gt h
  rw [rangeField, hclamp, hne]

theorem rangeField_above (k : Nat) {lo hi x : Nat} (hle : lo ≤ hi) (h : hi < x) : rangeField k lo hi x = ⟨k, hi, true⟩ := by
  have hclamp : clampTo lo hi x = hi := by
    unfold clampTo
    omega
  have hne : (hi != x) = true := by simpa using Nat.ne_of_lt h
  rw [rangeField, hclamp, hne]

theorem allSome_eq_some {α : Type} {os : List (Option α)} {xs : List α} : allSome os = some xs ↔ os = xs.map some := by
  induction os generalizing xs with
  | nil => cases xs <;> simp [allSome]
  | cons o os ih =>
    cases o with
    | none => cases xs <;> simp [allSome]
    | some x =>
      cases xs with
      | nil => simp [allSome]
      | cons y ys =>
        simp only [allSome, Option.map_eq_some_iff, List.cons.injEq, ih, List.map_cons, Option.some.injEq]
        constructor
        · rintro ⟨_, h, rfl, rfl⟩
          exact ⟨rfl, h⟩
        · rintro ⟨rfl, h⟩
          exact ⟨ys, h, rfl, rfl⟩

theorem allSome_eq_none {α : Type} {os : List (Option α)} : allSome os = none ↔ none ∈ os := by
  induction os with
  | nil => simp [allSome]
  | cons o os ih =>
    cases o with
    | none => simp [allSome]
    | some x => simp [allSome, ih]

theorem finOf_eq_some {n k : Nat} {i : Fin n} : finOf n k = some i ↔ i.val = k := by
  unfold finOf
  split
  · simp [Fin.ext_iff, eq_comm]
  · have := i.isLt
    simp
    omega

theorem finOf_isNone {n k : Nat} : finOf n k = none ↔ n ≤ k := by
  unfold finOf
  split
  · simp; omega
  · simp; omega

/-- A list of references, each an index below `n` where the field names one. -/
theorem allSome_finOf {n m : Nat} (f : Nat → Nat) :
    (allSome ((List.range m).map fun i => finOf n (f i)) = none ↔ ∃ i, i < m ∧ n ≤ f i) ∧
    ∀ xs : List (Fin n), allSome ((List.range m).map fun i => finOf n (f i)) = some xs → xs.map Fin.val = (List.range m).map f := by
  refine ⟨?_, fun xs h => ?_⟩
  · simp only [allSome_eq_none, List.mem_map, List.mem_range, finOf_isNone]
  · have hget := allSome_eq_some.1 h
    refine List.ext_getElem? fun i => ?_
    have hi := congrArg (fun l => l[i]?) hget
    simp only [List.getElem?_map] at hi ⊢
    cases hr : (List.range m)[i]? with
    | none =>
      rw [hr] at hi
      cases hx : xs[i]? with
      | none => rfl
      | some x => rw [hx] at hi; simp at hi
    | some j =>
      rw [hr] at hi
      cases hx : xs[i]? with
      | none => rw [hx] at hi; simp at hi
      | some x =>
        rw [hx] at hi
        simpa using finOf_eq_some.1 (Option.some.inj hi)

/-! ### Codes (R137 to R142) -/

theorem dialSymbolOf_isNone {k : Nat} : dialSymbolOf k = none ↔ 14 ≤ k := by
  unfold dialSymbolOf
  by_cases h : k < 12
  · have hk : finOf 12 k = some ⟨k, h⟩ := dif_pos h
    simp [hk]
    omega
  · simp only [finOf_isNone.2 (Nat.not_lt.1 h)]
    split_ifs <;> simp <;> omega

theorem dialSymbolOf_eq {k : Nat} (h : k < 14) :
    dialSymbolOf k = some (if h : k < 12 then .tone ⟨k, h⟩ else if k = 12 then .pause else .wait) := by
  unfold dialSymbolOf
  by_cases h12 : k < 12
  · have hk : finOf 12 k = some ⟨k, h12⟩ := dif_pos h12
    simp [hk, h12]
  · simp only [finOf_isNone.2 (Nat.not_lt.1 h12), dif_neg h12]
    split_ifs
    · rfl
    · rfl
    · omega

theorem preemptModeOf_get (k : Nat) : preemptModeOf k = ([.none, .afterWarning, .immediate] : List PreemptMode)[k]? := by
  rcases k with _ | _ | _ | k <;> rfl

theorem preemptModeOf_isNone {k : Nat} : preemptModeOf k = none ↔ 3 ≤ k := by
  rw [preemptModeOf_get, List.getElem?_eq_none_iff]
  rfl

theorem trunkRoleOf_get (k : Nat) : trunkRoleOf k = ([.unused, .shared, .reserved, .office] : List TrunkRole)[k]? := by
  rcases k with _ | _ | _ | _ | k <;> rfl

theorem validOf_eq (k : Nat) : validOf k = if k < 2 then some (decide (k = 1)) else none := by
  rcases k with _ | _ | k
  · rfl
  · rfl
  · rw [if_neg (by omega)]
    rfl

theorem dialToneModeOf_eq (k : Nat) :
    dialToneModeOf k = if k < 2 then some (if k = 0 then .wait else .blind) else none := by
  rcases k with _ | _ | k
  · rfl
  · rfl
  · rw [if_neg (by omega)]
    rfl

/-! ### The parsers, refusal by refusal (R135, R137 to R142) -/

theorem parseSite_badLength {c : InCell} (h : c.field 2 < 4 ∨ 8 < c.field 2) : c.parseSite = .error .accountLength :=
  if_pos (by simpa using h)

theorem parseSite_badTone {c : InCell} (h4 : 4 ≤ c.field 2) (h8 : c.field 2 ≤ 8)
    (h : 16 ≤ c.field 6 ∨ 16 ≤ c.field 7 ∨ 16 ≤ c.field 8) : c.parseSite = .error .unknownReference := by
  refine (if_neg (by simp; omega)).trans ?_
  split
  · next h1 h2 h3 =>
    rw [finOf_eq_some] at h1 h2 h3
    omega
  · rfl

theorem parseSite_ok {c : InCell} (h4 : 4 ≤ c.field 2) (h8 : c.field 2 ≤ 8) (h6 : c.field 6 < 16) (h7 : c.field 7 < 16)
    (h8' : c.field 8 < 16) : ∃ en ks, c.parseSite = .ok ⟨.site en, ks⟩ ∧ c.SiteFields en ks := by
  unfold InCell.parseSite
  rw [if_neg (by simp; omega)]
  have hfin (k : Nat) (h : k < 16) : finOf 16 k = some ⟨k, h⟩ := dif_pos h
  rw [hfin _ h6, hfin _ h7, hfin _ h8']
  refine ⟨_, _, rfl, ?_⟩
  rintro on off level loop loss guard freq wOn wOff interval pEvent silence sEvent fEvent rfl rfl rfl rfl rfl rfl rfl rfl rfl
    rfl rfl rfl rfl rfl
  refine ⟨?_, rfl, rfl, rfl, rfl, rfl, rfl, field16_eq c 12, rfl, rfl, rfl, rfl, rfl, rfl, rfl, rfl, rfl, rfl, rfl,
    field16_eq c 25, rfl⟩
  rw [List.map_map]
  refine List.map_congr_left fun i _ => ?_
  simp [packed_eq, Nat.mod_eq_of_lt (symbolAt_lt c 3 i)]

theorem classLength_eq {x : Nat} (h : 0 < x) : rangeField 2 0 4 x = rangeField 2 1 4 x := by
  have hclamp : clampTo 0 4 x = clampTo 1 4 x := by
    unfold clampTo
    omega
  rw [rangeField, rangeField, hclamp]

theorem rangeField_value (k lo hi x : Nat) : (rangeField k lo hi x).value = max lo (min hi x) := rfl

theorem parseClass_decided (c : InCell) (id : ClassId) :
    (3 ≤ c.field 7 → c.parseClass id = .error .badArgument) ∧
    (c.field 7 < 3 → c.field 2 = 0 → c.parseClass id = .error .emptyRouteList) ∧
    (c.field 7 < 3 → 0 < c.field 2 →
      ((∃ i, i < min 4 (c.field 2) ∧ 8 ≤ c.field (3 + i)) → c.parseClass id = .error .unknownReference) ∧
      ((∀ i, i < min 4 (c.field 2) → c.field (3 + i) < 8) → ∃ en ks,
        c.parseClass id = .ok ⟨.cls id en, ks⟩ ∧ c.ClassFields en ks)) := by
  unfold InCell.parseClass
  refine ⟨fun h => by rw [preemptModeOf_isNone.2 h], fun h h0 => ?_, fun h hpos => ?_⟩
  all_goals
    obtain ⟨mode, hmode⟩ : ∃ mode, preemptModeOf (c.field 7) = some mode :=
      Option.isSome_iff_exists.1 (Option.isSome_iff_ne_none.2 fun hn => by have := preemptModeOf_isNone.1 hn; omega)
    rw [hmode]
  · exact if_pos (by rw [h0]; rfl)
  have hlen : (rangeField 2 0 4 (c.field 2)).value = min 4 (c.field 2) := by rw [rangeField_value]; omega
  dsimp only
  rw [if_neg (by rw [hlen]; omega), hlen]
  obtain ⟨hnone, hsome⟩ := allSome_finOf (n := 8) (m := min 4 (c.field 2)) fun i => c.field (3 + i)
  refine ⟨fun hex => by rw [hnone.2 hex], fun hall => ?_⟩
  obtain ⟨routes, hroutes⟩ : ∃ routes,
      allSome ((List.range (min 4 (c.field 2))).map fun i => finOf 8 (c.field (3 + i))) = some routes :=
    Option.isSome_iff_exists.1 (Option.isSome_iff_ne_none.2 fun hn => by
      obtain ⟨i, hi, h8⟩ := hnone.1 hn
      have := hall i hi
      omega)
  rw [hroutes]
  refine ⟨_, _, rfl, ?_⟩
  rintro length warning window base cap cycles sym rfl rfl rfl rfl rfl rfl rfl
  refine ⟨?_, ?_, rfl, rfl, rfl, rfl, rfl, ?_, ?_⟩
  · rw [← classLength_eq hpos, hlen]
    exact hsome routes hroutes
  · rw [← preemptModeOf_get, hmode]
  · have hsym : (rangeField 13 0 15 (c.field 13)).value < 16 := by rw [rangeField_value]; omega
    exact Nat.mod_eq_of_lt hsym
  · rw [classLength_eq hpos]
    rfl

theorem parseRoute_decided (c : InCell) (id : RouteId) :
    (2 ≤ c.field 2 ∨ 2 ≤ c.field 17 → c.parseRoute id = .error .badArgument) ∧
    (c.field 2 < 2 → c.field 17 < 2 →
      (c.field 3 = 0 ∨ 24 < c.field 3 ∨ (∃ i, i < c.field 3 ∧ 14 ≤ c.symbolAt 4 i) →
        c.parseRoute id = .error .invalidDialSymbol) ∧
      (0 < c.field 3 → c.field 3 ≤ 24 → (∀ i, i < c.field 3 → c.symbolAt 4 i < 14) →
        (16 ≤ c.field 12 ∨ 16 ≤ c.field 13 → c.parseRoute id = .error .unknownReference) ∧
        (c.field 12 < 16 → c.field 13 < 16 → ∃ en ks,
          c.parseRoute id = .ok ⟨.route id en, ks⟩ ∧ c.RouteFields en ks))) := by
  unfold InCell.parseRoute
  simp only [validOf_eq, dialToneModeOf_eq, packed_eq]
  refine ⟨fun h => ?_, fun h2 h17 => ?_⟩
  · rcases h with h | h
    · rw [if_neg (Nat.not_lt.2 h)]
    · rw [if_neg (c := c.field 17 < 2) (Nat.not_lt.2 h)]
      split
      · next hmode => cases hmode
      · rfl
  rw [if_pos h2, if_pos h17]
  dsimp only
  have hnone : allSome ((List.range (c.field 3)).map fun i => dialSymbolOf (c.symbolAt 4 i)) = none ↔
      ∃ i, i < c.field 3 ∧ 14 ≤ c.symbolAt 4 i := by
    simp only [allSome_eq_none, List.mem_map, List.mem_range, dialSymbolOf_isNone]
  refine ⟨fun h => ?_, fun hpos hle hall => ?_⟩
  · by_cases hlen : c.field 3 = 0 ∨ 24 < c.field 3
    · exact if_pos (by simpa using hlen)
    · have hex : ∃ i, i < c.field 3 ∧ 14 ≤ c.symbolAt 4 i := by
        rcases h with h | h | h
        · exact absurd (.inl h) hlen
        · exact absurd (.inr h) hlen
        · exact h
      rw [if_neg (by simpa using hlen), hnone.2 hex]
  rw [if_neg (by simp; omega)]
  obtain ⟨dial, hdial⟩ : ∃ dial,
      allSome ((List.range (c.field 3)).map fun i => dialSymbolOf (c.symbolAt 4 i)) = some dial :=
    Option.isSome_iff_exists.1 (Option.isSome_iff_ne_none.2 fun hn => by
      obtain ⟨i, hi, h14⟩ := hnone.1 hn
      have := hall i hi
      omega)
  rw [hdial]
  have hget := allSome_eq_some.1 hdial
  refine ⟨fun h => ?_, fun h12 h13 => ?_⟩
  · dsimp only
    split
    · next h1 h2 =>
      rw [finOf_eq_some] at h1 h2
      omega
    · rfl
  have hfin (k : Nat) (h : k < 16) : finOf 16 k = some ⟨k, h⟩ := dif_pos h
  rw [hfin _ h12, hfin _ h13]
  refine ⟨_, _, rfl, ?_⟩
  rintro blocks tries after answer ack rfl rfl rfl rfl rfl
  refine ⟨rfl, by simpa using (congrArg List.length hget).symm, fun i hi => ?_, rfl, rfl, rfl, rfl, rfl, rfl, rfl, rfl, rfl⟩
  have hi' := congrArg (fun l => l[i]?) hget
  simp only [List.getElem?_map, List.getElem?_range hi, Option.map_some, dialSymbolOf_eq (hall i hi)] at hi'
  cases hx : dial[i]? with
  | none => rw [hx] at hi'; cases hi'
  | some x => rw [hx] at hi'; exact (Option.some.inj hi').symm

theorem slotHeld_iff (x : Tables) (id : TrunkId) (slot : Nat) : x.slotHeld id slot = true ↔
    ∃ u en, u ≠ id ∧ ((vget x.trunks u).applied = some en ∨ (vget x.trunks u).staged = some en) ∧
      en.role ≠ .unused ∧ en.slot = slot := by
  simp only [Tables.slotHeld, List.any_eq_true, List.mem_finRange, true_and, Bool.and_eq_true, bne_iff_ne, List.mem_cons,
    List.not_mem_nil, or_false]
  refine exists_congr fun u => ⟨?_, ?_⟩
  · rintro ⟨hu, o, ho, hslot⟩
    cases o with
    | none => cases hslot
    | some en => exact ⟨en, hu, ho.imp Eq.symm Eq.symm, by simpa using hslot⟩
  · rintro ⟨en, hu, ho, hslot⟩
    exact ⟨hu, some en, ho.imp Eq.symm Eq.symm, by simpa using hslot⟩

theorem parseTrunk_decided (c : InCell) (x : Tables) (id : TrunkId) :
    (4 ≤ c.field 2 → c.parseTrunk x id = .error .badArgument) ∧
    (c.field 2 < 4 → ∀ taken : Prop, (taken ↔ x.slotHeld id (min 28 (c.field 3)) = true) →
      (c.field 2 ≠ 0 → taken → c.parseTrunk x id = .error .duplicateSlot) ∧
      (c.field 2 = 0 ∨ ¬taken → ∃ role,
        ([.unused, .shared, .reserved, .office] : List TrunkRole)[c.field 2]? = some role ∧
        c.parseTrunk x id = .ok ⟨.trunk id ⟨role, min 28 (c.field 3)⟩, if 28 < c.field 3 then [3] else []⟩)) := by
  unfold InCell.parseTrunk
  rw [trunkRoleOf_get]
  refine ⟨fun h => by rw [List.getElem?_eq_none (by simpa using h)], fun h taken htaken => ?_⟩
  rw [List.getElem?_eq_getElem (by simpa using h)]
  have hunused : ([.unused, .shared, .reserved, .office] : List TrunkRole)[c.field 2] = .unused ↔ c.field 2 = 0 := by
    generalize c.field 2 = n at h
    interval_cases n <;> simp
  have hslot : (rangeField 3 0 28 (c.field 3)).value = min 28 (c.field 3) := by rw [rangeField_value]; omega
  have hclamped : clampedWords [rangeField 3 0 28 (c.field 3)] = if 28 < c.field 3 then [3] else [] := by
    split_ifs with h28
    · rw [rangeField_above 3 (by decide) h28]; rfl
    · rw [rangeField_within 3 (Nat.zero_le _) (by omega)]; rfl
  dsimp only
  rw [hslot, hclamped]
  refine ⟨fun hne ht => if_pos ?_, fun hok => ⟨_, rfl, if_neg ?_⟩⟩
  · simp only [Bool.and_eq_true, bne_iff_ne]
    exact ⟨fun hu => hne (hunused.1 hu), htaken.1 ht⟩
  · simp only [Bool.and_eq_true, bne_iff_ne, not_and]
    intro hu hs
    rcases hok with h0 | hno
    · exact hu (hunused.2 h0)
    · exact hno (htaken.2 hs)

theorem parseTone_decided (c : InCell) (id : ToneId) :
    (8 ≤ c.field 13 → c.parseTone id = .error .unknownReference) ∧
    (c.field 13 < 8 → ∃ en ks, c.parseTone id = .ok ⟨.tone id en, ks⟩ ∧ c.ToneFields en ks) := by
  unfold InCell.parseTone
  refine ⟨fun h => by rw [finOf_eq_none h], fun h => ?_⟩
  have hfin : finOf 8 (c.field 13) = some ⟨c.field 13, h⟩ := dif_pos h
  rw [hfin]
  refine ⟨_, _, rfl, ?_⟩
  rintro components ratio1 ratio2 rfl rfl rfl
  simp only [coefficient_eq, field16_eq, true_and]
  rfl

/-! ### Cadence entries (R142) -/

theorem clampedWords_cons (f : NumField) (fs : List NumField) :
    clampedWords (f :: fs) = (if f.clamped then [f.word] else []) ++ clampedWords fs := by
  unfold clampedWords
  cases h : f.clamped <;> simp [h]

theorem rangeField_clamped (k lo hi x : Nat) (h : lo ≤ hi) : (rangeField k lo hi x).clamped = decide (x < lo ∨ hi < x) := by
  have hne : (rangeField k lo hi x).clamped = true ↔ x < lo ∨ hi < x := by
    simp only [rangeField, clampTo, bne_iff_ne]
    omega
  rw [Bool.eq_iff_iff, hne, decide_eq_true_iff]

theorem raiseTo_eq (lo : Nat) (x : NumField) :
    raiseTo lo x = ⟨x.word, max lo x.value, x.clamped || decide (x.value < lo)⟩ := by
  unfold raiseTo
  split_ifs with h
  · simp [h, Nat.max_eq_left h.le]
  · simp [h, Nat.max_eq_right (Nat.not_lt.1 h)]

theorem parseCadence_eq (c : InCell) (id : CadenceId) : ∃ p, c.parseCadence id = .ok p ∧
    p.write = .cadence id
      { onMin := max 1 (min 255 (c.field 2))
        onMax := max (max 1 (min 255 (c.field 2))) (max 1 (min 255 (c.field 3)))
        offMin := max 1 (min 255 (c.field 4))
        offMax := if c.field 5 = 0 then 0 else max (max 1 (min 255 (c.field 4))) (min 255 (c.field 5))
        cyclesRequired := max 1 (min 4 (c.field 6)) } ∧
    p.clamped = (if c.field 2 = 0 ∨ 255 < c.field 2 then [2] else []) ++
      (if c.field 3 = 0 ∨ 255 < c.field 3 ∨ c.field 3 < min 255 (c.field 2) then [3] else []) ++
      (if c.field 4 = 0 ∨ 255 < c.field 4 then [4] else []) ++
      (if 255 < c.field 5 ∨ c.field 5 ≠ 0 ∧ c.field 5 < min 255 (c.field 4) then [5] else []) ++
      (if c.field 6 = 0 ∨ 4 < c.field 6 then [6] else []) := by
  have hoff : (rangeField 5 0 255 (c.field 5)).value = min 255 (c.field 5) := by rw [rangeField_value]; omega
  have hmax : (if (rangeField 5 0 255 (c.field 5)).value = 0 then rangeField 5 0 255 (c.field 5)
      else raiseTo (rangeField 4 1 255 (c.field 4)).value (rangeField 5 0 255 (c.field 5))) =
      ⟨5, if c.field 5 = 0 then 0 else max (max 1 (min 255 (c.field 4))) (min 255 (c.field 5)),
        decide (255 < c.field 5 ∨ c.field 5 ≠ 0 ∧ c.field 5 < min 255 (c.field 4))⟩ := by
    have hc := rangeField_clamped 5 0 255 (c.field 5) (by decide)
    by_cases h0 : c.field 5 = 0
    · rw [h0]
      rfl
    · rw [if_neg (by rw [hoff]; omega), raiseTo_eq, hoff, hc, rangeField_value, if_neg h0, NumField.mk.injEq,
        ← Bool.decide_or, decide_eq_decide]
      exact ⟨rfl, rfl, by omega⟩
  have hword (k lo hi x : Nat) : (rangeField k lo hi x).word = k := rfl
  have hnil : clampedWords [] = [] := rfl
  have hraised (x y : Nat) : (y = 0 ∨ 255 < y) ∨ max 1 (min 255 y) < max 1 (min 255 x) ↔
      y = 0 ∨ 255 < y ∨ y < min 255 x := by omega
  unfold InCell.parseCadence
  dsimp only
  rw [hmax]
  refine ⟨_, rfl, ?_, ?_⟩
  · simp only [raiseTo_eq, rangeField_value]
  · simp only [clampedWords_cons, raiseTo_eq, Bool.or_eq_true, decide_eq_true_eq]
    simp only [rangeField_value, rangeField_clamped _ _ _ _ (by decide : 1 ≤ 255),
      rangeField_clamped _ _ _ _ (by decide : 1 ≤ 4), hword, hnil, decide_eq_true_eq, Nat.lt_one_iff,
      hraised, List.append_nil, List.append_assoc]

/-! ### Addresses (R182) -/

theorem addressRef_eq_none (w : Word) : addressRef w = none ↔
    6 ≤ w.toNat / 256 % 8 ∨ w.toNat / 256 % 8 = 0 ∧ w.toNat % 16 ≠ 0 ∨ w.toNat / 256 % 8 = 1 ∧ 6 ≤ w.toNat % 16 ∨
      (w.toNat / 256 % 8 = 2 ∨ w.toNat / 256 % 8 = 3 ∨ w.toNat / 256 % 8 = 5) ∧ 8 ≤ w.toNat % 16 := by
  have htable : addressTable w = w.toNat / 256 % 8 := rfl
  have hentry : bitsOf w 3 0 = w.toNat % 16 := by simp [bitsOf]
  have hlt : w.toNat % 16 < 16 := Nat.mod_lt _ (by decide)
  simp only [addressRef, htable, hentry]
  generalize w.toNat / 256 % 8 = t
  generalize w.toNat % 16 = n at hlt ⊢
  rcases t with _ | _ | _ | _ | _ | _ | t
  all_goals simp only [Option.map_eq_none_iff, finOf_isNone, ite_eq_right_iff, reduceCtorEq, imp_false, true_iff,
    true_and, false_and, true_or, or_true, or_false, false_or]
  all_goals omega

end Sys2Proof.Machine

namespace Sys2Proof.Proofs
open Sys2Proof Sys2Proof.Machine

/-- Settles O54: the fields one by one, then each table's parser in the order of its refusals. -/
theorem writtenFieldsClamped : Obligations.WrittenFieldsClamped := by
  refine ⟨fun k lo hi x hle => ⟨rangeField_within k, rangeField_below k hle, rangeField_above k hle⟩,
    fun k lo hi d x => ⟨rfl, fun hx => if_neg hx⟩, parseCadence_eq, addressRef_eq_none, fun x c =>
    ⟨fun h => ?_, fun h => ?_, fun id h => ?_, fun id h symbol hsym => ?_, fun id h => ?_, fun id h => ?_, fun id h => ?_⟩⟩
  all_goals rw [InCell.parseWrite, h]
  · exact ⟨parseSite_badLength, fun h4 h8 => ⟨parseSite_badTone h4 h8, parseSite_ok h4 h8⟩⟩
  · exact parseClass_decided c id
  · have hsymbol : symbol = c.symbolAt 4 := funext hsym
    subst hsymbol
    exact parseRoute_decided c id
  · obtain ⟨hbad, hgood⟩ := parseTrunk_decided c x id
    exact ⟨hbad, fun h4 taken ht => hgood h4 taken (ht.trans (slotHeld_iff x id _).symm)⟩
  · exact parseTone_decided c id

end Sys2Proof.Proofs

namespace Sys2Proof.Machine
open Sys2Proof Sys2Proof.Machine

/-! ### The grant order (R102 to R105) -/

theorem managed_iff (s : State) (u : TrunkId) :
    s.managed u = true ↔ s.trunkRole u = .shared ∨ s.trunkRole u = .reserved := by
  unfold State.managed
  cases s.trunkRole u <;> simp [managedRole]

theorem ringRecently_iff (s : State) (u : TrunkId) : s.ringRecently u = true ↔
    s.debounced u .g = true ∨ (s.trunk u).ringTimer ≠ none ∨ (⟨u, .g, false⟩ : Delivery) ∈ s.hwi.deliveries := by
  simp [State.ringRecently, State.ringFallWaits, Option.isSome_iff_ne_none, or_assoc]

theorem grantable_iff (s : State) (mode : PreemptMode) (u : TrunkId) : s.grantable mode u = true ↔
    s.managed u = true ∧ (s.trunk u).barred = false ∧ (s.trunk u).faulted = false ∧
      ((s.trunk u).state = .idleReserved ∧ s.ringRecently u = false ∨ (s.trunk u).state = .idleOffice ∨
        (s.trunk u).state = .officeBusy ∧ mode ≠ .none) := by
  unfold State.grantable
  cases (s.trunk u).state <;> simp [and_assoc]

theorem lineTestGrantable_iff (s : State) (u : TrunkId) : s.lineTestGrantable u = true ↔
    s.managed u = true ∧
      ((s.trunk u).state = .idleReserved ∧ s.ringRecently u = false ∨ (s.trunk u).state = .idleOffice) := by
  unfold State.lineTestGrantable
  cases (s.trunk u).state <;> simp

/-- The first of the trunks of a list in order is the lowest. -/
theorem find?_lowest {us : List TrunkId} (hus : us.Pairwise (· < ·)) {p : TrunkId → Bool} {u : TrunkId}
    (h : us.find? p = some u) : p u = true ∧ ∀ w ∈ us, p w = true → u ≤ w := by
  obtain ⟨hp, before, after, rfl, hbefore⟩ := List.find?_eq_some_iff_append.1 h
  refine ⟨hp, fun w hw hpw => ?_⟩
  rcases List.mem_append.1 hw with hw | hw
  · simpa [hpw] using hbefore w hw
  · rcases List.mem_cons.1 hw with rfl | hw
    · exact le_refl w
    · exact le_of_lt ((List.pairwise_cons.1 (List.pairwise_append.1 hus).2.1).1 w hw)

/-- R103, step 3: longer in office use, the lower of equals. -/
def State.BusyFirst (s : State) (u w : TrunkId) : Prop :=
  (s.trunk u).busySince.getD 0 < (s.trunk w).busySince.getD 0 ∨
    (s.trunk u).busySince.getD 0 = (s.trunk w).busySince.getD 0 ∧ u ≤ w

theorem earliestBusy_eq_none {s : State} {us : List TrunkId} : s.earliestBusy us = none ↔ us = [] := by
  cases us with
  | nil => simp [State.earliestBusy]
  | cons t ts =>
    simp only [State.earliestBusy, reduceCtorEq, iff_false]
    split
    · nofun
    · split <;> nofun

theorem earliestBusy_first {s : State} {us : List TrunkId} (hus : us.Pairwise (· < ·)) {u : TrunkId}
    (h : s.earliestBusy us = some u) : ∀ w ∈ us, s.BusyFirst u w := by
  induction us generalizing u with
  | nil => cases h
  | cons t ts ih =>
    obtain ⟨ht, hts⟩ := List.pairwise_cons.1 hus
    unfold State.earliestBusy at h
    intro w hw
    split at h
    · next hnone =>
      obtain rfl := Option.some.inj h
      rw [earliestBusy_eq_none.1 hnone, List.mem_singleton] at hw
      exact .inr ⟨by rw [hw], hw ▸ le_refl _⟩
    · next v hv =>
      have hfirst := ih hts hv
      unfold State.BusyFirst at hfirst ⊢
      split at h
      · next hlt =>
        obtain rfl := Option.some.inj h
        rcases List.mem_cons.1 hw with rfl | hw
        · exact .inl hlt
        · exact hfirst w hw
      · next hge =>
        obtain rfl := Option.some.inj h
        rcases List.mem_cons.1 hw with rfl | hw
        · exact .inr ⟨rfl, le_refl _⟩
        · have hle : (s.trunk v).busySince.getD 0 ≤ (s.trunk w).busySince.getD 0 :=
            (hfirst w hw).elim le_of_lt fun h => h.1.le
          exact (Nat.lt_or_eq_of_le ((not_lt.1 hge).trans hle)).imp id fun heq => ⟨heq, (ht w hw).le⟩

/-- R103: which trunk is granted, by the state it is in. -/
theorem chooseTrunk_order {s : State} {mode : PreemptMode} {u : TrunkId} (h : s.chooseTrunk mode = some u) :
    ((s.trunk u).state = .idleReserved → ∀ w, s.grantable mode w = true → (s.trunk w).state = .idleReserved → u ≤ w) ∧
    ((s.trunk u).state = .idleOffice → ∀ w, s.grantable mode w = true →
      (s.trunk w).state ≠ .idleReserved ∧ ((s.trunk w).state = .idleOffice → u ≤ w)) ∧
    ((s.trunk u).state = .officeBusy → ∀ w, s.grantable mode w = true →
      (s.trunk w).state = .officeBusy ∧ s.BusyFirst u w) := by
  have hfree (w : TrunkId) : w ∈ (List.finRange 8).filter (s.grantable mode) ↔ s.grantable mode w = true := by simp
  have hsorted : ((List.finRange 8).filter (s.grantable mode)).Pairwise (· < ·) := (List.pairwise_lt_finRange 8).filter _
  have hnone {st : TrunkState} {w : TrunkId} (hw : s.grantable mode w = true)
      (hf : ((List.finRange 8).filter (s.grantable mode)).find? (fun t => (s.trunk t).state == st) = none) :
      (s.trunk w).state ≠ st := by simpa using List.find?_eq_none.1 hf w ((hfree w).2 hw)
  unfold State.chooseTrunk at h
  dsimp only at h
  split at h
  · next hf =>
    obtain rfl := Option.some.inj h
    obtain ⟨hst, hlow⟩ := find?_lowest hsorted hf
    have hst := beq_iff_eq.1 hst
    exact ⟨fun _ w hw hr => hlow w ((hfree w).2 hw) (beq_iff_eq.2 hr), fun hs => by simp [hst] at hs,
      fun hs => by simp [hst] at hs⟩
  next hres =>
  split at h
  · next hf =>
    obtain rfl := Option.some.inj h
    obtain ⟨hst, hlow⟩ := find?_lowest hsorted hf
    have hst := beq_iff_eq.1 hst
    exact ⟨fun hs => by simp [hst] at hs, fun _ w hw => ⟨hnone hw hres, fun ho =>
      hlow w ((hfree w).2 hw) (beq_iff_eq.2 ho)⟩, fun hs => by simp [hst] at hs⟩
  next hoff =>
  have hst : (s.trunk u).state = .officeBusy := by simpa using (List.mem_filter.1 (earliestBusy_mem s h)).2
  refine ⟨fun hs => by simp [hst] at hs, fun hs => by simp [hst] at hs, fun _ w hw => ?_⟩
  have hbusy : (s.trunk w).state = .officeBusy := by
    rcases (open_of_grantable hw).1 with hs | hs | hs
    · exact absurd hs (hnone hw hres)
    · exact absurd hs (hnone hw hoff)
    · exact hs
  exact ⟨hbusy, earliestBusy_first (hsorted.filter _) h w (List.mem_filter.2 ⟨(hfree w).2 hw, by simp [hbusy]⟩)⟩

theorem chooseTrunk_eq_none {s : State} {mode : PreemptMode} :
    s.chooseTrunk mode = none ↔ ∀ u, s.grantable mode u = false := by
  have hfree (w : TrunkId) : w ∈ (List.finRange 8).filter (s.grantable mode) ↔ s.grantable mode w = true := by simp
  constructor
  · intro h u
    by_contra hu
    have hu : s.grantable mode u = true := by simpa using hu
    unfold State.chooseTrunk at h
    dsimp only at h
    split at h
    · cases h
    next hres =>
    split at h
    · cases h
    next hoff =>
    have hbusy := List.filter_eq_nil_iff.1 (earliestBusy_eq_none.1 h) u ((hfree u).2 hu)
    have hr := List.find?_eq_none.1 hres u ((hfree u).2 hu)
    have ho := List.find?_eq_none.1 hoff u ((hfree u).2 hu)
    rcases (open_of_grantable hu).1 with hs | hs | hs
    · simp [hs] at hr
    · simp [hs] at ho
    · simp [hs] at hbusy
  · intro h
    rw [Option.eq_none_iff_forall_ne_some]
    intro u hu
    exact absurd (chooseTrunk_grantable hu) (by simp [h u])

/-! ### What a grant makes of the trunk (R105, R106) -/

theorem grantTrunk_free {s : State} {u : TrunkId} (h : (s.trunk u).state ≠ .officeBusy) (e : EngineId) (mode : PreemptMode)
    (sec : Nat) (cls : ClassId) : s.grantTrunk u e mode sec cls = s.setTrunk u { s.trunk u with
      state := .taken, busySince := none, warnTimer := none, holder := some e } := by
  have hx : (s.trunk u).grant e mode sec = { (s.trunk u).enterTaken with holder := some e } := if_neg (by simp [h])
  unfold State.grantTrunk
  rw [hx, if_neg h]
  rfl

theorem grantTrunk_warned {s : State} {u : TrunkId} (h : (s.trunk u).state = .officeBusy) (e : EngineId) {sec : Nat}
    (hsec : 0 < sec) (cls : ClassId) : s.grantTrunk u e .afterWarning sec cls =
      (({ s with hwi := { s.hwi with warnings := vput s.hwi.warnings u .stopped } } : State).setTrunk u
        { s.trunk u with state := .warning, holder := some e, warnTimer := some (sec * 100) }).raise
        (.officePreempted u cls) := by
  have hx : (s.trunk u).grant e .afterWarning sec =
      { s.trunk u with state := .warning, holder := some e, warnTimer := some (ticksOfSeconds sec) } :=
    if_pos (by simp [h, hsec])
  unfold State.grantTrunk
  rw [hx, if_pos h]
  rfl

theorem grantTrunk_atOnce {s : State} {u : TrunkId} (h : (s.trunk u).state = .officeBusy) (e : EngineId) {mode : PreemptMode}
    {sec : Nat} (hm : mode ≠ .afterWarning ∨ sec = 0) (cls : ClassId) : s.grantTrunk u e mode sec cls =
      (s.setTrunk u { s.trunk u with state := .taken, busySince := none, warnTimer := none, holder := some e }).raise
        (.officePreempted u cls) := by
  have hx : (s.trunk u).grant e mode sec = { (s.trunk u).enterTaken with holder := some e } := if_neg <| by
    rcases hm with hm | hm <;> simp [hm]
  unfold State.grantTrunk
  rw [hx, if_pos h]
  rfl

end Sys2Proof.Machine

namespace Sys2Proof.Proofs
open Sys2Proof Sys2Proof.Machine

/-- Settles O30. -/
theorem grantOrder : Obligations.GrantOrder := by
  refine ⟨fun s u ring hring => ⟨fun mode => ?_, ?_⟩, fun s mode => ⟨chooseTrunk_eq_none, fun u hu =>
    ⟨chooseTrunk_grantable hu, chooseTrunk_order hu⟩⟩, fun s u e mode sec cls => ⟨fun h => grantTrunk_free h e mode sec cls,
      fun h hm hsec => ?_, fun h hm => grantTrunk_atOnce h e hm cls⟩⟩
  · have hno : s.ringRecently u = false ↔ ¬ring := by rw [hring, ← ringRecently_iff, Bool.not_eq_true]
    rw [grantable_iff, managed_iff, hno]
  · have hno : s.ringRecently u = false ↔ ¬ring := by rw [hring, ← ringRecently_iff, Bool.not_eq_true]
    rw [lineTestGrantable_iff, managed_iff, hno]
  · subst hm
    exact grantTrunk_warned h e hsec cls

end Sys2Proof.Proofs

namespace Sys2Proof.Machine
open Sys2Proof Sys2Proof.Machine

/-! ### Walking the queue (R29, R38) -/

theorem findRecord_of_nodup {s : State} (hn : (s.queue.map Record.handle).Nodup) {r : Record} (hr : r ∈ s.queue) :
    s.findRecord r.handle = some r :=
  find?_of_unique hr (by simp) fun x hx hp => List.inj_on_of_nodup_map hn hx hr (beq_iff_eq.1 hp)

theorem placeOnRoute_eq_none {s : State} {h : Handle} (hn : ∀ r, s.findRecord h = some r → r.state ≠ .waiting) :
    s.placeOnRoute h = none := by
  unfold State.placeOnRoute
  split
  · next r hr => exact if_neg (hn r hr)
  · rfl

theorem moveTo_same (r : Record) : r.moveTo r.routePos = r := if_pos rfl

/-- A record whose own position has a valid route stands there. -/
theorem routeFrom_current {s : State} {r : Record} {ce : ClassEntry} {rt : RouteId} (hce : s.classEntry r.cls = some ce)
    (hrt : ce.routes[r.routePos]? = some rt) (hv : s.routeValid rt = true) : s.routeFrom r = some (r.routePos, rt) := by
  obtain ⟨hlt, -⟩ := List.getElem?_eq_some_iff.1 hrt
  have hdrop : (List.range ce.routes.length).drop r.routePos =
      r.routePos :: (List.range ce.routes.length).drop (r.routePos + 1) := by
    rw [List.drop_eq_getElem_cons (by simpa using hlt), List.getElem_range]
  simp [State.routeFrom, hce, searchOrder, hdrop, hrt, hv]

theorem placeOnRoute_of_waiting {s : State} {h : Handle} {r : Record} {p : Nat} {rt : RouteId} (hr : s.findRecord h = some r)
    (hw : r.state = .waiting) (hp : s.routeFrom r = some (p, rt)) :
    s.placeOnRoute h = some (s.updateRecord h (Record.moveTo · p), r.moveTo p, rt) := by
  simp [State.placeOnRoute, hr, hw, hp]

theorem updateRecord_of_found {s : State} (hn : (s.queue.map Record.handle).Nodup) {r : Record} (hr : r ∈ s.queue)
    {f : Record → Record} (hf : f r = r) : s.updateRecord r.handle f = s := by
  have hq : s.queue.map (fun x => if x.handle == r.handle then f x else x) = s.queue := by
    conv_rhs => rw [← List.map_id s.queue]
    refine List.map_congr_left fun x hx => ?_
    by_cases hxr : x.handle = r.handle
    · obtain rfl := List.inj_on_of_nodup_map hn hx hr hxr
      simpa using hf
    · simp [hxr]
  rw [State.updateRecord, hq]

/-! ### The check and its mark (R38, R39) -/

theorem urgentWaits_skip {s : State} (refused : List Handle) {hs : List Handle} (h : ∀ g ∈ hs, s.placeOnRoute g = none)
    (rest : List Handle) : s.urgentWaits refused (hs ++ rest) = s.urgentWaits refused rest := by
  induction hs with
  | nil => rfl
  | cons g hs ih =>
    rw [List.cons_append, State.urgentWaits, h g (.head _)]
    exact ih fun k hk => h k (.tail _ hk)

theorem urgentWaits_none_waiting {s : State} (refused : List Handle) (h : ∀ r ∈ s.queue, r.state ≠ .waiting) :
    s.urgentWaits refused (s.queue.map Record.handle) = (s, false) := by
  have hskip := urgentWaits_skip (s := s) refused (hs := s.queue.map Record.handle)
    (fun g _ => placeOnRoute_eq_none fun r hr => h r (findRecord_mem hr)) []
  rwa [List.append_nil] at hskip

/-- A check is made only with both engines busy, no call marked, and selections allowed. -/
theorem preemptCheck_not_made {s : State} (refused : List Handle)
    (h : s.firstIdle.isSome = true ∨ s.dsc.marked.isSome = true ∨ s.dsc.hold.isSome = true ∨ s.ready = false ∨
      s.inSync = false) : s.preemptCheck refused = s := by
  refine if_neg fun hp => ?_
  simp only [Bool.and_eq_true, State.mayDispatch, Option.isNone_iff_eq_none] at hp
  obtain ⟨⟨⟨⟨hhold, hready⟩, hsync⟩, hidle⟩, hmark⟩ := hp
  rcases h with h | h | h | h | h <;> simp_all

theorem preemptCheck_none_waiting {s : State} (refused : List Handle) (h : ∀ r ∈ s.queue, r.state ≠ .waiting) :
    s.preemptCheck refused = s := by
  unfold State.preemptCheck
  split
  · split
    · rfl
    · rw [urgentWaits_none_waiting refused h]
      rfl
  · rfl

theorem leastUrgent_pair {s : State} {a b : EngineId} {x y : Nat} (ha : s.headClass a = some x) (hb : s.headClass b = some y) :
    s.leastUrgent [a, b] = some (if y < x then (a, x) else (b, y)) := by
  simp only [State.leastUrgent, ha, hb]
  split <;> rfl

theorem moreUrgent_of_pair {s : State} {a b : EngineId} (hab : a ≠ b) {x y : Nat} (ha : s.headClass a = some x)
    (hb : s.headClass b = some y) {c : ClassId} (hx : c.val < x) (hy : c.val < y) : s.moreUrgent c = true := by
  refine List.all_eq_true.2 fun e _ => ?_
  have he : e = a ∨ e = b := by cases a <;> cases b <;> cases e <;> simp_all
  rcases he with rfl | rfl
  · simp [ha, hx]
  · simp [hb, hy]

/-- The first WAITING record waits for a free route and is more urgent than both calls. -/
structure State.UrgentFirst (s : State) (a b : EngineId) (x y : Nat) : Prop where
  order : s.dsc.startOrder = [a, b]
  distinct : a ≠ b
  headA : s.headClass a = some x
  headB : s.headClass b = some y
  nodup : (s.queue.map Record.handle).Nodup
  first : ∃ pre r post ce rt, s.queue = pre ++ r :: post ∧ (∀ z ∈ pre, z.state ≠ .waiting) ∧ r.state = .waiting ∧
    s.classEntry r.cls = some ce ∧ ce.routes[r.routePos]? = some rt ∧ s.routeValid rt = true ∧ s.callOn rt = none ∧
    r.cls.val < x ∧ r.cls.val < y

theorem urgentWaits_of_urgent {s : State} {a b : EngineId} {x y : Nat} (h : s.UrgentFirst a b x y) :
    s.urgentWaits [] (s.queue.map Record.handle) = (s, true) := by
  obtain ⟨-, hab, ha, hb, hn, pre, r, post, ce, rt, hq, hpre, hw, hce, hrt, hv, hcall, hx, hy⟩ := h
  have hr : r ∈ s.queue := by rw [hq]; simp
  have hskip (g : Handle) (hg : g ∈ pre.map Record.handle) : s.placeOnRoute g = none := by
    obtain ⟨z, hz, rfl⟩ := List.mem_map.1 hg
    have hzq : z ∈ s.queue := by rw [hq]; simp [hz]
    refine placeOnRoute_eq_none fun z' hz' => ?_
    obtain rfl := Option.some.inj ((findRecord_of_nodup hn hzq).symm.trans hz')
    exact hpre z hz
  have hplace := placeOnRoute_of_waiting (findRecord_of_nodup hn hr) hw (routeFrom_current hce hrt hv)
  rw [moveTo_same, updateRecord_of_found hn hr (moveTo_same r)] at hplace
  have hlist : s.queue.map Record.handle = pre.map Record.handle ++ r.handle :: post.map Record.handle := by rw [hq]; simp
  rw [hlist, urgentWaits_skip [] hskip, State.urgentWaits, hplace]
  simp only [hcall, moreUrgent_of_pair hab ha hb hx hy]
  rfl

theorem preemptCheck_marks {s : State} {a b : EngineId} {x y : Nat} (hd : s.mayDispatch = true) (hidle : s.firstIdle = none)
    (hmark : s.dsc.marked = none) (h : s.UrgentFirst a b x y) :
    s.preemptCheck [] = s.markCall (if y < x then a else b) := by
  have hleast := leastUrgent_pair h.headA h.headB
  rw [← h.order] at hleast
  unfold State.preemptCheck
  rw [if_pos (by simp [hd, hidle, hmark]), hleast]
  dsimp only
  rw [urgentWaits_of_urgent h, if_pos rfl, apply_ite Prod.fst]

theorem markCall_eq (s : State) (m : EngineId) : s.markCall m =
    ({ s with dsc := { s.dsc with marked := some m } } : State).setEngine m { s.engine m with
      work := (s.engine m).work.mapCall fun c => { c with preempt := true } } := by
  cases m <;> rfl

/-! ### A selection (R28) -/

theorem exec_selection {s : State} (hlow : s.resetLow = false) : exec .selection s = .next s.selectionStep :=
  running_live State.selectionStep hlow

/-- The state in which a selection that is due is made. -/
def State.selecting (s : State) : State := { s with dsc := { s.dsc with selectionsDue := s.dsc.selectionsDue - 1 } }

theorem selectionStep_due {s : State} (h : s.dsc.selectionsDue ≠ 0) :
    s.selectionStep = s.selecting.select.1.preemptCheck s.selecting.select.2 := if_neg h

theorem select_not_made {s : State} (h : s.mayDispatch = false ∨ s.firstIdle = none) : s.select = (s, []) :=
  if_neg (by rcases h with h | h <;> simp [h])

end Sys2Proof.Machine

namespace Sys2Proof.Proofs
open Sys2Proof Sys2Proof.Machine

/-- Settles O50: with both engines busy the selection makes the check alone. -/
theorem preemptionMarks : Obligations.PreemptionMarks := by
  rintro s a b x y pre post r ce rt hlow hdue hhold hready hsync hidle hmark horder hab ha hb hn hq hpre hw hce hrt hv hcall
    hx hy m rfl
  have hurgent : s.selecting.UrgentFirst a b x y :=
    ⟨horder, hab, ha, hb, hn, pre, r, post, ce, rt, hq, hpre, hw, hce, hrt, hv, hcall, hx, hy⟩
  have hmay : s.selecting.mayDispatch = true := by
    have hd : s.selecting.mayDispatch = (s.dsc.hold.isNone && s.ready && s.inSync) := rfl
    simp [hd, hhold, hready, hsync]
  rw [exec_selection hlow, selectionStep_due hdue, select_not_made (s := s.selecting) (.inr hidle), preemptCheck_marks hmay hidle hmark hurgent,
    markCall_eq]
  rfl

end Sys2Proof.Proofs

namespace Sys2Proof.Machine
open Sys2Proof Sys2Proof.Machine

/-! ### Words that carry numbers (R182) -/

theorem flagBit_eq (b : Bool) (k : Nat) : flagBit b k = if b then 2 ^ k else 0 := rfl

theorem bitsOf_wordOf {n : Nat} (h : n < 32768) : bitsOf (wordOf n) 14 0 = n := by
  simp only [bitsOf, wordOf, BitVec.toNat_ofNat]
  norm_num
  omega

theorem field_of_word {c : InCell} {k n : Nat} (hw : c.word k = wordOf n) (h : n < 32768) : c.field k = n := by
  rw [InCell.field, hw, bitsOf_wordOf h]

theorem field16_of_words {c : InCell} {k n : Nat} (hw : c.word k = wordOf (n / 256 % 256))
    (hw' : c.word (k + 1) = wordOf (n % 256)) (h : n < 65536) : c.field16 k = n := by
  rw [InCell.field16, hw, hw']
  simp only [bitsOf, wordOf, BitVec.toNat_ofNat]
  norm_num
  omega

theorem coefficient_of_words {c : InCell} {k : Nat} {x : Int}
    (hw : c.word k = wordOf ((BitVec.ofInt 16 x).toNat / 256 % 256)) (hw' : c.word (k + 1) = wordOf ((BitVec.ofInt 16 x).toNat % 256))
    (hlo : -32768 ≤ x) (hhi : x ≤ 32767) : c.coefficient k = x := by
  rw [InCell.coefficient, field16_of_words hw hw' (BitVec.ofInt 16 x).isLt, BitVec.ofNat_toNat, BitVec.setWidth_eq,
    BitVec.toInt_ofInt, Int.bmod_eq_of_le (by norm_num; omega) (by norm_num; omega)]

/-- R182: symbols packed three to a word are read back. -/
theorem symbolAt_packed {c : InCell} {k n : Nat} {symbols : List Nat} (hs : ∀ x ∈ symbols, x < 16)
    (hw : ∀ j, j < n → c.word (k + j) = wordOf (symbols.getD (3 * j) 0 * 256 + symbols.getD (3 * j + 1) 0 * 16 +
      symbols.getD (3 * j + 2) 0)) {i : Nat} (hi : i / 3 < n) : c.symbolAt k i = symbols.getD i 0 := by
  have hlt (m : Nat) : symbols.getD m 0 < 16 := by
    rw [List.getD_eq_getElem?_getD]
    cases hm : symbols[m]? with
    | none => simp
    | some x => exact hs x (List.mem_of_getElem? hm)
  have h0 := hlt (3 * (i / 3))
  have h1 := hlt (3 * (i / 3) + 1)
  have h2 := hlt (3 * (i / 3) + 2)
  have hcases : i = 3 * (i / 3) ∧ i % 3 = 0 ∨ i = 3 * (i / 3) + 1 ∧ i % 3 = 1 ∨ i = 3 * (i / 3) + 2 ∧ i % 3 = 2 := by omega
  rw [InCell.symbolAt, hw _ hi, wordOf, BitVec.toNat_ofNat]
  rcases hcases with ⟨heq, hm⟩ | ⟨heq, hm⟩ | ⟨heq, hm⟩
  all_goals
    rw [hm]
    conv_rhs => rw [heq]
    generalize symbols.getD (3 * (i / 3)) 0 = a at h0 ⊢
    generalize symbols.getD (3 * (i / 3) + 1) 0 = b at h1 ⊢
    generalize symbols.getD (3 * (i / 3) + 2) 0 = d at h2 ⊢
    norm_num
    omega

theorem rangeFields_kept {x lo hi : Nat} (k : Nat) (h : within lo hi x = true) : rangeField k lo hi x = ⟨k, x, false⟩ := by
  simp only [within, Bool.and_eq_true, decide_eq_true_eq] at h
  exact rangeField_within k h.1 h.2

theorem defaultField_kept {x lo hi : Nat} (k d : Nat) (hpos : 0 < lo) (h : within lo hi x = true) :
    defaultField k lo hi d x = ⟨k, x, false⟩ := by
  have hx : x ≠ 0 := by
    simp only [within, Bool.and_eq_true, decide_eq_true_eq] at h
    omega
  rw [defaultField, if_neg hx, rangeFields_kept k h]

theorem lt_of_within {x lo hi n : Nat} (h : within lo hi x = true) (hn : hi < n) : x < n := by
  simp only [within, Bool.and_eq_true, decide_eq_true_eq] at h
  omega

theorem clampedWords_unclamped {fs : List NumField} (h : ∀ f ∈ fs, f.clamped = false) : clampedWords fs = [] := by
  rw [clampedWords, List.filter_eq_nil_iff.2 fun f hf => by simp [h f hf], List.map_nil]

/-! ### The cell that a read answers (R146) -/

/-- The write that carries an entry's words under its addressing word. -/
def readCell (header : Word) (x : Tables) (ref : TableRef) : InCell := ⟨header, x.tableBody ref⟩

theorem address_lt (ref : TableRef) : ref.address < 2048 := by
  cases ref with
  | site => decide
  | _ k => have := k.isLt; simp only [TableRef.address]; omega

theorem addressRef_read (header : Word) (x : Tables) (ref : TableRef) : addressRef ((readCell header x ref).word 1) = some ref := by
  have hword : (readCell header x ref).word 1 =
      wordOf (flagBit (x.entryWords ref).isSome 15 + flagBit (x.stagedWrite ref).isSome 14 + ref.address) := rfl
  have hflags (a b : Bool) : ∃ m, flagBit a 15 + flagBit b 14 = m * 16384 ∧ m < 4 := by
    cases a <;> cases b
    · exact ⟨0, rfl, by decide⟩
    · exact ⟨1, rfl, by decide⟩
    · exact ⟨2, rfl, by decide⟩
    · exact ⟨3, rfl, by decide⟩
  obtain ⟨m, hm, hlt⟩ := hflags (x.entryWords ref).isSome (x.stagedWrite ref).isSome
  rw [hword, hm]
  have hnat : (wordOf (m * 16384 + ref.address)).toNat = m * 16384 + ref.address := by
    have := address_lt ref
    rw [wordOf, BitVec.toNat_ofNat, Nat.mod_eq_of_lt (by omega)]
  have htable : addressTable (wordOf (m * 16384 + ref.address)) = ref.address / 256 := by
    have := address_lt ref
    simp only [addressTable, bitsOf, hnat]
    norm_num
    omega
  have hentry : bitsOf (wordOf (m * 16384 + ref.address)) 3 0 = ref.address % 16 := by
    simp only [bitsOf, hnat]
    norm_num
    omega
  have hplace {n : Nat} (k : Fin n) (t : Nat) (hn : n ≤ 16) :
      (t * 256 + k.val) / 256 = t ∧ (t * 256 + k.val) % 16 = k.val := by
    have := k.isLt
    omega
  simp only [addressRef, htable, hentry]
  cases ref with
  | site => rfl
  | cls k =>
    obtain ⟨h1, h2⟩ := hplace k 1 (by decide)
    simp only [show (TableRef.cls k).address = 1 * 256 + k.val from rfl, h1, h2, finOf_val, Option.map_some]
  | route k =>
    obtain ⟨h1, h2⟩ := hplace k 2 (by decide)
    simp only [show (TableRef.route k).address = 2 * 256 + k.val from rfl, h1, h2, finOf_val, Option.map_some]
  | trunk k =>
    obtain ⟨h1, h2⟩ := hplace k 3 (by decide)
    simp only [show (TableRef.trunk k).address = 3 * 256 + k.val from rfl, h1, h2, finOf_val, Option.map_some]
  | tone k =>
    obtain ⟨h1, h2⟩ := hplace k 4 (by decide)
    simp only [show (TableRef.tone k).address = 4 * 256 + k.val from rfl, h1, h2, finOf_val, Option.map_some]
  | cadence k =>
    obtain ⟨h1, h2⟩ := hplace k 5 (by decide)
    simp only [show (TableRef.cadence k).address = 5 * 256 + k.val from rfl, h1, h2, finOf_val, Option.map_some]

/-- The body of a loaded entry's read: the entry's words from body word 2 on. -/
theorem readCell_word {x : Tables} {ref : TableRef} {ws : List Word} (h : x.entryWords ref = some ws) (header : Word) (k : Nat) :
    (readCell header x ref).word (k + 2) = ws.getD k 0 := by
  simp [readCell, Tables.tableBody, InCell.word, h]

theorem readCell_parse (header : Word) (x : Tables) (ref : TableRef) : (readCell header x ref).parseWrite x = (match ref with
    | .site => (readCell header x .site).parseSite
    | .cls k => (readCell header x (.cls k)).parseClass k
    | .route k => (readCell header x (.route k)).parseRoute k
    | .trunk k => (readCell header x (.trunk k)).parseTrunk x k
    | .tone k => (readCell header x (.tone k)).parseTone k
    | .cadence k => (readCell header x (.cadence k)).parseCadence k) := by
  rw [InCell.parseWrite, addressRef_read]
  cases ref <;> rfl

section
variable {c : InCell}

/-- R142: a cadence entry's words give the entry again. -/
theorem parseCadence_words {en : CadenceEntry} (hr : en.inRange = true) (hw : ∀ k, c.word (k + 2) = en.words.getD k 0)
    (id : CadenceId) : c.parseCadence id = .ok ⟨.cadence id en, []⟩ := by
  simp only [CadenceEntry.inRange, Bool.and_eq_true, Bool.or_eq_true, beq_iff_eq] at hr
  obtain ⟨⟨⟨⟨h2, h3⟩, h4⟩, h5⟩, h6⟩ := hr
  have h3' : en.onMin ≤ en.onMax ∧ en.onMax ≤ 255 := by simpa [within] using h3
  have h2' : 1 ≤ en.onMin ∧ en.onMin ≤ 255 := by simpa [within] using h2
  have h4' : 1 ≤ en.offMin ∧ en.offMin ≤ 255 := by simpa [within] using h4
  have h5' : en.offMax = 0 ∨ en.offMin ≤ en.offMax ∧ en.offMax ≤ 255 := by simpa [within] using h5
  have f2 : c.field 2 = en.onMin := field_of_word (hw 0) (by omega)
  have f3 : c.field 3 = en.onMax := field_of_word (hw 1) (by omega)
  have f4 : c.field 4 = en.offMin := field_of_word (hw 2) (by omega)
  have f5 : c.field 5 = en.offMax := field_of_word (hw 3) (by omega)
  have f6 : c.field 6 = en.cyclesRequired := field_of_word (hw 4) (lt_of_within h6 (by decide))
  have hoff : (if en.offMax = 0 then (⟨5, en.offMax, false⟩ : NumField) else raiseTo en.offMin ⟨5, en.offMax, false⟩) =
      ⟨5, en.offMax, false⟩ := by
    split_ifs with h0
    · rfl
    · exact if_neg (by dsimp only; omega)
  have hon : raiseTo en.onMin ⟨3, en.onMax, false⟩ = ⟨3, en.onMax, false⟩ := if_neg (by dsimp only; omega)
  unfold InCell.parseCadence
  simp only [f2, f3, f4, f5, f6, rangeFields_kept 2 h2, rangeField_within (lo := 1) 3 (h2'.1.trans h3'.1) h3'.2,
    rangeFields_kept 4 h4, rangeField_within (lo := 0) (hi := 255) 5 (Nat.zero_le en.offMax) (by omega),
    rangeFields_kept 6 h6, hon, hoff]
  rfl

theorem parseTone_words {en : ToneEntry} (hr : en.inRange = true) (hw : ∀ k, c.word (k + 2) = en.words.getD k 0) (id : ToneId) :
    c.parseTone id = .ok ⟨.tone id en, []⟩ := by
  simp only [ToneEntry.inRange, Component.inRange, Bool.and_eq_true, decide_eq_true_eq] at hr
  obtain ⟨⟨h2, ⟨⟨lo1, hi1⟩, t1⟩, r1⟩, ⟨⟨lo2, hi2⟩, t2⟩, r2⟩ := hr
  have f2 : c.field 2 = en.components := field_of_word (hw 0) (lt_of_within h2 (by decide))
  have f3 : c.coefficient 3 = en.first.coefficient := coefficient_of_words (hw 1) (hw 2) lo1 hi1
  have f5 : c.field16 5 = en.first.threshold := field16_of_words (hw 3) (hw 4) (lt_of_within t1 (by decide))
  have f7 : c.field 7 = en.first.ratio := field_of_word (hw 5) (lt_of_within r1 (by decide))
  have f8 : c.coefficient 8 = en.second.coefficient := coefficient_of_words (hw 6) (hw 7) lo2 hi2
  have f10 : c.field16 10 = en.second.threshold := field16_of_words (hw 8) (hw 9) (lt_of_within t2 (by decide))
  have f12 : c.field 12 = en.second.ratio := field_of_word (hw 10) (lt_of_within r2 (by decide))
  have f13 : c.field 13 = en.cadence.val := field_of_word (hw 11) (by omega)
  unfold InCell.parseTone
  simp only [f2, f3, f5, f7, f8, f10, f12, f13, finOf_val, rangeFields_kept 2 h2, rangeFields_kept 7 r1,
    rangeFields_kept 12 r2]
  rfl

theorem parseTrunk_words {en : TrunkEntry} (hr : en.inRange = true) (hw : ∀ k, c.word (k + 2) = en.words.getD k 0)
    {x : Tables} {id : TrunkId} (hfree : en.role ≠ .unused → x.slotHeld id en.slot = false) :
    c.parseTrunk x id = .ok ⟨.trunk id en, []⟩ := by
  have f2 : c.field 2 = en.role.code := field_of_word (hw 0) (by cases en.role <;> decide)
  have f3 : c.field 3 = en.slot := field_of_word (hw 1) (lt_of_within hr (by decide))
  have hrole : trunkRoleOf en.role.code = some en.role := by cases en.role <;> rfl
  unfold InCell.parseTrunk
  simp only [f2, f3, hrole, rangeFields_kept 3 hr]
  rw [if_neg]
  · rfl
  · simp only [Bool.and_eq_true, bne_iff_ne, not_and]
    intro hu
    simp [hfree hu]

theorem parseClass_words {en : ClassEntry} (hr : en.inRange = true) (hw : ∀ k, c.word (k + 2) = en.words.getD k 0)
    (id : ClassId) : c.parseClass id = .ok ⟨.cls id en, []⟩ := by
  simp only [ClassEntry.inRange, Bool.and_eq_true] at hr
  obtain ⟨⟨⟨⟨⟨hn, h8⟩, h9⟩, h10⟩, h11⟩, h12⟩ := hr
  have hn' : 1 ≤ en.routes.length ∧ en.routes.length ≤ 4 := by simpa [within] using hn
  have f2 : c.field 2 = en.routes.length := field_of_word (hw 0) (by omega)
  have froute (i : Nat) (hi : i < 4) : c.field (3 + i) = (en.routes[i]?).elim 0 Fin.val := by
    have hword : c.word (3 + i) = wordOf ((en.routes[i]?).elim 0 Fin.val) := by
      have hwi := hw (i + 1)
      have hidx : i + 1 + 2 = 3 + i := by omega
      rw [hidx] at hwi
      rw [hwi]
      interval_cases i <;> rfl
    refine field_of_word hword ?_
    cases en.routes[i]? with
    | none => decide
    | some r => have := r.isLt; simp only [Option.elim]; omega
  have f7 : c.field 7 = en.preemptMode.code := field_of_word (hw 5) (by cases en.preemptMode <;> decide)
  have f8 : c.field 8 = en.warningTime := field_of_word (hw 6) (lt_of_within h8 (by decide))
  have f9 : c.field 9 = en.cancelWindow := field_of_word (hw 7) (lt_of_within h9 (by decide))
  have f10 : c.field 10 = en.backoffBase := field_of_word (hw 8) (lt_of_within h10 (by decide))
  have f11 : c.field 11 = en.backoffCap := field_of_word (hw 9) (lt_of_within h11 (by decide))
  have f12 : c.field 12 = en.maxCycles := field_of_word (hw 10) (lt_of_within h12 (by decide))
  have f13 : c.field 13 = en.classSymbol.val := field_of_word (hw 11) (by omega)
  have hmode : preemptModeOf en.preemptMode.code = some en.preemptMode := by cases en.preemptMode <;> rfl
  have hroutes : allSome ((List.range en.routes.length).map fun i => finOf 8 (c.field (3 + i))) = some en.routes := by
    refine allSome_eq_some.2 (List.ext_getElem (by simp) fun i hi hi' => ?_)
    have hlt : i < en.routes.length := by simpa using hi
    simp only [List.getElem_map, List.getElem_range, froute i (by omega), List.getElem?_eq_getElem hlt, Option.elim, finOf_val]
  have hsym : (Fin.ofNat 16 en.classSymbol.val : Fin 16) = en.classSymbol := Fin.ext (Nat.mod_eq_of_lt en.classSymbol.isLt)
  unfold InCell.parseClass
  simp only [f2, f7, f8, f9, f10, f11, f12, f13, hmode, rangeField_within (lo := 0) (hi := 4) 2 (Nat.zero_le _) hn'.2,
    hroutes, rangeFields_kept 8 h8, rangeFields_kept 9 h9, rangeFields_kept 10 h10, rangeFields_kept 11 h11,
    rangeFields_kept 12 h12, rangeField_within (lo := 0) (hi := 15) 13 (Nat.zero_le en.classSymbol.val) (by omega), hsym]
  rw [if_neg (by omega)]
  rfl

theorem dialSymbolOf_code (d : DialSymbol) : dialSymbolOf d.code = some d := by
  cases d with
  | tone v => simp [dialSymbolOf, DialSymbol.code]
  | _ => rfl

theorem DialSymbol.code_lt (d : DialSymbol) : d.code < 16 := by
  cases d with
  | tone v => have := v.isLt; simp only [DialSymbol.code]; omega
  | _ => decide

theorem parseRoute_words {en : RouteEntry} (hr : en.inRange = true) (hw : ∀ k, c.word (k + 2) = en.words.getD k 0)
    (id : RouteId) : c.parseRoute id = .ok ⟨.route id en, []⟩ := by
  simp only [RouteEntry.inRange, Bool.and_eq_true] at hr
  obtain ⟨⟨⟨⟨⟨hn, h14⟩, h15⟩, h16⟩, h18⟩, h19⟩ := hr
  have hn' : 1 ≤ en.dial.length ∧ en.dial.length ≤ 24 := by simpa [within] using hn
  have f2 : c.field 2 = if en.valid then 1 else 0 := field_of_word (hw 0) (by cases en.valid <;> decide)
  have f3 : c.field 3 = en.dial.length := field_of_word (hw 1) (by omega)
  have fdial (i : Nat) (hi : i < 24) : c.packed 4 i = (en.dial.map DialSymbol.code).getD i 0 := by
    rw [packed_eq]
    refine symbolAt_packed (n := 8) (fun x hx => ?_) (fun j hj => ?_) (by omega)
    · obtain ⟨d, -, rfl⟩ := List.mem_map.1 hx
      exact d.code_lt
    · have hwj := hw (j + 2)
      have hidx : j + 2 + 2 = 4 + j := by omega
      rw [hidx] at hwj
      rw [hwj]
      interval_cases j <;> rfl
  have f12 : c.field 12 = en.handshakeTone.val := field_of_word (hw 10) (by omega)
  have f13 : c.field 13 = en.ackTone.val := field_of_word (hw 11) (by omega)
  have f14 : c.field 14 = en.blocksPerCall := field_of_word (hw 12) (lt_of_within h14 (by decide))
  have f15 : c.field 15 = en.blockTries := field_of_word (hw 13) (lt_of_within h15 (by decide))
  have f16 : c.field 16 = en.fallbackAfter := field_of_word (hw 14) (lt_of_within h16 (by decide))
  have f17 : c.field 17 = en.dialToneMode.code := field_of_word (hw 15) (by cases en.dialToneMode <;> decide)
  have f18 : c.field 18 = en.answerTimeout := field_of_word (hw 16) (lt_of_within h18 (by decide))
  have f19 : c.field 19 = en.ackTimeout := field_of_word (hw 17) (lt_of_within h19 (by decide))
  have hvalid : validOf (if en.valid then 1 else 0) = some en.valid := by cases en.valid <;> rfl
  have hmode : dialToneModeOf en.dialToneMode.code = some en.dialToneMode := by cases en.dialToneMode <;> rfl
  have hdial : allSome ((List.range en.dial.length).map fun i => dialSymbolOf (c.packed 4 i)) = some en.dial := by
    refine allSome_eq_some.2 (List.ext_getElem (by simp) fun i hi hi' => ?_)
    have hlt : i < en.dial.length := by simpa using hi
    simp [fdial i (by omega), hlt, dialSymbolOf_code]
  unfold InCell.parseRoute
  simp only [f2, f3, f12, f13, f14, f15, f16, f17, f18, f19, hvalid, hmode, hdial, finOf_val, rangeFields_kept 14 h14,
    rangeFields_kept 15 h15, rangeFields_kept 16 h16, defaultField_kept 18 45 (by decide) h18,
    defaultField_kept 19 15 (by decide) h19]
  rw [if_neg (by rw [Bool.or_eq_true, decide_eq_true_eq, decide_eq_true_eq]; omega)]
  rfl

theorem parseSite_words {en : SiteRecord} (hr : en.inRange = true) (hw : ∀ k, c.word (k + 2) = en.words.getD k 0) :
    c.parseSite = .ok ⟨.site en, []⟩ := by
  simp only [SiteRecord.inRange, Bool.and_eq_true, Bool.or_eq_true, beq_iff_eq] at hr
  obtain ⟨⟨⟨⟨⟨⟨⟨⟨⟨⟨⟨⟨⟨⟨⟨⟨hn, h9⟩, h10⟩, h11⟩, h12⟩, h14⟩, h15⟩, h16⟩, h17⟩, h18⟩, h19⟩, h20⟩, h21⟩, h22⟩, h23⟩, h24⟩, h25⟩ := hr
  have hn' : 4 ≤ en.account.length ∧ en.account.length ≤ 8 := by simpa [within] using hn
  have f2 : c.field 2 = en.account.length := field_of_word (hw 0) (by omega)
  have faccount (i : Nat) (hi : i < 9) : c.packed 3 i = (en.account.map Fin.val).getD i 0 := by
    rw [packed_eq]
    refine symbolAt_packed (n := 3) (fun x hx => ?_) (fun j hj => ?_) (by omega)
    · obtain ⟨d, -, rfl⟩ := List.mem_map.1 hx
      exact d.isLt
    · have hwj := hw (j + 1)
      have hidx : j + 1 + 2 = 3 + j := by omega
      rw [hidx] at hwj
      rw [hwj]
      interval_cases j <;> rfl
  have f6 : c.field 6 = en.dialTone.val := field_of_word (hw 4) (by omega)
  have f7 : c.field 7 = en.busyTone.val := field_of_word (hw 5) (by omega)
  have f8 : c.field 8 = en.reorderTone.val := field_of_word (hw 6) (by omega)
  have f9 : c.field 9 = en.symbolOn := field_of_word (hw 7) (lt_of_within h9 (by decide))
  have f10 : c.field 10 = en.symbolOff := field_of_word (hw 8) (lt_of_within h10 (by decide))
  have f11 : c.field 11 = en.generatorLevel := field_of_word (hw 9) (lt_of_within h11 (by decide))
  have f12 : c.field16 12 = en.silenceFloor := field16_of_words (hw 10) (hw 11) (lt_of_within h12 (by decide))
  have f14 : c.field 14 = en.loopTimeout := field_of_word (hw 12) (lt_of_within h14 (by decide))
  have f15 : c.field 15 = en.loopLossTime := field_of_word (hw 13) (lt_of_within h15 (by decide))
  have f16 : c.field 16 = en.releaseGuard := field_of_word (hw 14) (lt_of_within h16 (by decide))
  have f17 : c.field 17 = en.warningFrequency := field_of_word (hw 15) (lt_of_within h17 (by decide))
  have f18 : c.field 18 = en.warningOn := field_of_word (hw 16) (lt_of_within h18 (by decide))
  have f19 : c.field 19 = en.warningOff := field_of_word (hw 17) (lt_of_within h19 (by decide))
  have f20 : c.field 20 = en.periodicInterval := field_of_word (hw 18) (lt_of_within h20 (by decide))
  have f21 : c.field 21 = en.periodicEvent := field_of_word (hw 19) (lt_of_within h21 (by decide))
  have hsilence : en.silenceTime < 32768 := h22.elim (fun h => by omega) fun h => lt_of_within h (by decide)
  have f22 : c.field 22 = en.silenceTime := field_of_word (hw 20) hsilence
  have f23 : c.field 23 = en.silenceEvent := field_of_word (hw 21) (lt_of_within h23 (by decide))
  have f24 : c.field 24 = en.lineFaultEvent := field_of_word (hw 22) (lt_of_within h24 (by decide))
  have f25 : c.field16 25 = en.goodLevel := field16_of_words (hw 23) (hw 24) (lt_of_within h25 (by decide))
  have hsilenceField : silenceTimeField 22 en.silenceTime = ⟨22, en.silenceTime, false⟩ := by
    unfold silenceTimeField
    split_ifs with h0
    · rw [h0]
    · exact rangeFields_kept 22 (h22.resolve_left h0)
  have haccount : (List.range en.account.length).map (fun i => (Fin.ofNat 16 (c.packed 3 i) : Fin 16)) = en.account := by
    refine List.ext_getElem (by simp) fun i hi hi' => ?_
    have hlt : i < en.account.length := by simpa using hi
    simp [faccount i (by omega), hlt]
  unfold InCell.parseSite
  simp only [f2, f6, f7, f8, f9, f10, f11, f12, f14, f15, f16, f17, f18, f19, f20, f21, f22, f23, f24, f25, finOf_val,
    haccount, hsilenceField, defaultField_kept 9 50 (by decide) h9, defaultField_kept 10 50 (by decide) h10,
    rangeFields_kept 11 h11, defaultField_kept 14 400 (by decide) h14, defaultField_kept 15 200 (by decide) h15,
    defaultField_kept 16 1000 (by decide) h16, rangeFields_kept 17 h17, rangeFields_kept 18 h18, rangeFields_kept 19 h19,
    rangeFields_kept 20 h20, rangeFields_kept 21 h21, rangeFields_kept 23 h23, rangeFields_kept 24 h24]
  rw [if_neg (by simp; omega)]
  rfl

end

/-- R146: a read of a loaded entry, written back, gives the entry again. -/
theorem read_back {s : State} (hr : TablesInRange s) (hslots : SlotsDistinct s) (header : Word) :
    (∀ en, s.tables.site = some en → (readCell header s.tables .site).parseWrite s.tables = .ok ⟨.site en, []⟩) ∧
    (∀ k en, vget s.tables.classes k = some en →
      (readCell header s.tables (.cls k)).parseWrite s.tables = .ok ⟨.cls k en, []⟩) ∧
    (∀ k en, (vget s.tables.routes k).applied = some en →
      (readCell header s.tables (.route k)).parseWrite s.tables = .ok ⟨.route k en, []⟩) ∧
    (∀ k en, (vget s.tables.trunks k).applied = some en →
      (readCell header s.tables (.trunk k)).parseWrite s.tables = .ok ⟨.trunk k en, []⟩) ∧
    (∀ k en, (vget s.tables.tones k).applied = some en →
      (readCell header s.tables (.tone k)).parseWrite s.tables = .ok ⟨.tone k en, []⟩) ∧
    ∀ k en, (vget s.tables.cadences k).applied = some en →
      (readCell header s.tables (.cadence k)).parseWrite s.tables = .ok ⟨.cadence k en, []⟩ := by
  obtain ⟨hsite, hcls, hroute, htrunk, htone, hcadence⟩ := hr
  refine ⟨fun en h => ?_, fun k en h => ?_, fun k en h => ?_, fun k en h => ?_, fun k en h => ?_, fun k en h => ?_⟩
  all_goals rw [readCell_parse]
  · exact parseSite_words (by simpa [h, ifPresent] using hsite) fun i => readCell_word (by simp [Tables.entryWords, h]) header i
  · exact parseClass_words (by simpa [h, ifPresent] using hcls k) (fun i => readCell_word (by simp [Tables.entryWords, h]) header i) k
  · exact parseRoute_words (by simpa [h, ifPresent] using (hroute k).1)
      (fun i => readCell_word (by simp [Tables.entryWords, h]) header i) k
  · refine parseTrunk_words (by simpa [h, ifPresent] using (htrunk k).1)
      (fun i => readCell_word (by simp [Tables.entryWords, h]) header i) fun hu => ?_
    rw [Bool.eq_false_iff]
    intro hheld
    obtain ⟨u, other, hne, ho, hrole, hslot⟩ := (slotHeld_iff s.tables k en.slot).1 hheld
    refine hslots u k hne _ ?_ (some en) (by simp [h]) other en rfl rfl hrole hu hslot
    rcases ho with ho | ho <;> simp [ho]
  · exact parseTone_words (by simpa [h, ifPresent] using (htone k).1)
      (fun i => readCell_word (by simp [Tables.entryWords, h]) header i) k
  · exact parseCadence_words (by simpa [h, ifPresent] using (hcadence k).1)
      (fun i => readCell_word (by simp [Tables.entryWords, h]) header i) k

/-! ### The other bodies (R183) -/

theorem tableBodies (s : State) : TableBodies s := by
  refine ⟨fun ref table entry length loaded staged href => ?_, fun hr hslots header read hread => ?_⟩
  · have hlen (ws : List Word) (h : s.tables.entryWords ref = some ws) : ws.length = ref.entryLength := by
      cases ref <;> simp only [Tables.entryWords, Option.map_eq_some_iff] at h <;> obtain ⟨en, -, rfl⟩ := h <;> rfl
    refine ⟨(s.tables.entryWords ref).getD (List.replicate ref.entryLength 0), ?_, ?_, fun hl => ?_⟩
    · cases ref <;> simp only [Prod.mk.injEq] at href <;> obtain ⟨rfl, rfl, -, rfl, rfl⟩ := href <;>
        simp [Tables.tableBody, Tables.entryWords, Tables.stagedWrite, TableRef.address, flagBit, wordOf, Nat.add_assoc]
    · have hlength : ref.entryLength + 1 = length := by
        cases ref <;> simp only [Prod.mk.injEq] at href <;> obtain ⟨-, -, rfl, -⟩ := href <;> rfl
      rw [← hlength]
      cases h : s.tables.entryWords ref with
      | none => simp
      | some ws => simp [hlen ws h]
    · have hnone : s.tables.entryWords ref = none := by
        cases ref <;> simp only [Prod.mk.injEq] at href <;> obtain ⟨-, -, -, rfl, -⟩ := href <;>
          simpa [Tables.entryWords] using hl
      simp [hnone]
  · have hcell : read = readCell header s.tables := funext hread
    subst hcell
    exact read_back hr hslots header

theorem answerBodies : AnswerBodies := by
  intro result code h echo detail
  simp only [List.mem_cons, Prod.mk.injEq, List.not_mem_nil, or_false] at h
  rcases h with h | h | h | h | h | h | h | h | h | h | h | h | h | h | h | h
  all_goals
    obtain ⟨rfl, rfl⟩ := h
    rfl

theorem queueBodies : QueueBodies := by
  refine ⟨fun k => ?_, fun r state binding backoff h => ?_, fun s => ?_⟩
  · rw [Key.words]
    cases k.qualifier <;> rfl
  · have hflag : flagBit r.isProtected 5 = if r.isProtected then 32 else 0 := rfl
    rw [Record.words, Record.head, hflag]
    cases hst : r.state with
    | inCall e => cases e <;> simp only [hst, Prod.mk.injEq] at h <;> obtain ⟨rfl, rfl, rfl⟩ := h <;> rfl
    | _ => simp only [hst, Prod.mk.injEq] at h; obtain ⟨rfl, rfl, rfl⟩ := h; rfl
  · rw [State.summaryBody]
    refine congrArg (List.cons 1) (List.map_congr_left fun r _ => ?_)
    rw [Record.head]
    cases r.state <;> rfl

theorem codeTables : CodeTables := by
  refine ⟨fun o n h => ?_, fun c n h => ?_, fun p n h => ?_, fun x n h => ?_⟩
  · cases o <;> simp at h <;> exact h ▸ rfl
  · cases c <;> simp at h <;> exact h ▸ rfl
  · cases p <;> simp at h <;> exact h ▸ rfl
  · cases x <;> simp at h <;> exact h ▸ rfl

theorem eventBodies : EventBodies := by
  refine ⟨fun n => ?_, fun h k r => rfl, fun r u o => rfl, fun h a b => rfl, fun h k => ⟨rfl, rfl⟩, fun u c n h => ?_, fun u => rfl,
    fun u c => rfl, fun u c p d => rfl, fun r o => rfl, fun u => rfl, fun r => rfl, rfl, rfl, fun ref table entry h => ?_,
    fun c n h => ?_, fun c => rfl, rfl, rfl⟩
  · rw [SnapEntry.words]
    cases n.latest <;> rfl
  · simp only [List.mem_cons, Prod.mk.injEq, List.not_mem_nil, or_false] at h
    rcases h with ⟨rfl, rfl⟩ | ⟨rfl, rfl⟩ | ⟨rfl, rfl⟩ <;> rfl
  · cases ref <;> simp only [Prod.mk.injEq] at h <;> obtain ⟨rfl, rfl⟩ := h <;> simp [Detail.words, TableRef.address] <;> rfl
  · simp only [List.mem_cons, Prod.mk.injEq, List.not_mem_nil, or_false] at h
    rcases h with ⟨rfl, rfl⟩ | ⟨rfl, rfl⟩ | ⟨rfl, rfl⟩ <;> rfl

end Sys2Proof.Machine

namespace Sys2Proof.Machine
open Sys2Proof Sys2Proof.Machine

/-! ### The STATUS body (R169) -/

theorem countState_eq (s : State) (code : Nat) (p : Record → Bool) (h : ∀ r : Record, p r = (r.state.code == code)) :
    s.countState code = s.queue.countP p := by
  rw [State.countState, ← List.countP_eq_length_filter]
  exact List.countP_congr fun r _ => by rw [h]

theorem statusBodies (s : State) : StatusBodies s := by
  refine ⟨fun e => (s.engine e).statusWord, s.cmu.slot.statusWord,
    fun f => ((List.finRange 16).map fun k => if f (vget s.evr.records k) then 2 ^ k.val else 0).sum, fun e => rfl, ?_,
    fun f => rfl, ?_, ?_, rfl, rfl, rfl, ?_, ?_, fun u x r hx hr => ?_, ?_, ?_⟩
  · cases s.cmu.slot with
    | empty => rfl
    | held c n => cases c <;> simp [CommandSlot.statusWord, SlotCommand.code, SlotCommand.argument, wordOf]
    | running c e =>
      cases c
      · cases e <;> simp [CommandSlot.statusWord, SlotCommand.code, SlotCommand.argument, wordOf, engineCode]
      · cases e <;> simp [CommandSlot.statusWord, SlotCommand.code, SlotCommand.argument, wordOf, engineCode]
  · rfl
  · rfl
  · rw [← countState_eq s 0 (fun r => r.state == .waiting) fun r => ?_,
      ← countState_eq s 1 (fun r => r.state == .inCall .e0 || r.state == .inCall .e1) fun r => ?_]
    · rfl
    · cases r.state with
      | inCall e => cases e <;> rfl
      | _ => rfl
    · cases r.state <;> rfl
  · rw [← countState_eq s 3 (fun r => r.state == .stranded) fun r => ?_,
      ← countState_eq s 2 (fun r => r.state != .waiting && r.state != .inCall .e0 && r.state != .inCall .e1 &&
        r.state != .stranded) fun r => ?_]
    · rfl
    · cases r.state with
      | inCall e => cases e <;> rfl
      | _ => rfl
    · cases r.state <;> rfl
  · subst hx hr
    fin_cases u <;> rfl
  · rfl
  · rfl

/-! ### Emission (R166, R170, R174 to R179) -/

theorem exec_answerEmissionStart {s : State} (h : s.resetLow = false) :
    exec .answerEmissionStart s = .next s.startAnswer := running_live State.startAnswer h

theorem exec_eventCellStart {s : State} (h : s.resetLow = false) : exec .eventCellStart s = .next s.startEvent :=
  running_live State.startEvent h

theorem exec_emissionEnd {s : State} (h : s.resetLow = false) : exec .emissionEnd s = .next s.endEmission :=
  running_live State.endEmission h

section
variable {s : State} {a : AnswerEntry} {rest : List AnswerEntry}

theorem startAnswer_data (hidle : s.ccp.emitter = .idle) (hans : s.ccp.answers = a :: rest) (hsync : s.inSync = true)
    (hc : a.content ≠ .status) :
    s.startAnswer = { s with ccp := { s.ccp with emitter := .emitting (.answer none) (s.entryCell a) } } := by
  unfold State.startAnswer
  rw [hidle, hans]
  simp only [hsync, if_true]

theorem startAnswer_status (hidle : s.ccp.emitter = .idle) (hans : s.ccp.answers = a :: rest) (hsync : s.inSync = true)
    (hc : a.content = .status) :
    s.startAnswer = { s with ccp := { s.ccp with
      emitter := .emitting (.answer (some s.ccp.flags)) (s.entryCell a), flags := StickyFlags.clear } } := by
  unfold State.startAnswer
  rw [hidle, hans]
  simp only [hsync, if_true, hc]

theorem endEmission_answer (hans : s.ccp.answers = a :: rest) {took : Option StickyFlags}
    (he : s.ccp.emitter = .emitting (.answer took) []) : s.endEmission =
      if a.initDone then { s with ccp := { s.ccp with
        answers := [], inbound := [], flags := StickyFlags.clear, initWait := false, emitter := .idle } }
      else { s with ccp := { s.ccp with answers := rest, emitter := .idle } } := by
  unfold State.endEmission
  rw [he, hans]
  rfl

theorem endEmission_event (he : s.ccp.emitter = .emitting .event []) :
    s.endEmission = { s with ccp := { s.ccp with emitter := .idle }, evr := { s.evr with emission := none } } := by
  unfold State.endEmission
  rw [he]

end

/-- An emitter with a word to send, or with none, in this frame. -/
theorem endEmission_unfinished {s : State} (h : ∀ src, s.ccp.emitter ≠ .emitting src []) : s.endEmission = s := by
  unfold State.endEmission
  split
  · next he => exact absurd he (h _)
  · next he => exact absurd he (h _)
  · rfl
  · rfl

theorem framed_unfinished {s : State} (he : ∀ src, s.ccp.emitter ≠ .emitting src []) (hg : s.hwi.grid < 80) :
    ∃ x : Hwi, s.framed = { s with hwi := x } := by
  have hfull : ¬ s.frameFull = true := by
    simp only [State.frameFull, beq_iff_eq]
    omega
  have hsettle : s.settleDue = { s with hwi := s.settleDue.hwi } := by
    unfold State.settleDue
    rw [endEmission_unfinished he]
    dsimp only
    rw [if_neg hfull]
  exact ⟨s.framed.hwi, congrArg (fun m : State => { m.applyPaths with hwi := s.framed.hwi }) hsettle⟩

end Sys2Proof.Machine

namespace Sys2Proof.Proofs
open Sys2Proof Sys2Proof.Machine

/-- Settles O60: the bodies by their own lemmas, the emission by the emitter's state, and a frame by what precedes its
control word. -/
theorem cellsEmitted : Obligations.CellsEmitted := by
  refine ⟨?_, answerBodies, queueBodies, codeTables, eventBodies, fun s => ⟨tableBodies s, statusBodies s⟩, fun s hlow =>
    ⟨fun a rest hidle hans hsync => ?_, rfl, fun hidle hans hsync hsnap => ?_, fun a rest took hans he => ?_, fun he => ?_,
      fun tsi pxi hsync hgrid src w rest hcase => ?_⟩⟩
  · rintro kind tag body header rfl
    rfl
  · rw [exec_answerEmissionStart hlow]
    refine ⟨fun echo result detail h => ?_, fun ref h => ?_, fun g r h hr => ?_, fun g h hr => ?_, fun h => ?_, fun h => ?_⟩
    · rw [startAnswer_data hidle hans hsync (by simp [h]), State.entryCell, h]
    · rw [startAnswer_data hidle hans hsync (by simp [h]), State.entryCell, h]
    · rw [startAnswer_data hidle hans hsync (by simp [h]), State.entryCell, h]
      simp only [hr]
    · rw [startAnswer_data hidle hans hsync (by simp [h]), State.entryCell, h]
      simp only [hr]
      rfl
    · rw [startAnswer_data hidle hans hsync (by simp [h]), State.entryCell, h]
    · rw [startAnswer_status hidle hans hsync h, State.entryCell, h]
  · have hdue : s.eventIndication = true := by
      have hne : eventKinds.filter (fun k => (vget s.evr.records k).due) ≠ [] := fun h => hsnap (by rw [State.snapshot, h]; rfl)
      obtain ⟨k, hk⟩ := List.exists_mem_of_ne_nil _ hne
      exact List.any_eq_true.2 ⟨k, List.mem_of_mem_filter hk, (List.mem_filter.1 hk).2⟩
    rw [exec_eventCellStart hlow, State.startEvent, hidle, hans]
    simp only [hsync, hdue]
    rfl
  · rw [exec_emissionEnd hlow, endEmission_answer hans he]
    exact ⟨fun h => by rw [if_neg (by simp [h])], fun h => by rw [if_pos h]⟩
  · rw [exec_emissionEnd hlow, endEmission_event he]
  · have hopen (src' : EmitSource) : s.ccp.emitter ≠ .emitting src' [] := by
      rcases hcase with ⟨h, -⟩ | ⟨ws, h, -⟩ <;> simp [h]
    obtain ⟨x, hx⟩ := framed_unfinished hopen hgrid
    have hcontrol : s.framed.controlWord = w := by
      rcases hcase with ⟨h, rfl, -⟩ | ⟨ws, h, -⟩
      · rw [hx]
        simp only [State.controlWord, h]
        rfl
      · rw [hx]
        simp only [State.controlWord, h]
    have hccp : (s.framed.wordsOut tsi pxi).advanceSources.ccp = { s.ccp with emitter := rest } := by
      rw [hx]
      rcases hcase with ⟨h, -, rfl⟩ | ⟨ws, h, rfl⟩ <;> simp only [State.advanceSources, State.wordsOut, h]
    refine ⟨(((s.framed.wordsOut tsi pxi).advanceSources).detectorFrame tsi).debounceFrame tsi pxi, s.framed.formTso pxi,
      s.framed.formPxo tsi, ?_, rfl, rfl, ?_, formTso_control _ _, hccp, ?_⟩
    · rw [exec_highwayFrame hlow hsync, highwayFrame_eq]
    · rw [formPxo_control, hcontrol]
    · rw [hx]
      exact ⟨rfl, rfl, rfl, rfl, rfl, rfl, rfl, rfl, rfl⟩

end Sys2Proof.Proofs

namespace Sys2Proof.Machine
open Sys2Proof Sys2Proof.Machine

/-! ### Deliveries of line changes (R126) -/

theorem takeDelivery_eq {s s1 : State} {u : TrunkId} {sig : LineSignal} {v : Bool}
    (h : s.takeDelivery u sig = some (v, s1)) :
    s1 = { s with hwi := { s.hwi with deliveries := s.hwi.deliveries.erase ⟨u, sig, v⟩ } } := by
  unfold State.takeDelivery at h
  split at h
  · next d hd =>
    have hp := List.find?_some hd
    simp only [Bool.and_eq_true, beq_iff_eq] at hp
    obtain ⟨rfl, rfl⟩ := hp
    obtain ⟨rfl, rfl⟩ := by simpa using h
    rfl
  · cases h

/-- Only the taking of a fall of G changes what waits of G. -/
theorem ringFallWaits_taken {s s1 : State} {u : TrunkId} {sig : LineSignal} {v : Bool}
    (h : s.takeDelivery u sig = some (v, s1)) (hsig : sig ≠ .g) (w : TrunkId) : s1.ringFallWaits w = s.ringFallWaits w := by
  have hne : (⟨w, .g, false⟩ : Delivery) ≠ ⟨u, sig, v⟩ := fun he => hsig (congrArg Delivery.signal he).symm
  rw [takeDelivery_eq h, Bool.eq_iff_iff]
  simp only [State.ringFallWaits, List.contains_iff_mem, List.mem_erase_of_ne hne]

theorem officeUse_taken {s s1 : State} {u : TrunkId} {sig : LineSignal} {v : Bool}
    (h : s.takeDelivery u sig = some (v, s1)) (hsig : sig ≠ .g) (w : TrunkId) : s1.officeUse w = s.officeUse w := by
  have hwaits := ringFallWaits_taken h hsig w
  have hs := takeDelivery_eq h
  simp only [State.officeUse, State.ringRecently, hwaits]
  rw [hs]
  rfl

theorem onChange_of_taken {s s1 : State} {u : TrunkId} {sig : LineSignal} {v : Bool}
    (h : s.takeDelivery u sig = some (v, s1)) (f : State → Bool → State) :
    s.onChange u sig f = if s1.managed u then f s1 v else s1 := by
  rw [State.onChange, h]

theorem managed_taken {s s1 : State} {u : TrunkId} {sig : LineSignal} {v : Bool}
    (h : s.takeDelivery u sig = some (v, s1)) (w : TrunkId) : s1.managed w = s.managed w := by
  rw [takeDelivery_eq h]
  rfl

/-! ### Reports of trunks that have become grantable (R102) -/

theorem reportGrantable_gain {b a : State} {u : TrunkId} {m : PreemptMode} (hb : b.grantable m u = false)
    (ha : a.grantable m u = true) : b.reportGrantable a u = a.cause :=
  if_pos (List.any_eq_true.2 ⟨m, by cases m <;> simp, by simp [hb, ha]⟩)

theorem reportGrantable_no_gain {b a : State} {u : TrunkId} (h : ∀ m, a.grantable m u = true → b.grantable m u = true) :
    b.reportGrantable a u = a := by
  refine if_neg fun hany => ?_
  obtain ⟨m, -, hm⟩ := List.any_eq_true.1 hany
  simp only [Bool.and_eq_true, Bool.not_eq_true'] at hm
  rw [h m hm.2] at hm
  cases hm.1

theorem grantable_false {s : State} {u : TrunkId} {m : PreemptMode} (h : (s.trunk u).state ≠ .idleReserved)
    (h' : (s.trunk u).state ≠ .idleOffice) (h'' : (s.trunk u).state ≠ .officeBusy) : s.grantable m u = false := by
  rw [Bool.eq_false_iff]
  intro hg
  rcases (open_of_grantable hg).1 with hs | hs | hs
  · exact h hs
  · exact h' hs
  · exact h'' hs

/-! ### Office use (R100, R106) -/

theorem reevaluate_stays {s : State} {u : TrunkId} (h : s.trunkRole u = .shared →
    ((s.trunk u).state = .idleOffice → s.officeUse u = false) ∧ ((s.trunk u).state = .officeBusy → s.officeUse u = true)) :
    s.reevaluate u = s := by
  unfold State.reevaluate
  split
  · next hrole =>
    obtain ⟨hidle, hbusy⟩ := h hrole
    split
    · next hs => exact if_neg (by simp [hidle hs])
    · next hs => exact if_pos (hbusy hs)
    · rfl
  · rfl

theorem reevaluate_begins {s : State} {u : TrunkId} (hrole : s.trunkRole u = .shared) (hs : (s.trunk u).state = .idleOffice)
    (hu : s.officeUse u = true) :
    s.reevaluate u = s.setTrunk u { s.trunk u with state := .officeBusy, busySince := some s.clock } := by
  rw [State.reevaluate, if_pos hrole, hs]
  simp only [hu, if_true, State.officeState]

theorem reevaluate_ends {s : State} {u : TrunkId} (hrole : s.trunkRole u = .shared) (hs : (s.trunk u).state = .officeBusy)
    (hu : s.officeUse u = false) :
    s.reevaluate u = s.setTrunk u { s.trunk u with state := .idleOffice, busySince := none } := by
  rw [State.reevaluate, if_pos hrole, hs]
  simp only [hu, Bool.false_eq_true, if_false, State.officeState]

theorem warningOver_eq_false {s : State} {u : TrunkId} (h : (s.trunk u).state = .warning → s.officeUse u = true) :
    s.warningOver u = false := by
  unfold State.warningOver
  by_cases hs : (s.trunk u).state = .warning
  · simp [h hs]
  · simp [hs]

theorem officeChanged_eq {s : State} (b : State) {u : TrunkId} (h : (s.trunk u).state = .warning → s.officeUse u = true) :
    s.officeChanged b u = b.reportGrantable (s.reevaluate u) u := if_neg (by simp [warningOver_eq_false h])

/-- A change that leaves the trunk in its state. -/
theorem officeChanged_stays {s b : State} {u : TrunkId} (hw : (s.trunk u).state = .warning → s.officeUse u = true)
    (hr : s.trunkRole u = .shared →
      ((s.trunk u).state = .idleOffice → s.officeUse u = false) ∧ ((s.trunk u).state = .officeBusy → s.officeUse u = true))
    (hg : ∀ m, s.grantable m u = true → b.grantable m u = true) : s.officeChanged b u = s := by
  rw [officeChanged_eq b hw, reevaluate_stays hr, reportGrantable_no_gain hg]

theorem shared_managed {s : State} {u : TrunkId} (h : s.trunkRole u = .shared) : s.managed u = true :=
  (managed_iff s u).2 (.inl h)

/-- R100: office use begins. -/
theorem officeChanged_begins {s b : State} {u : TrunkId} (hrole : s.trunkRole u = .shared)
    (hs : (s.trunk u).state = .idleOffice) (hu : s.officeUse u = true)
    (hg : ∀ m, s.grantable m u = true → b.grantable m u = true) :
    s.officeChanged b u = s.setTrunk u { s.trunk u with state := .officeBusy, busySince := some s.clock } := by
  rw [officeChanged_eq b (by simp [hs]), reevaluate_begins hrole hs hu, reportGrantable_no_gain fun m hm => hg m ?_]
  obtain ⟨hmanaged, hbar, hfault, -⟩ := (grantable_iff _ _ _).1 hm
  rw [trunk_setTrunk_same] at hbar hfault
  exact (grantable_iff s m u).2 ⟨hmanaged, hbar, hfault, .inr (.inl hs)⟩

/-- R100, R28: office use ends, and the trunk is grantable without pre-emption. -/
theorem officeChanged_ends {s b : State} {u : TrunkId} (hrole : s.trunkRole u = .shared)
    (hs : (s.trunk u).state = .officeBusy) (hu : s.officeUse u = false) (hb : (b.trunk u).state = .officeBusy) :
    s.officeChanged b u =
      if (s.trunk u).barred || (s.trunk u).faulted
      then s.setTrunk u { s.trunk u with state := .idleOffice, busySince := none }
      else (s.setTrunk u { s.trunk u with state := .idleOffice, busySince := none }).cause := by
  rw [officeChanged_eq b (by simp [hs]), reevaluate_ends hrole hs hu]
  split
  · next hno =>
    refine reportGrantable_no_gain fun m hm => ?_
    obtain ⟨-, hbar, hfault, -⟩ := (grantable_iff _ _ _).1 hm
    rw [trunk_setTrunk_same] at hbar hfault
    rw [Bool.or_eq_true] at hno
    rcases hno with h | h
    · rw [hbar] at h
      cases h
    · rw [hfault] at h
      cases h
  · next hfree =>
    rw [Bool.or_eq_true, not_or, Bool.not_eq_true, Bool.not_eq_true] at hfree
    refine reportGrantable_gain (m := .none) ?_ ?_
    · rw [Bool.eq_false_iff]
      exact fun hg => (open_of_grantable hg).2 rfl hb
    · exact (grantable_iff _ _ _).2 ⟨shared_managed (s := s) hrole, by rw [trunk_setTrunk_same]; exact hfree.1,
        by rw [trunk_setTrunk_same]; exact hfree.2, .inr (.inl (by rw [trunk_setTrunk_same]))⟩

/-! ### The trunk taken from the office (R51, R52, R106) -/

theorem takenReported_office {s : State} {e : EngineId} {k : CallRecord} (hp : (s.engine e).phase = .acquire)
    (ha : (s.engine e).abort = none) (hc : (s.engine e).work.call = some k) (hk : k.fromOffice = true) (u : TrunkId) :
    s.takenReported e u = s.enterClear e := by
  unfold State.takenReported
  rw [if_pos (by simp [hp, ha])]
  cases hw : (s.engine e).work with
  | alertCall c =>
    obtain rfl : c = k := by simpa [hw, Work.call] using hc
    exact if_pos hk
  | testCall c =>
    obtain rfl : c = k := by simpa [hw, Work.call] using hc
    exact if_pos hk
  | lineTest r => simp [hw, Work.call] at hc
  | nothing => simp [hw, Work.call] at hc

theorem endWarning_office {s : State} {u : TrunkId} {e : EngineId} {k : CallRecord} (hh : (s.trunk u).holder = some e)
    (hp : (s.engine e).phase = .acquire) (ha : (s.engine e).abort = none) (hc : (s.engine e).work.call = some k)
    (hk : k.fromOffice = true) : s.endWarning u =
      (s.setTrunk u { s.trunk u with state := .taken, busySince := none, warnTimer := none }).setEngine e
        { s.engine e with phase := .clear, step := .none, seize := false,
                          phaseTimer := some (ticksOfMs s.siteOr.releaseGuard) } := by
  unfold State.endWarning
  rw [hh]
  dsimp only
  rw [takenReported_office (s := s.setTrunk u (s.trunk u).enterTaken) (k := k) (by simpa using hp) (by simpa using ha)
    (by simpa using hc) hk u]
  cases e <;> rfl

theorem officeChanged_over {s : State} (b : State) {u : TrunkId} (hs : (s.trunk u).state = .warning)
    (hu : s.officeUse u = false) : s.officeChanged b u = s.endWarning u := if_pos (by simp [State.warningOver, hs, hu])

/-! ### The line's commands -/

theorem exec_lChange {s : State} (hlow : s.resetLow = false) (u : TrunkId) :
    exec (.debouncedLChange u) s = .next (s.onChange u .l fun s' v => s'.lChange u v) :=
  running_live (fun s => s.onChange u .l fun s' v => s'.lChange u v) hlow

theorem exec_gChange {s : State} (hlow : s.resetLow = false) (u : TrunkId) :
    exec (.debouncedGChange u) s = .next (s.onChange u .g fun s' v => s'.gChange u v) :=
  running_live (fun s => s.onChange u .g fun s' v => s'.gChange u v) hlow

theorem exec_vChange {s : State} (hlow : s.resetLow = false) (u : TrunkId) :
    exec (.debouncedVChange u) s = .next (s.onChange u .v fun s' v => s'.vChange u v) :=
  running_live (fun s => s.onChange u .v fun s' v => s'.vChange u v) hlow

theorem exec_fChange {s : State} (hlow : s.resetLow = false) (u : TrunkId) (order : FaultOrder) :
    exec (.debouncedFChange u order) s = .next (s.onChange u .f fun s' v => s'.fChange u order v) :=
  running_live (fun s => s.onChange u .f fun s' v => s'.fChange u order v) hlow

theorem exec_sChange {s : State} (hlow : s.resetLow = false) (u : TrunkId) :
    exec (.debouncedSChange u) s = .next (s.onChange u .s fun s' _ => s'.officeChanged s' u) :=
  running_live (fun s => s.onChange u .s fun s' _ => s'.officeChanged s' u) hlow

theorem exec_warningPartEnd {s : State} (hlow : s.resetLow = false) (u : TrunkId) :
    exec (.warningPartEnd u) s = .next (s.warningPartEnd u) := running_live (State.warningPartEnd u) hlow

theorem exec_warningTimerExpiry {s : State} (hlow : s.resetLow = false) (u : TrunkId) :
    exec (.warningTimerExpiry u) s = .next (s.warningTimerEnd u) := running_live (State.warningTimerEnd u) hlow

theorem exec_ringRecentExpiry {s : State} (hlow : s.resetLow = false) (u : TrunkId) :
    exec (.ringRecentExpiry u) s = .next (s.ringRecentEnd u) := running_live (State.ringRecentEnd u) hlow

theorem exec_guardTimerExpiry {s : State} (hlow : s.resetLow = false) (u : TrunkId) :
    exec (.guardTimerExpiry u) s = .next (s.guardTimerEnd u) := running_live (State.guardTimerEnd u) hlow

theorem lineEngine_not_taken {s : State} {u : TrunkId} (h : (s.trunk u).state ≠ .taken) : s.lineEngine u = none := by
  unfold State.lineEngine
  split
  · next hs _ => exact absurd hs h
  · rfl

theorem lineEngine_of_acts {s : State} {u : TrunkId} {e : EngineId} (hs : (s.trunk u).state = .taken)
    (hh : (s.trunk u).holder = some e) (ha : (s.engine e).acts = true) : s.lineEngine u = some e := by
  rw [State.lineEngine, hs, hh]
  exact if_pos ha

end Sys2Proof.Machine

namespace Sys2Proof.Proofs
open Sys2Proof Sys2Proof.Machine

/-- Settles O25: a change of L at no holder, or of S, is a change of office use. -/
theorem officeUseFollowsSignals : Obligations.OfficeUseFollowsSignals := by
  intro s s1 u sig c v hlow hcmd htake
  have hsig : sig ≠ .g := by rcases hcmd with ⟨rfl, -⟩ | ⟨rfl, -⟩ <;> nofun
  have huse := officeUse_taken htake hsig u
  have hexec : (sig = .s ∨ (s.trunk u).state ≠ .taken) →
      exec c s = .next (if s1.managed u then s1.officeChanged s1 u else s1) := by
    intro hcase
    rcases hcmd with ⟨rfl, rfl⟩ | ⟨rfl, rfl⟩
    · have hstate : (s1.trunk u).state ≠ .taken := by
        rw [takeDelivery_eq htake]
        exact hcase.resolve_left nofun
      rw [exec_lChange hlow, onChange_of_taken htake, State.lChange, lineEngine_not_taken hstate]
    · rw [exec_sChange hlow, onChange_of_taken htake]
  have hs1 := takeDelivery_eq htake
  have htrunk : s1.trunk u = s.trunk u := by rw [hs1]; rfl
  have hrole1 : s1.trunkRole u = s.trunkRole u := by rw [hs1]; rfl
  have hclock : s1.clock = s.clock := by rw [hs1]
  refine ⟨fun hcase => ?_, fun hrole => ?_⟩
  · have hno : (s.trunk u).state ≠ .warning ∧ (s.trunk u).state ≠ .idleOffice ∧ (s.trunk u).state ≠ .officeBusy := by
      rcases hcase with h | h | ⟨h, -⟩ <;> simp [h]
    rw [hexec (by rcases hcase with h | h | ⟨-, h⟩ <;> simp [h]), officeChanged_stays, ite_self]
    · exact fun h => absurd (htrunk ▸ h) hno.1
    · exact fun _ => ⟨fun h => absurd (htrunk ▸ h) hno.2.1, fun h => absurd (htrunk ▸ h) hno.2.2⟩
    · exact fun _ => id
  have hmanaged : s1.managed u = true := shared_managed (hrole1.trans hrole)
  rw [hmanaged, if_pos rfl] at hexec
  refine ⟨fun hs hu => ?_, fun hs hu => ?_, fun hs hu => ?_, fun hs hu => ?_, fun hs hu => ?_, fun e k hs hu hh hp ha hk ho => ?_⟩
  all_goals rw [hexec (.inr (by simp [hs]))]
  · rw [officeChanged_begins (hrole1.trans hrole) (htrunk ▸ hs) (huse.trans hu) fun _ => id, htrunk, hclock]
  · rw [officeChanged_stays (by simp [htrunk, hs]) (fun _ => ⟨fun _ => huse.trans hu, by simp [htrunk, hs]⟩) fun _ => id]
  · rw [officeChanged_stays (by simp [htrunk, hs]) (fun _ => ⟨by simp [htrunk, hs], fun _ => huse.trans hu⟩) fun _ => id]
  · rintro s2 rfl
    rw [officeChanged_ends (hrole1.trans hrole) (htrunk ▸ hs) (huse.trans hu) (htrunk ▸ hs), htrunk]
  · rw [officeChanged_stays (fun _ => huse.trans hu) (fun _ => ⟨by simp [htrunk, hs], by simp [htrunk, hs]⟩) fun _ => id]
  · have hengine : s1.engine e = s.engine e := by rw [hs1]; rfl
    have hsite : s1.siteOr = s.siteOr := by rw [hs1]; rfl
    rw [officeChanged_over s1 (htrunk ▸ hs) (huse.trans hu), endWarning_office (htrunk ▸ hh) (hengine ▸ hp) (hengine ▸ ha)
      (hengine ▸ hk) ho, htrunk, hengine, hsite]

end Sys2Proof.Proofs

namespace Sys2Proof.Machine
open Sys2Proof Sys2Proof.Machine

/-! ### The ring-recent timer (R99) -/

/-- A trunk's ring-recent timer, set or removed. -/
def State.withRing (s : State) (u : TrunkId) (timer : Option Nat) : State := s.setTrunk u { s.trunk u with ringTimer := timer }

theorem withRing_trunk (s : State) (u : TrunkId) (timer : Option Nat) :
    (s.withRing u timer).trunk u = { s.trunk u with ringTimer := timer } := trunk_setTrunk_same _ _ _

theorem withRing_ringRecently (s : State) (u : TrunkId) (timer : Option Nat) :
    (s.withRing u timer).ringRecently u = (s.debounced u .g || timer.isSome || s.ringFallWaits u) := by
  unfold State.ringRecently
  rw [withRing_trunk]
  rfl

theorem withRing_officeUse (s : State) (u : TrunkId) (timer : Option Nat) : (s.withRing u timer).officeUse u =
    (s.debounced u .s || s.debounced u .l || (s.debounced u .g || timer.isSome || s.ringFallWaits u)) := by
  unfold State.officeUse
  rw [withRing_ringRecently]
  rfl

/-- A timer that leaves ring recently as it was makes no trunk grantable. -/
theorem withRing_grantable {s : State} {u : TrunkId} {timer : Option Nat}
    (h : (s.trunk u).state = .idleReserved → (s.withRing u timer).ringRecently u = false → s.ringRecently u = false)
    (m : PreemptMode) (hg : (s.withRing u timer).grantable m u = true) : s.grantable m u = true := by
  obtain ⟨hm, hb, hf, hs⟩ := (grantable_iff _ _ _).1 hg
  rw [withRing_trunk] at hb hf hs
  refine (grantable_iff s m u).2 ⟨hm, hb, hf, hs.imp (fun ⟨h1, h2⟩ => ⟨h1, h h1 h2⟩) id⟩

theorem withRing_stays {s : State} {u : TrunkId} {timer : Option Nat}
    (huse : (s.trunk u).state = .warning ∨ s.trunkRole u = .shared ∧ (s.trunk u).state = .officeBusy →
      (s.withRing u timer).officeUse u = true)
    (hidle : s.trunkRole u = .shared → (s.trunk u).state ≠ .idleOffice)
    (hring : (s.trunk u).state = .idleReserved → (s.withRing u timer).ringRecently u = false → s.ringRecently u = false) :
    (s.withRing u timer).officeChanged s u = s.withRing u timer := by
  refine officeChanged_stays (fun h => huse (.inl ?_)) (fun hrole => ⟨fun h => ?_, fun h => huse (.inr ⟨hrole, ?_⟩)⟩)
    (withRing_grantable hring)
  · rwa [withRing_trunk] at h
  · rw [withRing_trunk] at h
    exact absurd h (hidle hrole)
  · rwa [withRing_trunk] at h

theorem ringRecentEnd_due {s : State} {u : TrunkId} (h : (s.trunk u).ringTimer = some 0) :
    s.ringRecentEnd u = (s.withRing u none).officeChanged s u := if_pos ((timerDue_iff _).2 h)

theorem ringRecentEnd_notDue {s : State} {u : TrunkId} (h : (s.trunk u).ringTimer ≠ some 0) : s.ringRecentEnd u = s :=
  if_neg (mt (timerDue_iff _).1 h)

theorem ringFallWaits_iff (s : State) (u : TrunkId) :
    s.ringFallWaits u = true ↔ (⟨u, .g, false⟩ : Delivery) ∈ s.hwi.deliveries := List.contains_iff_mem

theorem gChange_eq (s : State) (u : TrunkId) (v : Bool) :
    s.gChange u v = (s.withRing u (if v then none else some 600)).officeChanged s u := rfl

/-- R99: a reserved trunk, no longer ring recently. -/
theorem officeChanged_reserved_free {s b : State} {u : TrunkId} (hrole : s.trunkRole u = .reserved)
    (hs : (s.trunk u).state = .idleReserved) (hring : s.ringRecently u = false) (hb : b.grantable .none u = false)
    : s.officeChanged b u = if (s.trunk u).barred || (s.trunk u).faulted then s else s.cause := by
  rw [officeChanged_eq b (by simp [hs]), reevaluate_stays (by simp [hrole])]
  have hmanaged : s.managed u = true := (managed_iff s u).2 (.inr hrole)
  split
  · next hno =>
    refine reportGrantable_no_gain fun m hm => ?_
    obtain ⟨-, hbar, hfault, -⟩ := (grantable_iff _ _ _).1 hm
    simp [hbar, hfault] at hno
  · next hfree =>
    rw [Bool.or_eq_true, not_or, Bool.not_eq_true, Bool.not_eq_true] at hfree
    exact reportGrantable_gain hb ((grantable_iff _ _ _).2 ⟨hmanaged, hfree.1, hfree.2, .inl ⟨hs, hring⟩⟩)

end Sys2Proof.Machine

namespace Sys2Proof.Proofs
open Sys2Proof Sys2Proof.Machine

/-- Settles O26: ring recently goes with the timer, and office use with it. -/
theorem ringFollowsG : Obligations.RingFollowsG := by
  intro s u hlow
  rw [exec_gChange hlow, exec_ringRecentExpiry hlow]
  refine ⟨fun s1 v htake hm hv => ?_, fun hdue hwait hcase => ?_, fun hdue hg hwait => ⟨fun hrole hs => ?_, fun hrole hs hl hss => ?_⟩,
    fun hdue hcase => ?_, fun hdue => by rw [ringRecentEnd_notDue hdue], fun hdue hs => ⟨fun hsig => ?_, ?_⟩⟩
  · have hs1 := takeDelivery_eq htake
    have htrunk : s1.trunk u = s.trunk u := by rw [hs1]; rfl
    have hrole1 : s1.trunkRole u = s.trunkRole u := by rw [hs1]; rfl
    have hring : (s1.withRing u (if v then none else some 600)).ringRecently u = true := by
      have hd : s1.debounced u .g = v := by rw [← hv, hs1]; rfl
      rw [withRing_ringRecently, hd]
      cases v <;> rfl
    have huse : (s1.withRing u (if v then none else some 600)).officeUse u = true := by
      rw [State.officeUse, hring, Bool.or_true]
    rw [onChange_of_taken htake, if_pos ((managed_taken htake u).trans hm), gChange_eq, ← htrunk]
    refine ⟨fun hcase => ?_, fun hs hrole => ?_⟩
    · rw [withRing_stays (fun _ => huse) (fun _ => ?_) fun _ h => by rw [hring] at h; cases h]
      · rfl
      · rcases hcase with h | h | h | h | h <;> simp [h]
    · rw [officeChanged_begins (s := s1.withRing u (if v then none else some 600)) (hrole1.trans hrole) (by rw [withRing_trunk]; exact hs) huse (withRing_grantable fun h => by
        rw [hs] at h; cases h)]
      have hclock : s1.clock = s.clock := by rw [hs1]
      rw [State.withRing, trunk_setTrunk_same, setTrunk_clock, hclock]
      exact congrArg Host.Outcome.next (congrArg (fun ts => ({ s1 with trunks := ts } : State)) (vput_vput _ _ _ _))
  · have hwaits : s.ringFallWaits u = true := (ringFallWaits_iff s u).2 hwait
    rw [ringRecentEnd_due hdue, withRing_stays (fun _ => by simp [withRing_officeUse, hwaits]) (fun hrole => ?_) fun _ h => ?_]
    · rfl
    · rcases hcase with ⟨h, -⟩ | ⟨-, h⟩ | h <;> simp_all
    · simp [withRing_ringRecently, hwaits] at h
  · rintro s2 rfl
    have hwaits : s.ringFallWaits u = false := by
      rw [Bool.eq_false_iff]
      exact mt (ringFallWaits_iff s u).1 hwait
    have hbefore : s.grantable .none u = false := by
      rw [Bool.eq_false_iff]
      intro h
      obtain ⟨-, -, -, h⟩ := (grantable_iff _ _ _).1 h
      simp [hs, State.ringRecently, hdue] at h
    rw [ringRecentEnd_due hdue, officeChanged_reserved_free (s := s.withRing u none) hrole (by rw [withRing_trunk]; exact hs)
      (by simp [withRing_ringRecently, hg, hwaits]) hbefore, withRing_trunk]
    rfl
  · rintro s2 rfl
    have hwaits : s.ringFallWaits u = false := by
      rw [Bool.eq_false_iff]
      exact mt (ringFallWaits_iff s u).1 hwait
    rw [ringRecentEnd_due hdue, officeChanged_ends (s := s.withRing u none) hrole (by rw [withRing_trunk]; exact hs)
      (by simp [withRing_officeUse, hg, hwaits, hl, hss]) hs, withRing_trunk, State.withRing]
    simp only [State.setTrunk, vput_vput]
  · rw [ringRecentEnd_due hdue, withRing_stays (fun _ => ?_) (fun hrole => ?_) fun h => ?_]
    · rfl
    · rcases hcase with ⟨-, -, h | h⟩ | h | h
      · simp [withRing_officeUse, h]
      · simp [withRing_officeUse, h]
      · simp_all
      · simp_all
    · rcases hcase with ⟨-, h, -⟩ | h | h <;> simp [h]
    · rcases hcase with ⟨-, h', -⟩ | h' | h' <;> simp [h'] at h
  · rw [ringRecentEnd_due hdue, withRing_stays (fun _ => ?_) (fun _ => by simp [hs]) fun h => ?_]
    · rfl
    · rcases hsig with h | h | h <;> simp [withRing_officeUse, h]
    · simp [hs] at h
  · intro e k hg hl hss hwait hh hp ha hk ho
    have hwaits : s.ringFallWaits u = false := by
      rw [Bool.eq_false_iff]
      exact mt (ringFallWaits_iff s u).1 hwait
    rw [ringRecentEnd_due hdue, officeChanged_over s (by rw [withRing_trunk]; exact hs)
      (by simp [withRing_officeUse, hg, hwaits, hl, hss]),
      endWarning_office (s := s.withRing u none) (by rw [withRing_trunk]; exact hh) hp ha hk ho, withRing_trunk]
    simp only [State.withRing, State.setTrunk, vput_vput]
    rfl

end Sys2Proof.Proofs

namespace Sys2Proof.Machine
open Sys2Proof Sys2Proof.Machine

/-! ### A guard that ends (R111) -/

theorem warningPartEnd_eq (s : State) (u : TrunkId) : s.warningPartEnd u = { s with hwi := { s.hwi with
    warnings := vput s.hwi.warnings u ((vget s.hwi.warnings u).turn s.siteOr) } } := rfl

theorem guardTimerEnd_due {s : State} {u : TrunkId} (hg : (s.trunk u).guard = .running 0)
    (hs : (s.trunk u).state = .cooldown) : s.guardTimerEnd u = s.leaveCooldown u :=
  if_pos (by rw [hg, hs]; rfl)

/-- A change of a trunk record that keeps its ring timer is no change of office use. -/
theorem setTrunk_officeUse {s : State} {u : TrunkId} {x : Trunk} (h : x.ringTimer = (s.trunk u).ringTimer) :
    (s.setTrunk u x).officeUse u = s.officeUse u := by
  simp [State.officeUse, State.ringRecently, State.debounced, State.ringFallWaits, h]

theorem setTrunk_ringRecently {s : State} {u : TrunkId} {x : Trunk} (h : x.ringTimer = (s.trunk u).ringTimer) :
    (s.setTrunk u x).ringRecently u = s.ringRecently u := by
  simp [State.ringRecently, State.debounced, State.ringFallWaits, h]

theorem leaveCooldown_unstaged {s : State} {u : TrunkId} (h : (vget s.tables.trunks u).staged = none) :
    s.leaveCooldown u = s.reportGrantable (s.setTrunk u
      (if s.trunkRole u = .reserved then { s.trunk u with state := .idleReserved, guard := .absent }
        else s.officeState u { s.trunk u with guard := .absent })) u := by
  unfold State.leaveCooldown State.endUse
  simp [Tables.stagedWrite, h]

theorem leaveCooldown_reserved {s : State} {u : TrunkId} (h : (vget s.tables.trunks u).staged = none)
    (hs : (s.trunk u).state = .cooldown) (hrole : s.trunkRole u = .reserved) {t : State}
    (ht : t = s.setTrunk u { s.trunk u with state := .idleReserved, guard := .absent }) :
    s.leaveCooldown u = if (s.trunk u).barred || (s.trunk u).faulted || s.ringRecently u then t else t.cause := by
  have htrunk : t.trunk u = { s.trunk u with state := .idleReserved, guard := .absent } := by rw [ht, trunk_setTrunk_same]
  have hring : t.ringRecently u = s.ringRecently u := by
    rw [ht]
    exact setTrunk_ringRecently rfl
  have hbefore : s.grantable .none u = false := by simp [grantable_false, hs]
  rw [leaveCooldown_unstaged h, if_pos hrole, ← ht]
  split
  · next hno =>
    refine reportGrantable_no_gain fun m hm => ?_
    obtain ⟨-, hbar, hfault, hst⟩ := (grantable_iff _ _ _).1 hm
    simp [htrunk, hring] at hbar hfault hst
    simp [hbar, hfault, hst] at hno
  · next hfree =>
    simp only [Bool.or_eq_true, not_or, Bool.not_eq_true] at hfree
    obtain ⟨⟨hbar, hfault⟩, hquiet⟩ := hfree
    refine reportGrantable_gain hbefore ((grantable_iff _ _ _).2 ⟨?_, by rw [htrunk]; exact hbar, by rw [htrunk]; exact hfault,
      .inl ⟨by rw [htrunk], hring.trans hquiet⟩⟩)
    rw [ht]
    exact (managed_iff s u).2 (.inr hrole)

theorem leaveCooldown_shared {s : State} {u : TrunkId} (h : (vget s.tables.trunks u).staged = none)
    (hs : (s.trunk u).state = .cooldown) (hrole : s.trunkRole u = .shared) {t : State}
    (ht : t = s.setTrunk u (s.officeState u { s.trunk u with guard := .absent })) :
    s.leaveCooldown u = if (s.trunk u).barred || (s.trunk u).faulted then t else t.cause := by
  have htrunk : t.trunk u = s.officeState u { s.trunk u with guard := .absent } := by rw [ht, trunk_setTrunk_same]
  have hflags : (t.trunk u).barred = (s.trunk u).barred ∧ (t.trunk u).faulted = (s.trunk u).faulted ∧
      ((t.trunk u).state = .idleOffice ∨ (t.trunk u).state = .officeBusy) := by
    rw [htrunk, State.officeState]
    split <;> simp
  obtain ⟨hbar, hfault, hst⟩ := hflags
  rw [leaveCooldown_unstaged h, if_neg (by rw [hrole]; decide), ← ht]
  split
  · next hno =>
    refine reportGrantable_no_gain fun m hm => ?_
    obtain ⟨-, hb, hf, -⟩ := (grantable_iff _ _ _).1 hm
    rw [← hbar, ← hfault, hb, hf] at hno
    cases hno
  · next hfree =>
    rw [Bool.or_eq_true, not_or, Bool.not_eq_true, Bool.not_eq_true] at hfree
    refine reportGrantable_gain (m := .immediate) (by simp [grantable_false, hs]) ((grantable_iff _ _ _).2
      ⟨?_, hbar.trans hfree.1, hfault.trans hfree.2, .inr (hst.imp id fun h => ⟨h, by decide⟩)⟩)
    rw [ht]
    exact shared_managed (s := s) hrole

theorem trunkEntryApplied_was_managed {s b : State} {u : TrunkId} (h : b.managed u = true) (role : TrunkRole) :
    s.trunkEntryApplied b u role = b.reportGrantable (s.setTrunk u (s.trunkOfRole u role true)) u := by
  simp [State.trunkEntryApplied, h]

/-- R116: what an applied trunk entry makes of the record of a trunk that was managed. -/
theorem applyStaged_trunk {s : State} {u : TrunkId} (hm : s.managed u = true) (en : TrunkEntry) :
    (s.applyStaged (.trunk u en)).trunk u = s.trunkOfRole u en.role true := by
  rw [State.applyStaged, tellReaders_trunk, State.tellOwner, trunkEntryApplied_was_managed hm,
    trunk_of_trunks (reportGrantable_trunks _ _ _), trunk_setTrunk_same]
  rfl

theorem applyStaged_trunk_other {s : State} {u w : TrunkId} (h : w ≠ u) (en : TrunkEntry) :
    (s.applyStaged (.trunk u en)).trunk w = s.trunk w := by
  rw [State.applyStaged, tellReaders_trunk, State.tellOwner, trunkEntryApplied_other _ _ _ h]
  rfl

theorem applyStaged_trunk_evr {s : State} {u : TrunkId} (hm : s.managed u = true) (en : TrunkEntry) :
    (s.applyStaged (.trunk u en)).evr = (s.raise (.tableApplied (.trunk u))).evr := by
  rw [State.applyStaged, tellReaders_evr, State.tellOwner, trunkEntryApplied_was_managed hm, reportGrantable_evr]
  rfl

theorem applyStaged_trunk_queue (s : State) (u : TrunkId) (en : TrunkEntry) :
    (s.applyStaged (.trunk u en)).queue = s.queue := by
  rw [State.applyStaged, tellReaders_queue _ _ fun _ _ h => by cases h]
  rfl

theorem applyStaged_hold (s : State) (w : Write) : (s.applyStaged w).dsc.hold = s.dsc.hold := tellReaders_hold _ _ _

theorem applyStaged_trunk_cmu (s : State) (u : TrunkId) (en : TrunkEntry) :
    (s.applyStaged (.trunk u en)).cmu.slot = s.cmu.slot ∧ (s.applyStaged (.trunk u en)).cmu.silent = s.cmu.silent := by
  rw [State.applyStaged, tellReaders_cmu, tellOwner_cmu (w := .trunk u en) nofun]
  exact ⟨rfl, rfl⟩

theorem reportGrantable_hold (b a : State) (u : TrunkId) : (b.reportGrantable a u).dsc.hold = a.dsc.hold := by
  unfold State.reportGrantable
  split <;> rfl

/-- R111: the record of a trunk whose guard has run out, before a staged write is looked at. -/
def State.warmed (s : State) (u : TrunkId) : Trunk :=
  if s.trunkRole u = .reserved then { s.trunk u with state := .idleReserved, guard := .absent }
  else s.officeState u { s.trunk u with guard := .absent }

theorem warmed_cases (s : State) (u : TrunkId) :
    s.warmed u = { s.trunk u with state := .idleReserved, guard := .absent } ∨
    s.warmed u = { s.trunk u with state := .officeBusy, guard := .absent, busySince := some s.clock } ∨
    s.warmed u = { s.trunk u with state := .idleOffice, guard := .absent, busySince := none } := by
  unfold State.warmed State.officeState
  split
  · exact .inl rfl
  · split
    · exact .inr (.inl rfl)
    · exact .inr (.inr rfl)

/-- R111, R145: a guard that runs out with a trunk write staged. -/
theorem leaveCooldown_staged {s : State} {u : TrunkId} {en : TrunkEntry}
    (h : (vget s.tables.trunks u).staged = some en) :
    s.leaveCooldown u = s.reportGrantable ((s.setTrunk u (s.warmed u)).applyStaged (.trunk u en)) u := by
  have huse : (s.setTrunk u (s.warmed u)).inUse (.trunk u) = false := by
    rw [State.inUse, State.trunkInUse, trunk_setTrunk_same]
    rcases warmed_cases s u with hw | hw | hw <;> rw [hw]
  have hstaged : (s.setTrunk u (s.warmed u)).tables.stagedWrite (.trunk u) = some (.trunk u en) := by
    simp [Tables.stagedWrite, h]
  show s.reportGrantable ((s.setTrunk u (s.warmed u)).endUse (.trunk u)) u = _
  simp only [State.endUse, hstaged, huse, Bool.false_eq_true, if_false]

/-- R116: the trunk record that a staged write of a trunk's entry leaves as the trunk's guard runs out. -/
theorem warmed_ofRole (s : State) (u : TrunkId) (role : TrunkRole) {kept : Trunk}
    (hkept : kept = { s.trunk u with holder := none, warnTimer := none, guard := .absent }) :
    (s.setTrunk u (s.warmed u)).trunkOfRole u role true = (match role with
      | .unused => { Trunk.reset with barred := (s.trunk u).barred }
      | .office => { Trunk.reset with barred := (s.trunk u).barred }
      | .reserved => { kept with state := .idleReserved, busySince := none }
      | .shared => if s.officeUse u then { kept with state := .officeBusy, busySince := some s.clock }
        else { kept with state := .idleOffice, busySince := none }) := by
  have huse : (s.setTrunk u (s.warmed u)).officeUse u = s.officeUse u := by
    apply setTrunk_officeUse
    rcases warmed_cases s u with h | h | h <;> rw [h]
  cases role <;> simp only [State.trunkOfRole, trunk_setTrunk_same, State.officeState, huse, setTrunk_clock, hkept, if_true]
    <;> rcases warmed_cases s u with h | h | h <;> rw [h]
    <;> rfl

end Sys2Proof.Machine

namespace Sys2Proof.Proofs
open Sys2Proof Sys2Proof.Machine

/-- Settles O29: the timers of a trunk, each at 0. -/
theorem trunkTimersEnd : Obligations.TrunkTimersEnd := by
  refine ⟨fun s u hlow => ⟨fun n f a h => ?_, fun h => ?_⟩, fun s u hlow => ⟨fun e c hs ht hh hp ha hc hoff => ?_,
    fun hs hg hst => ⟨fun hrole s2 h2 => ?_, fun hrole s2 h2 => ?_⟩, fun en hs hg hst hm => ?_⟩⟩
  · rw [exec_warningPartEnd hlow, warningPartEnd_eq, h]
    rfl
  · rw [exec_warningPartEnd hlow, warningPartEnd_eq, h]
    rfl
  · rw [exec_warningTimerExpiry hlow, State.warningTimerEnd, if_pos (by simp [hs, ht]), endWarning_office hh hp ha hc hoff]
  · rw [exec_guardTimerExpiry hlow, guardTimerEnd_due hg hs, leaveCooldown_reserved hst hs hrole h2]
  · rw [exec_guardTimerExpiry hlow, guardTimerEnd_due hg hs, leaveCooldown_shared hst hs hrole]
    rw [h2]
    rfl
  · have hm' : (s.setTrunk u (s.warmed u)).managed u = true := hm
    refine ⟨_, by rw [exec_guardTimerExpiry hlow, guardTimerEnd_due hg hs, leaveCooldown_staged hst], ?_⟩
    have htrunk := fun w => trunk_of_trunks (reportGrantable_trunks ((s.setTrunk u (s.warmed u)).applyStaged (.trunk u en)) s u) w
    have hdue := applyStaged_due (s.setTrunk u (s.warmed u)) (.trunk u en)
    obtain ⟨hslot, hsilent⟩ := applyStaged_trunk_cmu (s.setTrunk u (s.warmed u)) u en
    rw [setTrunk_dsc] at hdue
    refine ⟨by simp [State.applyStaged, Tables.apply], fun k => ?_, ?_, Nat.lt_of_lt_of_le hdue (reportGrantable_due _ _ _),
      fun kept hkept => ?_, fun w hw => ?_, ⟨by simp, by simp, by simp, by simp, by simp⟩, ?_, by simp, ?_, ?_, ?_⟩
    · rw [reportGrantable_evr, applyStaged_trunk_evr hm']
      exact vget_vput _ _ _ _
    · rw [reportGrantable_evr, applyStaged_trunk_evr hm']
      rfl
    · rw [htrunk, applyStaged_trunk hm']
      exact warmed_ofRole s u en.role hkept
    · rw [htrunk, applyStaged_trunk_other hw, trunk_setTrunk_other s _ hw]
    · rw [reportGrantable_queue, applyStaged_trunk_queue, setTrunk_queue]
    · rw [reportGrantable_hold, applyStaged_hold, setTrunk_dsc]
    · rw [reportGrantable_cmu, hslot, setTrunk_cmu]
    · rw [reportGrantable_cmu, hsilent, setTrunk_cmu]

end Sys2Proof.Proofs

namespace Sys2Proof.Machine
open Sys2Proof Sys2Proof.Machine

/-! ### Loop current at the holder (R53, R54, R58) -/

theorem call_cases {w : Work} {c : CallRecord} (h : w.call = some c) : w = .alertCall c ∨ w = .testCall c := by
  cases w with
  | alertCall d => exact .inl (congrArg _ (Option.some.inj h))
  | testCall d => exact .inr (congrArg _ (Option.some.inj h))
  | lineTest r => cases h
  | nothing => cases h

theorem isLineTest_of_call {w : Work} {c : CallRecord} (h : w.call = some c) : w.isLineTest = false := by
  rcases call_cases h with rfl | rfl <;> rfl

/-- What a LISTEN step loads depends on the tables alone. -/
theorem NamesTones.of_tables {s t : State} {roles : List (ToneRole × ToneId)} {x y : Engine}
    (h : NamesTones s roles x y) (ht : t.tables = s.tables) : NamesTones t roles x y := by
  have hload : ∀ k, t.loadable k = s.loadable k := fun k => by simp only [State.loadable, ht]
  obtain ⟨new, hdet, hnodup, hmem, hfresh⟩ := h.loaded
  refine ⟨by simp only [hload]; exact h.listening, new, hdet, hnodup, fun k => by rw [hmem, hload], fun l hl => ?_⟩
  obtain ⟨h1, h2, h3, h4, h5, h6, h7⟩ := hfresh l hl
  exact ⟨by rw [ht]; exact h1, h2, by rw [ht]; exact h3, h4, h5, h6, h7⟩

/-- R56, R79: an engine rewritten but for its loadings, and then its LISTEN step's entries loaded. -/
theorem named_after (s : State) (e : EngineId) (g : Engine → Engine) (roles : List (ToneRole × ToneId))
    (hd : (g (s.engine e)).detector = (s.engine e).detector) :
    ∃ y, (s.modEngine e g).nameTones e roles = s.setEngine e y ∧
      y = { g (s.engine e) with listening := y.listening, detector := y.detector } ∧
      NamesTones s roles (s.engine e) y := by
  have hspec := (nameTones_spec (s.modEngine e g) e roles).of_tables (t := s) (modEngine_tables _ _ _).symm
  rw [engine_modEngine_same] at hspec
  refine ⟨((s.modEngine e g).nameTones e roles).engine e, ?_, ?_, hspec.listening, ?_⟩
  · cases e <;> rfl
  · cases e <;> rfl
  · obtain ⟨new, hdet, hrest⟩ := hspec.loaded
    exact ⟨new, by rw [hdet, hd], hrest⟩

theorem enterDialTone_named (s : State) (e : EngineId) (hw : (s.engine e).work.isLineTest = false) :
    ∃ y, s.enterDialTone e = s.setEngine e y ∧
      y = { s.engine e with phase := .dialTone, step := .listen, phaseTimer := some 400,
                            generator := Generator.silent, listening := y.listening, detector := y.detector } ∧
      NamesTones s [(ToneRole.dialTone, s.siteOr.dialTone), (ToneRole.reorder, s.siteOr.reorderTone)] (s.engine e) y := by
  unfold State.enterDialTone
  rw [hw]
  exact named_after s e _ _ rfl

theorem enterDialTone_lineTest (s : State) (e : EngineId) (hw : (s.engine e).work.isLineTest = true) :
    ∃ y, s.enterDialTone e = s.setEngine e y ∧
      y = { s.engine e with phase := .dialTone, step := .listen, phaseTimer := some 400,
                            generator := Generator.silent, listening := y.listening, detector := y.detector } ∧
      NamesTones s [(ToneRole.dialTone, s.siteOr.dialTone)] (s.engine e) y := by
  unfold State.enterDialTone
  rw [hw]
  exact named_after s e _ _ rfl

theorem leaveSeize_blind {s : State} {e : EngineId} {c : CallRecord} (hc : (s.engine e).work.call = some c)
    (hb : (s.routeOr c.route).dialToneMode = .blind) :
    s.leaveSeize e = s.setEngine e { s.engine e with
      phase := .dialTone, step := .blind
      phaseTimer := some (300 - min (s.clock - (s.engine e).seizeStart.getD s.clock) 200) } := by
  rcases call_cases hc with hw | hw <;> (conv_lhs => unfold State.leaveSeize; simp only [hw, hb]) <;> rfl

theorem leaveSeize_wait {s : State} {e : EngineId} {c : CallRecord} (hc : (s.engine e).work.call = some c)
    (hm : (s.routeOr c.route).dialToneMode = .wait) : s.leaveSeize e = s.enterDialTone e := by
  unfold State.leaveSeize
  rcases call_cases hc with hw | hw <;> simp only [hw, hm]

/-- R155: the loop delay of a line test is noted as its loop comes. -/
theorem leaveSeize_lineTest {s : State} {e : EngineId} {r : LineTestRecord} (hw : (s.engine e).work = .lineTest r) :
    ∃ y, s.leaveSeize e = s.setEngine e y ∧
      y = { s.engine e with
        phase := .dialTone, step := .listen, phaseTimer := some 400, generator := Generator.silent
        work := .lineTest { r with loopDelay := min (s.clock - (s.engine e).seizeStart.getD s.clock) 200 }
        listening := y.listening, detector := y.detector } ∧
      NamesTones s [(ToneRole.dialTone, s.siteOr.dialTone)] (s.engine e) y := by
  have hwork : ((s.modEngine e fun x =>
      { x with work := x.work.mapTest fun r => { r with loopDelay := s.loopWait e } }).engine e).work.isLineTest = true := by
    rw [engine_modEngine_same, hw]
    rfl
  obtain ⟨y, hy, hyeq, hn⟩ := named_after s e (fun x =>
    { x with work := x.work.mapTest fun r => { r with loopDelay := s.loopWait e }, phase := .dialTone, step := .listen
             phaseTimer := some 400, generator := Generator.silent }) [(ToneRole.dialTone, s.siteOr.dialTone)] rfl
  refine ⟨y, ?_, ?_, hn⟩
  · rw [← hy]
    conv_lhs => unfold State.leaveSeize; simp only [hw]; unfold State.enterDialTone; rw [hwork, modEngine_modEngine]
    cases e <;> rfl
  · rw [hw] at hyeq
    exact hyeq

theorem onChange_lineEngine {s s1 : State} {u : TrunkId} {sig : LineSignal} {v : Bool}
    (h : s.takeDelivery u sig = some (v, s1)) (w : TrunkId) : s1.lineEngine w = s.lineEngine w := by
  rw [takeDelivery_eq h]
  rfl

theorem lineEngine_is_holder {s : State} {u : TrunkId} {e f : EngineId} (h : s.lineEngine u = some f)
    (hh : (s.trunk u).holder = some e) : f = e := by
  unfold State.lineEngine at h
  rw [hh] at h
  split at h
  · next _ _ hsame =>
    split at h
    · rw [← Option.some.inj h, Option.some.inj hsame]
    · cases h
  · cases h

end Sys2Proof.Machine

namespace Sys2Proof.Proofs
open Sys2Proof Sys2Proof.Machine

/-- Settles O24: L at the engine that holds the trunk, by its phase. -/
theorem loopCurrentAtHolder : Obligations.LoopCurrentAtHolder := by
  intro s s1 u e v hlow htake hm hs hh ha
  have hline : s1.lineEngine u = some e := (onChange_lineEngine htake u).trans (lineEngine_of_acts hs hh ha)
  have hrun : exec (.debouncedLChange u) s = .next (s1.loopChanged e u v) := by
    rw [exec_lChange hlow, onChange_of_taken htake, if_pos ((managed_taken htake u).trans hm), State.lChange, hline]
  have hs1 := takeDelivery_eq htake
  have heng : s1.engine e = s.engine e := by rw [hs1]; rfl
  have hsite : s1.siteOr = s.siteOr := by rw [hs1]; rfl
  have htables : s1.tables = s.tables := by rw [hs1]
  have hclock : s1.clock = s.clock := by rw [hs1]
  rw [hrun, State.loopChanged]
  simp only [heng]
  refine ⟨fun hp => ?_, fun hp => ?_, fun hp hv => ?_, fun hp hv hf => ?_⟩
  · rw [if_neg (fun h => by rw [h] at hp; cases hp), if_pos hp, hsite, ← heng]
    rfl
  · rw [if_neg (by simp [hp]), if_neg (by simp [hp, Phase.supervised])]
  · rw [if_pos hp, hv]
    rfl
  · have hf1 : s1.debounced u .f = false := by rw [← hf, hs1]; rfl
    rw [if_pos hp, hv, hf1]
    simp only [Bool.not_false, Bool.and_self, if_true]
    refine ⟨fun c hc => ⟨fun hb => ?_, fun hw => ?_⟩, fun r hr => ?_⟩
    · rw [leaveSeize_blind (by rw [heng]; exact hc) (by rw [← hb, hs1]; rfl), heng, hclock]
    · rw [leaveSeize_wait (by rw [heng]; exact hc) (by rw [← hw, hs1]; rfl)]
      obtain ⟨y, hy, hyeq, hn⟩ := enterDialTone_named s1 e (by rw [heng]; exact isLineTest_of_call hc)
      rw [hy]
      rw [heng] at hyeq hn
      rw [hsite] at hn
      exact ⟨y, rfl, hyeq, hn.of_tables htables.symm⟩
    · obtain ⟨y, hy, hyeq, hn⟩ := leaveSeize_lineTest (s := s1) (e := e) (r := r) (by rw [heng]; exact hr)
      rw [hy]
      rw [heng] at hyeq hn
      rw [hsite] at hn
      rw [hclock] at hyeq
      exact ⟨y, rfl, hyeq, hn.of_tables htables.symm⟩

/-- Settles O28: V against the polarity reference. -/
theorem polarityLossClearsCall : Obligations.PolarityLossClearsCall := by
  refine ⟨fun s s1 u v hlow htake hcase => ?_, fun s s1 u e v hlow htake hm hs hh ha => ?_⟩
  · have hv : s1.vChange u v = s1 := by
      rw [State.vChange, onChange_lineEngine htake]
      have hs1 := takeDelivery_eq htake
      rcases hcase with hnot | ⟨e, hh, hp, hpol⟩
      · rw [lineEngine_not_taken hnot]
      · have hpol1 : (s1.engine e).polRef = none := by rw [hs1]; exact hpol
        cases hl : s.lineEngine u with
        | none => rfl
        | some f =>
          obtain rfl : f = e := lineEngine_is_holder hl hh
          simp only [hpol1]
    rw [exec_vChange hlow, onChange_of_taken htake, hv, ite_self]
  · have hline : s1.lineEngine u = some e := (onChange_lineEngine htake u).trans (lineEngine_of_acts hs hh ha)
    have heng : s1.engine e = s.engine e := by rw [takeDelivery_eq htake]; rfl
    rw [exec_vChange hlow, onChange_of_taken htake, if_pos ((managed_taken htake u).trans hm), State.vChange, hline]
    dsimp only
    rw [heng]
    refine ⟨fun h => ?_, fun h hc => ?_⟩
    · rcases h with h | h <;> simp [h]
    · obtain ⟨c, hc⟩ := Option.isSome_iff_exists.1 hc
      refine ⟨s1.failCall e .farCleared, by simp [h], failCall_ended e s1 .farCleared .noLoop ?_⟩
      rw [heng]
      exact isLineTest_of_call hc

end Sys2Proof.Proofs

namespace Sys2Proof.Machine
open Sys2Proof Sys2Proof.Machine

/-! ### What an arrival reads and writes

An internal alert (R12) offered in two states that agree on the queue, the class entries, the routes' blocks per call, the hold and
the engines' calls does the same in both: an engine that is stopping has lost only what no arrival looks at. -/

/-- The two states agree on all that an arrival looks at; of engine `e` that is its work, and whether its phase lets a record join. -/
structure ArrivesAlike (e : EngineId) (s t : State) : Prop where
  queue : t.queue = s.queue
  classes : t.tables.classes = s.tables.classes
  routes : ∀ r, t.routeOr r = s.routeOr r
  hold : t.dsc.hold = s.dsc.hold
  phase : ((t.engine e).phase != .idle && (t.engine e).phase != .closing) =
    ((s.engine e).phase != .idle && (s.engine e).phase != .closing)
  work : (t.engine e).work = (s.engine e).work
  companion : t.engine (other e) = s.engine (other e)
  evicted : vget t.evr.records 4 = vget s.evr.records 4

theorem ArrivesAlike.refl (e : EngineId) (s : State) : ArrivesAlike e s s := ⟨rfl, rfl, fun _ => rfl, rfl, rfl, rfl, rfl, rfl⟩

theorem ArrivesAlike.trans {e : EngineId} {s m t : State} (h : ArrivesAlike e s m) (k : ArrivesAlike e m t) :
    ArrivesAlike e s t where
  queue := k.queue.trans h.queue
  classes := k.classes.trans h.classes
  routes r := (k.routes r).trans (h.routes r)
  hold := k.hold.trans h.hold
  phase := k.phase.trans h.phase
  work := k.work.trans h.work
  companion := k.companion.trans h.companion
  evicted := k.evicted.trans h.evicted

theorem other_other (e : EngineId) : other (other e) = e := by cases e <;> rfl

variable {e : EngineId} {s t : State}

theorem ArrivesAlike.works (h : ArrivesAlike e s t) (f : EngineId) :
    (t.engine f).work = (s.engine f).work ∧ ((t.engine f).phase != .idle && (t.engine f).phase != .closing) =
      ((s.engine f).phase != .idle && (s.engine f).phase != .closing) := by
  by_cases hf : f = e
  · subst hf
    exact ⟨h.work, h.phase⟩
  · rw [(other_or e f).resolve_left hf, h.companion]
    exact ⟨rfl, rfl⟩

theorem ArrivesAlike.findRecord (h : ArrivesAlike e s t) (g : Handle) : t.findRecord g = s.findRecord g := by
  rw [State.findRecord, h.queue, State.findRecord]

theorem ArrivesAlike.currentRoute (h : ArrivesAlike e s t) (r : Record) : t.currentRoute r = s.currentRoute r := by
  simp only [State.currentRoute, State.classEntry, h.classes]

theorem ArrivesAlike.joinableCall (h : ArrivesAlike e s t) (rt : RouteId) : t.joinableCall rt = s.joinableCall rt := by
  have hcall : t.callOn rt = s.callOn rt := by simp only [State.callOn, fun f => (h.works f).1]
  simp only [State.joinableCall, hcall, fun f => (h.works f).1, fun f => (h.works f).2, h.routes, h.hold]

theorem ArrivesAlike.with_queue (h : ArrivesAlike e s t) (q : List Record) :
    ArrivesAlike e { s with queue := q } { t with queue := q } :=
  ⟨rfl, h.classes, h.routes, h.hold, h.phase, h.work, h.companion, h.evicted⟩

theorem ArrivesAlike.updateRecord (h : ArrivesAlike e s t) (g : Handle) (f : Record → Record) :
    ArrivesAlike e (s.updateRecord g f) (t.updateRecord g f) := by
  rw [State.updateRecord, State.updateRecord, h.queue]
  exact h.with_queue _

theorem ArrivesAlike.removeRecord (h : ArrivesAlike e s t) (g : Handle) :
    ArrivesAlike e (s.removeRecord g) (t.removeRecord g) := by
  rw [State.removeRecord, State.removeRecord, h.queue]
  exact h.with_queue _

theorem ArrivesAlike.cause (h : ArrivesAlike e s t) : ArrivesAlike e s.cause t.cause :=
  ⟨h.queue, h.classes, h.routes, h.hold, h.phase, h.work, h.companion, h.evicted⟩

theorem ArrivesAlike.raise (h : ArrivesAlike e s t) (d : Detail) : ArrivesAlike e (s.raise d) (t.raise d) := by
  refine ⟨h.queue, h.classes, h.routes, h.hold, h.phase, h.work, h.companion, ?_⟩
  show vget (vput _ _ _) 4 = vget (vput _ _ _) 4
  by_cases hd : 4 = d.kind
  · rw [← hd, vget_vput_same, vget_vput_same, h.evicted]
  · rw [vget_vput_other _ _ hd, vget_vput_other _ _ hd, h.evicted]

theorem appendBlock_routeOr (s : State) (f : EngineId) (g : Handle) (r : RouteId) :
    (s.appendBlock f g).routeOr r = s.routeOr r := by cases f <;> rfl

theorem ArrivesAlike.appendBlock (h : ArrivesAlike e s t) (f : EngineId) (g : Handle) :
    ArrivesAlike e (s.appendBlock f g) (t.appendBlock f g) := by
  have hroutes : ∀ r, (t.appendBlock f g).routeOr r = (s.appendBlock f g).routeOr r := fun r => by
    rw [appendBlock_routeOr, appendBlock_routeOr, h.routes]
  by_cases hf : f = e
  · subst hf
    have hother : ∀ (m : State) (x : Engine), (m.setEngine f x).engine (other f) = m.engine (other f) := fun m x => by
      cases f <;> rfl
    refine ⟨?_, ?_, hroutes, ?_, ?_, ?_, ?_, ?_⟩ <;> simp only [State.appendBlock]
    · simpa using h.queue
    · simpa using h.classes
    · simpa using h.hold
    · simpa using h.phase
    · simp [h.work]
    · rw [hother, hother, h.companion]
    · simpa using h.evicted
  · obtain rfl := (other_or e f).resolve_left hf
    have hother : ∀ (m : State) (x : Engine), (m.setEngine (other e) x).engine e = m.engine e := fun m x => by
      cases e <;> rfl
    refine ⟨?_, ?_, hroutes, ?_, ?_, ?_, ?_, ?_⟩ <;> simp only [State.appendBlock]
    · simpa using h.queue
    · simpa using h.classes
    · simpa using h.hold
    · rw [hother, hother, h.phase]
    · rw [hother, hother, h.work]
    · simp [h.companion]
    · simpa using h.evicted

theorem ArrivesAlike.lateJoin (h : ArrivesAlike e s t) (g : Handle) : ArrivesAlike e (s.lateJoin g) (t.lateJoin g) := by
  unfold State.lateJoin State.takeRecord
  simp only [h.findRecord]
  cases hr : s.findRecord g with
  | none => exact h
  | some r =>
    simp only [h.currentRoute]
    cases hc : s.currentRoute r with
    | none => exact h
    | some rt =>
      simp only [h.joinableCall]
      cases s.joinableCall rt with
      | none => exact h
      | some f =>
        by_cases hw : r.state = .waiting
        · simp only [hw, if_true]
          exact (h.updateRecord g _).appendBlock f g
        · simp only [hw, if_false]
          exact h

theorem ArrivesAlike.reportWaiting (h : ArrivesAlike e s t) (g : Handle) :
    ArrivesAlike e (s.reportWaiting g) (t.reportWaiting g) := h.cause.lateJoin g

theorem ArrivesAlike.admitAlert (h : ArrivesAlike e s t) (k : Key) (c : ClassId) :
    (s.admitAlert k c = none ∧ t.admitAlert k c = none) ∨
    ∃ a b g, s.admitAlert k c = some (a, g) ∧ t.admitAlert k c = some (b, g) ∧ ArrivesAlike e a b := by
  have hfree : t.lowestFree = s.lowestFree := by simp only [State.lowestFree, h.queue]
  unfold State.admitAlert
  rw [hfree, h.queue]
  cases s.lowestFree with
  | none => exact .inl ⟨rfl, rfl⟩
  | some g => exact .inr ⟨_, _, g, rfl, rfl, (h.with_queue _).reportWaiting g⟩

/-- R12: the same arrival, decided alike. -/
theorem ArrivesAlike.internalAlert (h : ArrivesAlike e s t) (k : Key) (c : ClassId) :
    ArrivesAlike e (s.internalAlert k c) (t.internalAlert k c) := by
  have hwindow : ∀ n, t.cancelWindow n = s.cancelWindow n := fun n => by
    rw [State.cancelWindow, State.classEntry, h.classes]
    rfl
  have hcancel : t.cancelTarget k = s.cancelTarget k := by
    rw [State.cancelTarget, h.queue, State.cancelTarget]
    simp only [hwindow]
  have hevict : t.evictionCandidate = s.evictionCandidate := by simp only [State.evictionCandidate, h.queue]
  unfold State.internalAlert State.offer
  rw [hcancel, hevict, h.queue]
  split
  · exact h
  · split
    · exact h.updateRecord _ _
    · split
      · exact (h.updateRecord _ _).reportWaiting _
      · split
        · exact h.removeRecord _
        · split
          · rcases h.admitAlert k c with ⟨ha, hb⟩ | ⟨a, b, g, ha, hb, hab⟩
            · rw [ha, hb]
              exact h
            · rw [ha, hb]
              exact hab
          · split
            · next r _ =>
              split
              · rcases ((h.removeRecord r.handle).raise (.evicted r.handle r.key)).admitAlert k c with
                  ⟨ha, hb⟩ | ⟨a, b, g, ha, hb, hab⟩
                · rw [ha, hb]
                  exact h
                · rw [ha, hb]
                  exact hab
              · exact h
            · exact h

end Sys2Proof.Machine

namespace Sys2Proof.Machine
open Sys2Proof Sys2Proof.Machine

/-! ### Records looked up by handle -/

theorem findRecord_updateRecord (s : State) (h : Handle) {f : Record → Record} (hf : ∀ r, r.handle = h → (f r).handle = h)
    (g : Handle) : (s.updateRecord h f).findRecord g = if g = h then (s.findRecord h).map f else s.findRecord g := by
  have hkeep : ∀ r : Record, (if r.handle == h then f r else r).handle = r.handle := fun r => by
    split
    · next hr => rw [hf r (by simpa using hr), beq_iff_eq.1 hr]
    · rfl
  have hmap : ∀ q : List Record, (q.map fun r => if r.handle == h then f r else r).find? (fun r => r.handle == g) =
      (q.find? fun r => r.handle == g).map fun r => if r.handle == h then f r else r := fun q => by
    rw [List.find?_map]
    congr 2
    funext r
    exact congrArg (· == g) (hkeep r)
  show (s.queue.map _).find? _ = _
  rw [hmap]
  split
  · next hg =>
    subst hg
    show (s.findRecord g).map _ = _
    cases hr : s.findRecord g with
    | none => rfl
    | some r => simp [handle_of_findRecord hr]
  · next hg =>
    show (s.findRecord g).map _ = _
    cases hr : s.findRecord g with
    | none => rfl
    | some r => simp [handle_of_findRecord hr, hg]

theorem findRecord_removeRecord (s : State) (h g : Handle) :
    (s.removeRecord h).findRecord g = if g = h then none else s.findRecord g := by
  show (s.queue.filter _).find? _ = _
  rw [List.find?_filter]
  split
  · next hg =>
    subst hg
    rw [List.find?_eq_none]
    intro r _
    simp
  · next hg =>
    show _ = s.queue.find? _
    congr 1
    funext r
    by_cases hr : r.handle = g
    · simp [hr, hg]
    · simp [hr]

/-! ### A record that leaves a call that ends (R15, R16)

Record `r` at `h` leaves engine `e`'s call as `w`: it merges into the record of its key that stands outside a call, or stands as `w`,
or, reported WAITING, joins the other engine's call. -/

inductive Settlement (e : EngineId) (h : Handle) (r w : Record) (s t : State) : Prop
  | merged (v : Record) (hv : s.findRecord v.handle = some v) (hne : v.handle ≠ h) (hkey : v.key = r.key)
      (hout : v.state.isInCall = false)
      (hrec : ∀ g, t.findRecord g = if g = h then none else if g = v.handle
        then some { v with repeats := min (v.repeats + 1 + r.repeats) 15, isProtected := true } else s.findRecord g)
      (heng : t.engine (other e) = s.engine (other e))
  | stays (halone : ∀ g v, s.findRecord g = some v → g ≠ h → v.key = r.key → v.state.isInCall = true)
      (hrec : ∀ g, t.findRecord g = if g = h then some w else s.findRecord g)
      (heng : t.engine (other e) = s.engine (other e))
  | joins (halone : ∀ g v, s.findRecord g = some v → g ≠ h → v.key = r.key → v.state.isInCall = true)
      (hw : w.state = .waiting) (k : CallRecord) (hk : (s.engine (other e)).work = .alertCall k)
      (hrec : ∀ g, t.findRecord g = if g = h then some { w with state := .inCall (other e), isProtected := true }
        else s.findRecord g)
      (heng : (t.engine (other e)).work = .alertCall { k with blocks := k.blocks ++ [⟨some h, .queued⟩] })

theorem joined_findRecord (s : State) (h : Handle) (e : EngineId) (g : Handle) :
    (s.joined h e).findRecord g = if g = h then (s.findRecord h).map fun r => { r with state := .inCall e, isProtected := true }
      else s.findRecord g := by
  rw [← findRecord_updateRecord s h (f := fun r => { r with state := .inCall e, isProtected := true }) (fun _ hr => hr)]
  exact congrArg (List.find? _) (setEngine_queue _ _ _)

section
variable {e : EngineId} {h : Handle} {r w : Record} {s m t : State}

/-- R15, R16: what settling makes of a record that has just left its call. -/
theorem settleReturn_settlement (hn : (m.queue.map Record.handle).Nodup) (hr : m.findRecord h = some w)
    (hs : ∀ g, g ≠ h → m.findRecord g = s.findRecord g) (hk : w.key = r.key) (hrep : w.repeats = r.repeats)
    (he : m.engines = s.engines) (hp : (m.engine e).phase = .closing) : Settlement e h r w s (m.settleReturn h) := by
  have hwh := handle_of_findRecord hr
  unfold State.settleReturn
  rw [hr]
  dsimp only
  split
  · next v hv =>
    obtain ⟨hvm, hne, hkey, hout⟩ := mergeTarget_spec hv
    rw [hwh] at hne
    have hfound : m.findRecord v.handle = some v := findRecord_of_nodup hn hvm
    refine .merged v (by rw [← hs _ hne]; exact hfound) hne (hkey.trans hk) hout (fun g => ?_) ?_
    · rw [findRecord_removeRecord, findRecord_updateRecord m v.handle (f := fun v =>
        { v with repeats := min (v.repeats + 1 + w.repeats) 15, isProtected := true }) (fun _ hx => hx), hfound, hrep]
      by_cases hg : g = h
      · rw [if_pos hg, if_pos hg]
      · rw [if_neg hg, if_neg hg, hs _ hg]
        rfl
    · rw [removeRecord_engine, updateRecord_engine, engine_of_engines he]
  · next hnone =>
    have halone : ∀ g v, s.findRecord g = some v → g ≠ h → v.key = r.key → v.state.isInCall = true := fun g v hv hg hkey => by
      have hvm : v ∈ m.queue := findRecord_mem ((hs g hg).trans hv)
      have := List.find?_eq_none.1 hnone v hvm
      rw [hwh, hk, handle_of_findRecord hv] at this
      simpa [hg, hkey] using this
    have hstays : ∀ g, m.findRecord g = if g = h then some w else s.findRecord g := fun g => by
      by_cases hg : g = h
      · rw [if_pos hg, hg, hr]
      · rw [if_neg hg, hs _ hg]
    have heng : m.engine (other e) = s.engine (other e) := engine_of_engines he _
    split
    · next hwait =>
      rcases lateJoin_cases m.cause h with hj | ⟨r', e', c, hr', hw', hc, -, hp', hj⟩
      · rw [State.reportWaiting, hj]
        exact .stays halone hstays heng
      · obtain rfl := (other_or e e').resolve_left fun hf => hp' (by rw [hf, cause_engine]; exact hp)
        rw [cause_engine] at hc
        rw [State.reportWaiting, hj]
        refine .joins halone hwait c (by rw [← heng]; exact hc) (fun g => ?_) ?_
        · rw [joined_findRecord]
          show (if g = h then (m.findRecord h).map _ else m.findRecord g) = _
          by_cases hg : g = h
          · rw [if_pos hg, if_pos hg, hr]
            rfl
          · rw [if_neg hg, if_neg hg, hs _ hg]
        · rw [joined_engine_same (s := m.cause) hc]
    · exact .stays halone hstays heng

/-- R15, R45: an uncounted return. -/
theorem uncountedReturn_settlement (hs : QueueSound s) (hp : (s.engine e).phase = .closing) (hr : s.findRecord h = some r)
    (hc : r.state.isInCall = true) : Settlement e h r { r with state := .waiting } s (s.uncountedReturn h) := by
  have hlook := findRecord_updateRecord s h (f := fun r => { r with state := .waiting }) fun _ hx => hx
  have heq : s.uncountedReturn h = (s.updateRecord h fun r => { r with state := .waiting }).settleReturn h := by
    simp [State.uncountedReturn, hr, hc]
  rw [heq]
  refine settleReturn_settlement ?_ (by rw [hlook, if_pos rfl, hr]; rfl) (fun g hg => by rw [hlook, if_neg hg]) rfl rfl rfl hp
  have hmap := (RecordMap.ite (f := fun r => { r with state := .waiting }) ⟨fun _ => rfl, fun _ => rfl, fun _ => rfl⟩
    fun r => (r.handle == h) = true).map_handle s.queue
  rw [updateRecord_queue]
  rw [hmap]
  exact hs.1

theorem findRecord_raiseAll (ds : List Detail) (s : State) (g : Handle) : (ds.foldl State.raise s).findRecord g = s.findRecord g :=
  congrArg (List.find? _) (raiseAll_queue s ds)

/-- R17 to R19: a counted far-end failure. -/
theorem farEndFailure_settlement (hs : QueueSound s) (hp : (s.engine e).phase = .closing) (hr : s.findRecord h = some r)
    (hc : r.state.isInCall = true) (route : RouteId) :
    Settlement e h r (r.fail (s.classOr r.cls) (s.routeOr route).fallbackAfter route).1 s (s.farEndFailure h route) := by
  obtain ⟨hh, hk, hcls, -, hrep, -⟩ := r.fail_keeps (s.classOr r.cls) (s.routeOr route).fallbackAfter route
  generalize hy : r.fail (s.classOr r.cls) (s.routeOr route).fallbackAfter route = y at *
  have hlook := findRecord_updateRecord s h (f := fun _ => y.1) fun _ _ => hh.trans (handle_of_findRecord hr)
  have heq : s.farEndFailure h route = (y.2.foldl State.raise (s.updateRecord h fun _ => y.1)).settleReturn h := by
    simp [State.farEndFailure, hr, hc, hy]
  rw [heq]
  refine settleReturn_settlement ?_ (by rw [findRecord_raiseAll, hlook, if_pos rfl, hr]; rfl)
    (fun g hg => by rw [findRecord_raiseAll, hlook, if_neg hg]) hk hrep (by rw [raiseAll_engines, updateRecord_engines]) ?_
  · rw [raiseAll_queue, hs.replace_queue hr y.1,
      ((recordMap_replace hh hk hcls).ite fun x => (x.handle == h) = true).map_handle s.queue]
    exact hs.1
  · rw [engine_of_engines (raiseAll_engines _ _), updateRecord_engine]
    exact hp

end

/-! ### One record after another

`o` is the state whose tables the whole ending reads. -/

/-- Engine `e` is closing its call, with the tables of `o`. -/
structure State.EndsIn (s : State) (e : EngineId) (o : State) : Prop where
  queue : QueueSound s
  phase : (s.engine e).phase = .closing
  tables : s.tables = o.tables
  clock : s.clock = o.clock

/-- What one step of an ending does with the record at a handle, which leaves its call as `back` of it. -/
structure Settler (e : EngineId) (o : State) (back : Record → Record) (outcome : State → Handle → State) : Prop where
  keeps : ∀ s h, s.EndsIn e o → (outcome s h).EndsIn e o
  skips : ∀ s h, (∀ r, s.findRecord h = some r → r.state.isInCall = false) → outcome s h = s
  settles : ∀ s h r, s.EndsIn e o → s.findRecord h = some r → r.state.isInCall = true →
    Settlement e h r (back r) s (outcome s h)

theorem uncountedReturn_settler (e : EngineId) (o : State) :
    Settler e o (fun r => { r with state := .waiting }) State.uncountedReturn where
  keeps s h hs := ⟨(localKept_uncountedReturn s h).queue hs.queue, (uncountedReturn_joined s h e).phase_eq.trans hs.phase,
    (uncountedReturn_tables s h).trans hs.tables, (uncountedReturn_clock s h).trans hs.clock⟩
  skips s h hn := by
    unfold State.uncountedReturn
    split
    · next r hr => rw [hn r hr]; rfl
    · rfl
  settles s h r hs hr hc := uncountedReturn_settlement hs.queue hs.phase hr hc

theorem farEndFailure_settler (e : EngineId) (o : State) (route : RouteId) :
    Settler e o (fun r => (r.fail (o.classOr r.cls) (o.routeOr route).fallbackAfter route).1)
      (fun s h => s.farEndFailure h route) where
  keeps s h hs := ⟨(localKept_farEndFailure s h route).queue hs.queue, (farEndFailure_joined s h route e).phase_eq.trans hs.phase,
    (farEndFailure_tables s h route).trans hs.tables, (farEndFailure_clock s h route).trans hs.clock⟩
  skips s h hn := by
    unfold State.farEndFailure
    split
    · next r hr => rw [hn r hr]; rfl
    · rfl
  settles s h r hs hr hc := by
    have hclass : s.classOr r.cls = o.classOr r.cls := by
      rw [State.classOr, State.classEntry, hs.tables, hs.clock]
      rfl
    have hroute : s.routeOr route = o.routeOr route := by
      rw [State.routeOr, State.routeEntry, hs.tables, hs.clock]
      rfl
    have := farEndFailure_settlement hs.queue hs.phase hr hc route
    rwa [hclass, hroute] at this

/-- The records of one key are the same in both states. -/
def SameKey (k : Key) (s t : State) : Prop := ∀ g v, v.key = k → (t.findRecord g = some v ↔ s.findRecord g = some v)

theorem SameKey.trans {k : Key} {s m t : State} (h : SameKey k s m) (h' : SameKey k m t) : SameKey k s t :=
  fun g v hv => (h' g v hv).trans (h g v hv)

/-- Whatever stands at a handle afterwards has the key of what stood there. -/
def KeysFrom (s t : State) : Prop := ∀ g v, t.findRecord g = some v → ∃ v0, s.findRecord g = some v0 ∧ v0.key = v.key

/-- The record at `h` has left the call of engine `e` as `w`: it stands as `w`, but that another may have merged into it, or is in the
other engine's call, or has merged into another record. -/
def Returned (e : EngineId) (h : Handle) (w : Record) (t : State) : Prop :=
  (∃ n p, t.findRecord h = some { w with repeats := n, isProtected := p }) ∨
  (w.state = .waiting ∧ t.findRecord h = some { w with state := .inCall (other e), isProtected := true } ∧
    ∃ k, (t.engine (other e)).work = .alertCall k ∧ (⟨some h, .queued⟩ : BlockEntry) ∈ k.blocks) ∨
  MergedAway t h w.key

/-- A record of the key stands outside a call. -/
def OpenKey (k : Key) (s : State) : Prop := ∃ g v, s.findRecord g = some v ∧ v.key = k ∧ v.state.isInCall = false

section
variable {e : EngineId} {h : Handle} {r w : Record} {s t : State}

theorem Settlement.sameKey (hset : Settlement e h r w s t) (hr : s.findRecord h = some r) (hw : w.key = r.key) {k : Key}
    (hk : r.key ≠ k) : SameKey k s t := by
  have hat : ∀ (x : Option Record), (∀ y, x = some y → y.key = r.key) → (∀ g, t.findRecord g = if g = h then x else s.findRecord g) →
      SameKey k s t := fun x hx hrec g v hv => by
    rw [hrec]
    split
    · next hg =>
      rw [hg, hr]
      exact ⟨fun h' => absurd ((hx v h').symm.trans hv) hk, fun h' => absurd (Option.some.inj h' ▸ hv) hk⟩
    · rfl
  cases hset with
  | merged v hv hne hkey hout hrec heng =>
    intro g x hx
    rw [hrec]
    split
    · next hg =>
      rw [hg, hr]
      exact ⟨nofun, fun h' => absurd (Option.some.inj h' ▸ hx) hk⟩
    · split
      · next hg =>
        rw [hg, hv]
        refine ⟨fun h' => ?_, fun h' => ?_⟩
        · obtain rfl := Option.some.inj h'
          exact absurd (hkey.symm.trans hx) hk
        · obtain rfl := Option.some.inj h'
          exact absurd (hkey.symm.trans hx) hk
      · rfl
  | stays halone hrec heng =>
    refine hat (some w) (fun y hy => ?_) hrec
    rw [← Option.some.inj hy, hw]
  | joins halone hwait c hc hrec heng =>
    refine hat (some _) (fun y hy => ?_) hrec
    rw [← Option.some.inj hy]
    exact hw

theorem Settlement.keysFrom (hset : Settlement e h r w s t) (hr : s.findRecord h = some r) (hw : w.key = r.key) :
    KeysFrom s t := by
  intro g x hx
  cases hset with
  | merged v hv hne hkey hout hrec heng =>
    rw [hrec] at hx
    split at hx
    · cases hx
    · split at hx
      · next hg =>
        subst hg
        exact ⟨v, hv, by rw [← Option.some.inj hx]⟩
      · exact ⟨x, hx, rfl⟩
  | stays halone hrec heng =>
    rw [hrec] at hx
    split at hx
    · next hg =>
      subst hg
      exact ⟨r, hr, by rw [← Option.some.inj hx, hw]⟩
    · exact ⟨x, hx, rfl⟩
  | joins halone hwait c hc hrec heng =>
    rw [hrec] at hx
    split at hx
    · next hg =>
      subst hg
      refine ⟨r, hr, ?_⟩
      rw [← Option.some.inj hx]
      exact hw.symm
    · exact ⟨x, hx, rfl⟩

/-- Another record in a call is as it was. -/
theorem Settlement.inCall_kept (hset : Settlement e h r w s t) {g : Handle} (hg : g ≠ h) {x : Record}
    (hx : s.findRecord g = some x) (hc : x.state.isInCall = true) : t.findRecord g = some x := by
  cases hset with
  | merged v hv hne hkey hout hrec heng =>
    rw [hrec, if_neg hg, if_neg, hx]
    intro hgv
    rw [hgv, hv] at hx
    rw [← Option.some.inj hx, hout] at hc
    cases hc
  | stays halone hrec heng => rw [hrec, if_neg hg, hx]
  | joins halone hwait c hc' hrec heng => rw [hrec, if_neg hg, hx]

/-- A record outside a call stays there, but that another may merge into it. -/
theorem Settlement.open_kept (hset : Settlement e h r w s t) (hr : s.findRecord h = some r) (hc : r.state.isInCall = true)
    {g : Handle} {x : Record} (hx : s.findRecord g = some x) (hout : x.state.isInCall = false) :
    ∃ n p, t.findRecord g = some { x with repeats := n, isProtected := p } ∧ (x.isProtected = true → p = true) := by
  have hg : g ≠ h := fun hg => by
    rw [hg, hr] at hx
    rw [Option.some.inj hx, hout] at hc
    cases hc
  cases hset with
  | merged v hv hne hkey hout' hrec heng =>
    by_cases hgv : g = v.handle
    · rw [hgv, hv] at hx
      obtain rfl := Option.some.inj hx
      exact ⟨_, true, by rw [hrec, if_neg hg, if_pos hgv], fun _ => rfl⟩
    · exact ⟨x.repeats, x.isProtected, by rw [hrec, if_neg hg, if_neg hgv, hx], id⟩
  | stays halone hrec heng => exact ⟨x.repeats, x.isProtected, by rw [hrec, if_neg hg, hx], id⟩
  | joins halone hwait c hc' hrec heng => exact ⟨x.repeats, x.isProtected, by rw [hrec, if_neg hg, hx], id⟩

/-- No handle that names no record names one afterwards. -/
theorem Settlement.none_kept (hset : Settlement e h r w s t) (hr : s.findRecord h = some r) {g : Handle}
    (hx : s.findRecord g = none) : t.findRecord g = none := by
  have hg : g ≠ h := fun hg => by
    rw [hg, hr] at hx
    cases hx
  cases hset with
  | merged v hv hne hkey hout' hrec heng =>
    rw [hrec, if_neg hg, if_neg, hx]
    intro hgv
    rw [hgv, hv] at hx
    cases hx
  | stays halone hrec heng => rw [hrec, if_neg hg, hx]
  | joins halone hwait c hc' hrec heng => rw [hrec, if_neg hg, hx]

theorem Settlement.blocks_kept (hset : Settlement e h r w s t) {k : CallRecord} (hk : (s.engine (other e)).work = .alertCall k) :
    ∃ k', (t.engine (other e)).work = .alertCall k' ∧ ∀ b ∈ k.blocks, b ∈ k'.blocks := by
  cases hset with
  | merged v hv hne hkey hout' hrec heng => exact ⟨k, by rw [heng]; exact hk, fun _ hb => hb⟩
  | stays halone hrec heng => exact ⟨k, by rw [heng]; exact hk, fun _ hb => hb⟩
  | joins halone hwait c hc' hrec heng =>
    obtain rfl := Work.alertCall.inj (hc'.symm.trans hk)
    exact ⟨_, heng, fun b hb => List.mem_append_left _ hb⟩

theorem Settlement.no_call_kept (hset : Settlement e h r w s t) (hk : ∀ k, (s.engine (other e)).work ≠ .alertCall k) :
    ∀ k, (t.engine (other e)).work ≠ .alertCall k := by
  cases hset with
  | merged v hv hne hkey hout' hrec heng => rwa [heng]
  | stays halone hrec heng => rwa [heng]
  | joins halone hwait c hc' hrec heng => exact absurd hc' (hk c)

theorem mergedAway_iff {k : Key} (hq : QueueSound t) : MergedAway t h k ↔
    t.findRecord h = none ∧ ∃ g v, t.findRecord g = some v ∧ v.key = k ∧ g ≠ h ∧ v.isProtected = true ∧ v.state.isInCall = false := by
  refine and_congr_right fun _ => ⟨fun ⟨v, hv, hk, hne, hp, hout⟩ => ⟨v.handle, v, hq.findRecord_of_mem hv, hk, hne, hp, hout⟩,
    fun ⟨g, v, hv, hk, hne, hp, hout⟩ => ⟨v, findRecord_mem hv, hk, ?_, hp, hout⟩⟩
  rwa [handle_of_findRecord hv]

theorem Settlement.mergedAway_kept (hset : Settlement e h r w s t) (hs : QueueSound s) (ht : QueueSound t)
    (hr : s.findRecord h = some r) (hc : r.state.isInCall = true) {g : Handle} {k : Key} (hm : MergedAway s g k) :
    MergedAway t g k := by
  obtain ⟨hnone, x, v, hv, hk, hne, hp, hout⟩ := (mergedAway_iff hs).1 hm
  obtain ⟨n, p, hv', hp'⟩ := hset.open_kept hr hc hv hout
  exact (mergedAway_iff ht).2 ⟨hset.none_kept hr hnone, x, _, hv', hk, hne, hp' hp, hout⟩

/-- What has become of a record that has left stands while others leave. -/
theorem Settlement.returned_kept (hset : Settlement e h r w s t) (hs : QueueSound s) (ht : QueueSound t)
    (hr : s.findRecord h = some r) (hc : r.state.isInCall = true) {g : Handle} (hg : g ≠ h) {x : Record}
    (hx : x.state.isInCall = false) (hret : Returned e g x s) : Returned e g x t := by
  rcases hret with ⟨n, p, hfound⟩ | ⟨hwait, hfound, k, hk, hb⟩ | hm
  · obtain ⟨n', p', hfound', -⟩ := hset.open_kept hr hc hfound hx
    exact .inl ⟨n', p', hfound'⟩
  · obtain ⟨k', hk', hb'⟩ := hset.blocks_kept hk
    exact .inr (.inl ⟨hwait, hset.inCall_kept hg hfound rfl, k', hk', hb' _ hb⟩)
  · exact .inr (.inr (hset.mergedAway_kept hs ht hr hc hm))

theorem Settlement.openKey_kept (hset : Settlement e h r w s t) (hr : s.findRecord h = some r) (hc : r.state.isInCall = true)
    {k : Key} (ho : OpenKey k s) : OpenKey k t := by
  obtain ⟨g, v, hv, hk, hout⟩ := ho
  obtain ⟨n, p, hv', -⟩ := hset.open_kept hr hc hv hout
  exact ⟨g, _, hv', hk, hout⟩

/-- A record whose key stands open merges away. -/
theorem Settlement.merges (hset : Settlement e h r w s t) (ht : QueueSound t) (hr : s.findRecord h = some r)
    (hc : r.state.isInCall = true) (ho : OpenKey r.key s) : MergedAway t h r.key := by
  obtain ⟨g, v, hv, hk, hout⟩ := ho
  have hg : g ≠ h := fun hg => by
    rw [hg, hr] at hv
    rw [Option.some.inj hv, hout] at hc
    cases hc
  have hnot : ∀ (P : Prop), (∀ g v, s.findRecord g = some v → g ≠ h → v.key = r.key → v.state.isInCall = true) → P := fun P hal => by
    have := hal g v hv hg hk
    rw [hout] at this
    cases this
  cases hset with
  | merged v hv hne hkey hout' hrec heng =>
    have hv' := (hrec v.handle).trans (by rw [if_neg hne, if_pos rfl])
    exact (mergedAway_iff ht).2 ⟨by rw [hrec, if_pos rfl], v.handle, _, hv', hkey, hne, rfl, hout'⟩
  | stays halone hrec heng => exact hnot _ halone
  | joins halone hwait c hc' hrec heng => exact hnot _ halone

theorem Settlement.returns (hset : Settlement e h r w s t) (ht : QueueSound t) (hw : w.key = r.key) : Returned e h w t := by
  cases hset with
  | merged v hv hne hkey hout' hrec heng =>
    have hv' := (hrec v.handle).trans (by rw [if_neg hne, if_pos rfl])
    exact .inr (.inr ((mergedAway_iff ht).2 ⟨by rw [hrec, if_pos rfl], v.handle, _, hv', hkey.trans hw.symm, hne, rfl, hout'⟩))
  | stays halone hrec heng => exact .inl ⟨w.repeats, w.isProtected, by rw [hrec, if_pos rfl]⟩
  | joins halone hwait c hc' hrec heng =>
    exact .inr (.inl ⟨hwait, by rw [hrec, if_pos rfl], _, heng, List.mem_append_right _ (List.mem_singleton.2 rfl)⟩)

end

end Sys2Proof.Machine

namespace Sys2Proof.Machine
open Sys2Proof Sys2Proof.Machine

/-! ### The whole list of an ending's handles -/

theorem KeysFrom.refl (s : State) : KeysFrom s s := fun _ v hv => ⟨v, hv, rfl⟩

theorem SameKey.refl (k : Key) (s : State) : SameKey k s s := fun _ _ _ => .rfl

section
variable {e : EngineId} {o : State} {back : Record → Record} {outcome : State → Handle → State}

/-- A step of an ending: nothing, or the settlement of one record in a call. -/
theorem Settler.step (hS : Settler e o back outcome) {s : State} (hs : s.EndsIn e o) (h : Handle) :
    outcome s h = s ∨ ∃ r, s.findRecord h = some r ∧ r.state.isInCall = true ∧ Settlement e h r (back r) s (outcome s h) := by
  by_cases hn : ∀ r, s.findRecord h = some r → r.state.isInCall = false
  · exact .inl (hS.skips s h hn)
  · simp only [not_forall, Bool.not_eq_false] at hn
    obtain ⟨r, hr, hc⟩ := hn
    exact .inr ⟨r, hr, hc, hS.settles s h r hs hr hc⟩

theorem Settler.fold_keeps (hS : Settler e o back outcome) : ∀ (hs : List Handle) {s : State}, s.EndsIn e o →
    (hs.foldl outcome s).EndsIn e o
  | [], _, h => h
  | g :: hs, s, h => Settler.fold_keeps hS hs (hS.keeps s g h)

/-- What every step of an ending keeps, but those at handle `h`, the list of handles keeps. -/
theorem Settler.fold_induct (hS : Settler e o back outcome) {P : State → Prop} {h : Handle}
    (hstep : ∀ s t g r, s.EndsIn e o → t.EndsIn e o → g ≠ h → s.findRecord g = some r → r.state.isInCall = true →
      Settlement e g r (back r) s t → P s → P t) :
    ∀ (hs : List Handle) {s : State}, s.EndsIn e o → h ∉ hs → P s → P (hs.foldl outcome s)
  | [], _, _, _, hp => hp
  | g :: hs, s, hends, hn, hp => by
    rw [List.mem_cons, not_or] at hn
    obtain ⟨hg, hn⟩ := hn
    refine Settler.fold_induct hS hstep hs (hS.keeps s g hends) hn ?_
    rcases hS.step hends g with heq | ⟨r, hr, hc, hset⟩
    · rw [heq]
      exact hp
    · exact hstep s _ g r hends (hS.keeps s g hends) (Ne.symm hg) hr hc hset hp

/-- The records of a key that none of the leaving records has are as they were. -/
theorem Settler.fold_sameKey (hS : Settler e o back outcome) (hk : ∀ r, (back r).key = r.key) {k : Key} :
    ∀ (hs : List Handle) {s : State}, s.EndsIn e o → (∀ g ∈ hs, ∀ x, s.findRecord g = some x → x.key ≠ k) →
      SameKey k s (hs.foldl outcome s)
  | [], s, _, _ => .refl k s
  | g :: hs, s, hends, hne => by
    have hsame : SameKey k s (outcome s g) ∧ KeysFrom s (outcome s g) := by
      rcases hS.step hends g with heq | ⟨r, hr, hc, hset⟩
      · rw [heq]
        exact ⟨.refl k s, .refl s⟩
      · exact ⟨hset.sameKey hr (hk r) (hne g List.mem_cons_self r hr), hset.keysFrom hr (hk r)⟩
    refine hsame.1.trans (Settler.fold_sameKey hS hk hs (hS.keeps s g hends) fun g' hg' x hx => ?_)
    obtain ⟨x0, hx0, hkey⟩ := hsame.2 g' x hx
    rw [← hkey]
    exact hne g' (List.mem_cons_of_mem _ hg') x0 hx0

theorem Settler.fold_keysFrom (hS : Settler e o back outcome) (hk : ∀ r, (back r).key = r.key) :
    ∀ (hs : List Handle) {s : State}, s.EndsIn e o → KeysFrom s (hs.foldl outcome s)
  | [], s, _ => .refl s
  | g :: hs, s, hends => fun x v hv => by
    obtain ⟨v1, hv1, hk1⟩ := Settler.fold_keysFrom hS hk hs (hS.keeps s g hends) x v hv
    have hstep : KeysFrom s (outcome s g) := by
      rcases hS.step hends g with heq | ⟨r, hr, hc, hset⟩
      · rw [heq]
        exact .refl s
      · exact hset.keysFrom hr (hk r)
    obtain ⟨v0, hv0, hk0⟩ := hstep x v1 hv1
    exact ⟨v0, hv0, hk0.trans hk1⟩

end

/-- The states on the way of one handle's record through an ending: before its turn and after it. -/
structure Turn (e : EngineId) (o : State) (back : Record → Record) (outcome : State → Handle → State) (s : State) (hs : List Handle)
    (h : Handle) (r : Record) (pre post : List Handle) (a b : State) : Prop where
  split : hs = pre ++ h :: post
  before : a = pre.foldl outcome s
  after : hs.foldl outcome s = post.foldl outcome b
  notPre : h ∉ pre
  notPost : h ∉ post
  endsA : a.EndsIn e o
  endsB : b.EndsIn e o
  found : a.findRecord h = some r
  settled : Settlement e h r (back r) a b

section
variable {e : EngineId} {o : State} {back : Record → Record} {outcome : State → Handle → State} {s : State} {hs : List Handle}
  {h : Handle} {r : Record}

theorem Settler.turn (hS : Settler e o back outcome) (hends : s.EndsIn e o) (hh : h ∈ hs) (hcount : hs.count h = 1)
    (hr : s.findRecord h = some r) (hc : r.state.isInCall = true) :
    ∃ pre post a b, Turn e o back outcome s hs h r pre post a b := by
  obtain ⟨pre, post, rfl, hpre⟩ := List.eq_append_cons_of_mem hh
  have hpost : h ∉ post := by
    rw [List.count_append, List.count_cons_self, List.count_eq_zero.2 hpre] at hcount
    exact List.count_eq_zero.1 (by omega)
  have hfound : (pre.foldl outcome s).findRecord h = some r :=
    hS.fold_induct (P := fun t => t.findRecord h = some r)
      (fun _ _ g _ _ _ hg _ _ hset hp => hset.inCall_kept (Ne.symm hg) hp hc) pre hends hpre hr
  have hendsA := hS.fold_keeps pre hends
  exact ⟨pre, post, _, _, rfl, rfl, by rw [List.foldl_append, List.foldl_cons], hpre, hpost, hendsA, hS.keeps _ h hendsA, hfound,
    hS.settles _ h r hendsA hfound hc⟩

variable {pre post : List Handle} {a b : State}

theorem Turn.returned (T : Turn e o back outcome s hs h r pre post a b) (hS : Settler e o back outcome)
    (hk : ∀ r, (back r).key = r.key) (hout : ∀ r, (back r).state.isInCall = false) :
    Returned e h (back r) (hs.foldl outcome s) := by
  rw [T.after]
  exact hS.fold_induct (P := Returned e h (back r))
    (fun _ _ g r' hs ht hg hr' hc' hset hp => hset.returned_kept hs.queue ht.queue hr' hc' (Ne.symm hg) (hout r) hp)
    post T.endsB T.notPost (T.settled.returns T.endsB.queue (hk r))

/-- R16: with a record of the key outside a call, the one that leaves merges away. -/
theorem Turn.mergedAway (T : Turn e o back outcome s hs h r pre post a b) (hS : Settler e o back outcome) (hends : s.EndsIn e o)
    (hc : r.state.isInCall = true) (ho : OpenKey r.key s) : MergedAway (hs.foldl outcome s) h r.key := by
  have hopen : OpenKey r.key a := by
    rw [T.before]
    exact hS.fold_induct (P := OpenKey r.key) (fun _ _ _ _ _ _ _ hr' hc' hset hp => hset.openKey_kept hr' hc' hp) pre hends
      T.notPre ho
  rw [T.after]
  exact hS.fold_induct (P := fun t => MergedAway t h r.key)
    (fun _ _ _ _ hs ht _ hr' hc' hset hp => hset.mergedAway_kept hs.queue ht.queue hr' hc' hp) post T.endsB T.notPost
    (T.settled.merges T.endsB.queue T.found hc hopen)

/-- No other record of the key leaves: the records of the key are, before the turn, as in `s`, and after it as after the whole. -/
theorem Turn.sameKey (T : Turn e o back outcome s hs h r pre post a b) (hS : Settler e o back outcome) (hends : s.EndsIn e o)
    (hk : ∀ r, (back r).key = r.key) (hne : ∀ g ∈ hs, g ≠ h → ∀ x, s.findRecord g = some x → x.key ≠ r.key) :
    SameKey r.key s a ∧ SameKey r.key b (hs.foldl outcome s) := by
  have hab : KeysFrom s b := fun x v hv => by
    obtain ⟨v1, hv1, hk1⟩ := T.settled.keysFrom T.found (hk r) x v hv
    rw [T.before] at hv1
    obtain ⟨v0, hv0, hk0⟩ := hS.fold_keysFrom hk pre hends x v1 hv1
    exact ⟨v0, hv0, hk0.trans hk1⟩
  refine ⟨?_, ?_⟩
  · rw [T.before]
    refine hS.fold_sameKey hk pre hends fun g hg => hne g ?_ fun hgh => T.notPre (hgh ▸ hg)
    rw [T.split]
    exact List.mem_append_left _ hg
  · rw [T.after]
    refine hS.fold_sameKey hk post T.endsB fun g hg x hx => ?_
    obtain ⟨x0, hx0, hkey⟩ := hab g x hx
    rw [← hkey]
    refine hne g ?_ (fun hgh => T.notPost (hgh ▸ hg)) x0 hx0
    rw [T.split]
    exact List.mem_append_right _ (List.mem_cons_of_mem _ hg)

/-- R16: what the record that it merges into is then. -/
theorem Turn.merged_record (T : Turn e o back outcome s hs h r pre post a b) (hS : Settler e o back outcome) (hends : s.EndsIn e o)
    (hk : ∀ r, (back r).key = r.key) (hc : r.state.isInCall = true)
    (hne : ∀ g ∈ hs, g ≠ h → ∀ x, s.findRecord g = some x → x.key ≠ r.key) {v : Record} (hv : v ∈ s.queue) (hkey : v.key = r.key)
    (hout : v.state.isInCall = false) : (hs.foldl outcome s).findRecord v.handle =
      some { v with repeats := min (v.repeats + 1 + r.repeats) 15, isProtected := true } := by
  obtain ⟨hsa, hbt⟩ := T.sameKey hS hends hk hne
  have hva : a.findRecord v.handle = some v := (hsa _ _ hkey).2 (hends.queue.findRecord_of_mem hv)
  have hnot : (∀ g x, a.findRecord g = some x → g ≠ h → x.key = r.key → x.state.isInCall = true) → False := fun hal => by
    have := hal v.handle v hva (fun hg => by
      rw [hg, T.found] at hva
      rw [Option.some.inj hva, hout] at hc
      cases hc) hkey
    rw [hout] at this
    cases this
  cases T.settled with
  | merged v' hv' hne' hkey' hout' hrec heng =>
    have hsame : v' = v := T.endsA.queue.eq_of_key (findRecord_mem hv') (findRecord_mem hva) hout' hout (hkey'.trans hkey.symm)
    subst hsame
    have hvb := (hrec v'.handle).trans (by rw [if_neg hne', if_pos rfl])
    exact (hbt _ { v' with repeats := min (v'.repeats + 1 + r.repeats) 15, isProtected := true } hkey).2 hvb
  | stays halone hrec heng => exact (hnot halone).elim
  | joins halone hwait c hc' hrec heng => exact (hnot halone).elim

/-- A record alone with its key that no call takes stands as it has left its own. -/
theorem Turn.alone (T : Turn e o back outcome s hs h r pre post a b) (hS : Settler e o back outcome) (hends : s.EndsIn e o)
    (hk : ∀ r, (back r).key = r.key) (halone : ∀ v ∈ s.queue, v.key = r.key → v.handle = h)
    (hcall : (back r).state ≠ .waiting ∨ ∀ k, (s.engine (other e)).work ≠ .alertCall k) :
    (hs.foldl outcome s).findRecord h = some (back r) := by
  have hne : ∀ g ∈ hs, g ≠ h → ∀ x, s.findRecord g = some x → x.key ≠ r.key := fun g _ hg x hx hkey =>
    hg ((handle_of_findRecord hx).symm.trans (halone x (findRecord_mem hx) hkey))
  obtain ⟨hsa, hbt⟩ := T.sameKey hS hends hk hne
  refine (hbt h _ (hk r)).2 ?_
  cases T.settled with
  | merged v hv hne' hkey hout hrec heng =>
    exact absurd (halone v (findRecord_mem ((hsa _ _ hkey).1 hv)) hkey) hne'
  | stays _ hrec heng => rw [hrec, if_pos rfl]
  | joins _ hwait c hc hrec heng =>
    rcases hcall with hst | hno
    · exact absurd hwait hst
    · have : ∀ k, (a.engine (other e)).work ≠ .alertCall k := by
        rw [T.before]
        exact hS.fold_induct (P := fun t => ∀ k, (t.engine (other e)).work ≠ .alertCall k)
          (fun _ _ _ _ _ _ _ _ _ hset hp => hset.no_call_kept hp) pre hends T.notPre hno
      exact absurd hc (this c)

end

end Sys2Proof.Machine

namespace Sys2Proof.Machine
open Sys2Proof Sys2Proof.Machine

/-! ### What an engine that stops leaves as it was, to an arrival -/

/-- The end of a use tells TABLE_APPLIED, and a trunk that becomes managed its card fault; no other event. -/
theorem endUse_record (s : State) (ref : TableRef) {k : EventKind} (h5 : k ≠ 5) (h12 : k ≠ 12) :
    vget (s.endUse ref).evr.records k = vget s.evr.records k := by
  unfold State.endUse
  split
  · split
    · rfl
    · unfold State.applyStaged
      rw [tellReaders_record _ _ _ h5]
      exact vget_vput_other _ _ h12
  · rfl

theorem endUses_record (refs : List TableRef) (s : State) {k : EventKind} (h5 : k ≠ 5) (h12 : k ≠ 12) :
    vget (s.endUses refs).evr.records k = vget s.evr.records k :=
  foldl_keeps (fun s : State => vget s.evr.records k) State.endUse (fun s r => endUse_record s r h5 h12) refs s

theorem unload_record (s : State) (e : EngineId) (p : Loading → Bool) {k : EventKind} (h5 : k ≠ 5) (h12 : k ≠ 12) :
    vget (s.unload e p).evr.records k = vget s.evr.records k := by
  rw [unload_eq, endUses_record _ _ h5 h12, modEngine_evr]

theorem stopListening_record (s : State) (e : EngineId) {k : EventKind} (h5 : k ≠ 5) (h12 : k ≠ 12) :
    vget (s.stopListening e).evr.records k = vget s.evr.records k := by
  rw [State.stopListening, unload_record _ _ _ h5 h12, modEngine_evr]

theorem stopEngine_record (s : State) (e : EngineId) {k : EventKind} (h5 : k ≠ 5) (h12 : k ≠ 12) :
    vget (s.stopEngine e).evr.records k = vget s.evr.records k := by
  rw [State.stopEngine, stopListening_record _ _ h5 h12, modEngine_evr]

theorem releaseTrunk_record (s : State) (u : TrunkId) (e : EngineId) {k : EventKind} (h5 : k ≠ 5) (h12 : k ≠ 12) :
    vget (s.releaseTrunk u e).evr.records k = vget s.evr.records k := by
  unfold State.releaseTrunk
  split
  · split
    · rw [reportGrantable_evr, endUse_record _ _ h5 h12, setTrunk_evr]
    · rw [setTrunk_evr]
    · rfl
  · rfl

theorem close_record (s : State) (e : EngineId) {k : EventKind} (h5 : k ≠ 5) (h12 : k ≠ 12) :
    vget (s.close e).evr.records k = vget s.evr.records k := by
  rw [close_eq]
  show vget (s.emptied e).evr.records k = _
  rw [State.emptied, modEngine_evr, State.allReleased, endUses_record _ _ h5 h12, modEngine_evr]
  unfold State.trunkGivenBack
  split
  · rw [releaseTrunk_record _ _ _ h5 h12, modEngine_evr]
  · rw [modEngine_evr]

theorem stopEngine_same (s : State) (e : EngineId) : SameButToneTables s (s.stopEngine e) :=
  (stopListening_spec _ e).1.of_modEngine

theorem stopEngine_engine_other (s : State) (e : EngineId) : (s.stopEngine e).engine (other e) = s.engine (other e) := by
  rw [State.stopEngine, (stopListening_spec _ e).2.2.2 _ (other_ne e), engine_modEngine_other _ _ (other_ne e)]

theorem stopEngine_alike (s : State) (e : EngineId) : ArrivesAlike e s (s.stopEngine e) where
  queue := (stopEngine_same s e).queue
  classes := (stopEngine_same s e).classes
  routes r := by
    rw [State.routeOr, State.routeEntry, (stopEngine_same s e).routes, stopEngine_clock]
    rfl
  hold := (stopEngine_same s e).hold
  phase := by rw [stopEngine_engine]
  work := by rw [stopEngine_engine]
  companion := stopEngine_engine_other s e
  evicted := stopEngine_record s e (by decide) (by decide)

theorem ArrivesAlike.setTrunk {e : EngineId} {s t : State} (h : ArrivesAlike e s t) (u : TrunkId) (x : Trunk) :
    ArrivesAlike e s (t.setTrunk u x) :=
  ⟨h.queue, h.classes, h.routes, h.hold, h.phase, h.work, h.companion, h.evicted⟩

theorem ArrivesAlike.told {e : EngineId} {s t : State} (h : ArrivesAlike e s t) {d : Detail} (hd : d.kind ≠ 4) :
    ArrivesAlike e s (t.raise d) :=
  ⟨h.queue, h.classes, h.routes, h.hold, h.phase, h.work, h.companion, (vget_vput_other _ _ (Ne.symm hd)).trans h.evicted⟩

theorem ArrivesAlike.with_cmu {e : EngineId} {s t : State} (h : ArrivesAlike e s t) (m : Cmu) :
    ArrivesAlike e s { t with cmu := m } :=
  ⟨h.queue, h.classes, h.routes, h.hold, h.phase, h.work, h.companion, h.evicted⟩

/-! ### What an arrival leaves as it was (R12) -/

/-- An arrival leaves every record in a call as it was, and of the calls it changes at most one: a record that was in no call joins
it. -/
structure ArrivalKeeps (s t : State) : Prop where
  inCall : ∀ g r, s.findRecord g = some r → r.state.isInCall = true → t.findRecord g = some r
  joined : ∀ f c, (t.engine f).work = .alertCall c → ∃ b, (s.engine f).work = .alertCall b ∧
    (c = b ∨ ∃ g, c = { b with blocks := b.blocks ++ [⟨some g, .queued⟩] } ∧
      ∀ r, s.findRecord g = some r → r.state.isInCall = false)

theorem ArrivalKeeps.of_records {s t : State} (h : ∀ g r, s.findRecord g = some r → r.state.isInCall = true → t.findRecord g = some r)
    (he : t.engines = s.engines) : ArrivalKeeps s t :=
  ⟨h, fun f c hc => ⟨c, by rw [← engine_of_engines he]; exact hc, .inl rfl⟩⟩

/-- A record reported WAITING that was in no call before. -/
theorem ArrivalKeeps.report {s m : State} {g : Handle} (h : ∀ x r, s.findRecord x = some r → r.state.isInCall = true →
    m.findRecord x = some r) (he : m.engines = s.engines) (hg : ∀ r, s.findRecord g = some r → r.state.isInCall = false) :
    ArrivalKeeps s (m.reportWaiting g) := by
  rcases lateJoin_cases m.cause g with hj | ⟨r', f, c, hr', hw', hc, -, -, hj⟩
  · rw [State.reportWaiting, hj]
    exact .of_records h he
  · rw [cause_engine, engine_of_engines he] at hc
    rw [State.reportWaiting, hj]
    refine ⟨fun x r hx hin => ?_, fun f' c' hc' => ?_⟩
    · rw [joined_findRecord, if_neg]
      · exact h x r hx hin
      · intro hxg
        rw [hg r (hxg ▸ hx)] at hin
        cases hin
    · by_cases hf : f' = f
      · subst hf
        rw [joined_engine_same (s := m.cause) (by rw [cause_engine, engine_of_engines he]; exact hc)] at hc'
        exact ⟨c, hc, .inr ⟨g, (Work.alertCall.inj hc').symm, hg⟩⟩
      · rw [joined_engine_other _ _ hf, cause_engine, engine_of_engines he] at hc'
        exact ⟨c', hc', .inl rfl⟩

theorem findRecord_of_free {s : State} {h : Handle} (hf : ∀ r ∈ s.queue, r.handle ≠ h) : s.findRecord h = none :=
  List.find?_eq_none.2 fun r hr => by simpa using hf r hr

theorem findRecord_placed {s : State} {x : Record} {g : Handle} (hg : g ≠ x.handle) :
    ({ s with queue := placeRecord x s.queue } : State).findRecord g = s.findRecord g := by
  have hcons : ∀ q : List Record, (x :: q).find? (fun r => r.handle == g) = q.find? fun r => r.handle == g := fun q =>
    List.find?_cons_of_neg (by simpa using Ne.symm hg)
  show (placeRecord x s.queue).find? _ = s.queue.find? _
  rw [placeRecord, List.find?_append, hcons, ← List.find?_append, List.takeWhile_append_dropWhile]

theorem admit_keeps {s m t : State} {k : Key} {c : ClassId} {h : Handle} (ht : m.admitAlert k c = some (t, h))
    (hm : ∀ g r, s.findRecord g = some r → r.state.isInCall = true → m.findRecord g = some r) (he : m.engines = s.engines) :
    ArrivalKeeps s t := by
  obtain ⟨hfree, rfl⟩ := admit_eq ht
  have hnone : m.findRecord h = none := findRecord_of_free (lowestFree_free hfree)
  have hout : ∀ r, s.findRecord h = some r → r.state.isInCall = false := fun r hr => by
    by_contra hin
    have := hm h r hr (by simpa using hin)
    rw [hnone] at this
    cases this
  refine .report (fun g r hr hin => ?_) he hout
  rw [findRecord_placed fun hg => ?_]
  · exact hm g r hr hin
  · have hgh : g = h := hg
    rw [hout r (hgh ▸ hr)] at hin
    cases hin

theorem internalAlert_keeps (s : State) (hs : QueueSound s) (k : Key) (c : ClassId) : ArrivalKeeps s (s.internalAlert k c) := by
  have hremoved : ∀ {r : Record}, r ∈ s.queue → r.state.isInCall = false → ∀ g x, s.findRecord g = some x →
      x.state.isInCall = true → (s.removeRecord r.handle).findRecord g = some x := fun {r} hr hout g x hx hin => by
    rw [findRecord_removeRecord, if_neg, hx]
    intro hg
    rw [hg, hs.findRecord_of_mem hr] at hx
    rw [← Option.some.inj hx, hout] at hin
    cases hin
  have hupdated : ∀ {r : Record} {f : Record → Record}, r ∈ s.queue → r.state.isInCall = false →
      (∀ x, x.handle = r.handle → (f x).handle = r.handle) → ∀ g x, s.findRecord g = some x → x.state.isInCall = true →
      (s.updateRecord r.handle f).findRecord g = some x := fun {r f} hr hout hf g x hx hin => by
    rw [findRecord_updateRecord _ _ hf, if_neg, hx]
    intro hg
    rw [hg, hs.findRecord_of_mem hr] at hx
    rw [← Option.some.inj hx, hout] at hin
    cases hin
  have hself : ArrivalKeeps s s := .of_records (fun _ _ h _ => h) rfl
  unfold State.internalAlert State.offer
  split
  · exact hself
  · split
    · next r hr =>
      have hp := List.find?_some hr
      refine .of_records (hupdated (List.mem_of_find?_eq_some hr) ?_ fun _ h => h) rfl
      simp only [Bool.and_eq_true] at hp
      cases hst : r.state <;> simp [hst, RecordState.coalesces, RecordState.isInCall] at hp ⊢
    · split
      · next r hr =>
        have hp := List.find?_some hr
        have hout : r.state.isInCall = false := by
          simp only [Bool.and_eq_true, beq_iff_eq] at hp
          rw [hp.2]
          rfl
        have hm := List.mem_of_find?_eq_some hr
        refine .report (hupdated hm hout fun _ h => h) rfl fun x hx => ?_
        rw [hs.findRecord_of_mem hm] at hx
        rw [← Option.some.inj hx]
        exact hout
      · split
        · next r hr =>
          obtain ⟨hm, hst⟩ := cancelTarget_spec hr
          exact .of_records (hremoved hm (by rw [hst]; rfl)) rfl
        · split
          · split
            · next ht => exact admit_keeps ht (fun _ _ h _ => h) rfl
            · exact hself
          · split
            · next r hr =>
              have hout : r.state.isInCall = false := by
                have := List.find?_some hr
                simpa using this
              have hm : r ∈ s.queue := List.mem_reverse.1 (List.mem_of_find?_eq_some hr)
              split
              · split
                · next ht => exact admit_keeps ht (hremoved hm hout) rfl
                · exact hself
              · exact hself
            · exact hself

end Sys2Proof.Machine

namespace Sys2Proof.Machine
open Sys2Proof Sys2Proof.Machine

/-! ### The records of an alert call that ends -/

/-- R70: the call has ended: its entries name no record any more and the engine is CLOSING. -/
def State.callEmptied (s : State) (e : EngineId) : State :=
  s.modEngine e fun x =>
    { x.modCall (fun c => { c with blocks := c.blocks.map fun b => if b.open then ⟨none, .failed⟩ else b }) with phase := .closing }

theorem applyToBlocks_eq {s : State} {e : EngineId} {c : CallRecord} (hw : (s.engine e).work = .alertCall c)
    (outcome : State → Handle → State) : s.applyToBlocks e outcome = c.unsettled.foldl outcome (s.callEmptied e) := by
  rw [State.applyToBlocks, hw]
  rfl

theorem callEmptied_endsIn {s : State} (e : EngineId) (hs : QueueSound s) : (s.callEmptied e).EndsIn e s :=
  ⟨queueSound_congr (modEngine_queue _ _ _) hs, by rw [State.callEmptied, engine_modEngine_same], modEngine_tables _ _ _,
    modEngine_clock _ _ _⟩

/-- From `m`, in which engine `e` has call `c`, the call's records have been settled one after another, and `t` has the queue and the
other engine that this leaves. `o` is the state whose tables the settling reads. -/
structure CallSettled (e : EngineId) (o : State) (outcome : State → Handle → State) (m t : State) (c : CallRecord) : Prop where
  exists_start : ∃ b : State, b.EndsIn e o ∧ b.queue = m.queue ∧ b.engine (other e) = m.engine (other e) ∧
    t.queue = (c.unsettled.foldl outcome b).queue ∧ t.engine (other e) = (c.unsettled.foldl outcome b).engine (other e)

theorem findRecord_of_queue {s t : State} (h : t.queue = s.queue) (g : Handle) : t.findRecord g = s.findRecord g := by
  rw [State.findRecord, h, State.findRecord]

/-- The ending of an engine's call, as it stands in `p`, which agrees with `m` on all that an arrival looks at. -/
theorem ArrivesAlike.settled {e : EngineId} {m p t : State} (h : ArrivesAlike e m p) (hq : QueueSound m) {c : CallRecord}
    (hw : (m.engine e).work = .alertCall c) {outcome : State → Handle → State}
    (htq : t.queue = (p.applyToBlocks e outcome).queue)
    (hte : t.engine (other e) = (p.applyToBlocks e outcome).engine (other e)) : CallSettled e p outcome m t c := by
  rw [applyToBlocks_eq (h.work.trans hw)] at htq hte
  refine ⟨p.callEmptied e, callEmptied_endsIn e (queueSound_congr h.queue hq), (modEngine_queue _ _ _).trans h.queue, ?_, htq, hte⟩
  rw [State.callEmptied, engine_modEngine_other _ _ (other_ne e), h.companion]

section
variable {e : EngineId} {o m t : State} {back : Record → Record} {outcome : State → Handle → State} {c : CallRecord}

theorem mergedAway_congr {s t : State} (hq : t.queue = s.queue) {h : Handle} {k : Key} (hm : MergedAway s h k) :
    MergedAway t h k := by
  obtain ⟨hnone, hv⟩ := hm
  exact ⟨(findRecord_of_queue hq h).trans hnone, by rw [hq]; exact hv⟩

theorem CallSettled.others (hC : CallSettled e o outcome m t c) (hS : Settler e o back outcome)
    (hk : ∀ r, (back r).key = r.key) : OthersKept m t c := by
  obtain ⟨b, hends, hbq, -, htq, -⟩ := hC.exists_start
  intro x hx hne
  have hsame := hS.fold_sameKey hk (k := x.key) c.unsettled hends fun g hg r hr =>
    hne g hg r ((findRecord_of_queue hbq g).symm.trans hr)
  have hxb : b.findRecord x.handle = some x := hends.queue.findRecord_of_mem (by rw [hbq]; exact hx)
  rw [htq]
  exact findRecord_mem ((hsame _ _ rfl).2 hxb)

theorem CallSettled.returned (hC : CallSettled e o outcome m t c) (hS : Settler e o back outcome)
    (hk : ∀ r, (back r).key = r.key) (hout : ∀ r, (back r).state.isInCall = false) {h : Handle} (hh : h ∈ c.unsettled)
    (hcount : c.unsettled.count h = 1) {r : Record} (hr : m.findRecord h = some r) (hc : r.state.isInCall = true) :
    Returned e h (back r) t := by
  obtain ⟨b, hends, hbq, -, htq, hte⟩ := hC.exists_start
  obtain ⟨pre, post, a, b', T⟩ := hS.turn hends hh hcount ((findRecord_of_queue hbq h).trans hr) hc
  rcases T.returned hS hk hout with ⟨n, p, hf⟩ | ⟨hw, hf, k, hkk, hb⟩ | hm
  · exact .inl ⟨n, p, (findRecord_of_queue htq h).trans hf⟩
  · exact .inr (.inl ⟨hw, (findRecord_of_queue htq h).trans hf, k, by rw [hte]; exact hkk, hb⟩)
  · exact .inr (.inr (mergedAway_congr htq hm))

theorem CallSettled.survives (hC : CallSettled e o outcome m t c) (hS : Settler e o back outcome)
    (hk : ∀ r, (back r).key = r.key) {h : Handle} (hh : h ∈ c.unsettled)
    (hcount : c.unsettled.count h = 1) {r : Record} (hr : m.findRecord h = some r) (hc : r.state.isInCall = true) :
    Survives m t c h r := by
  obtain ⟨b, hends, hbq, -, htq, hte⟩ := hC.exists_start
  obtain ⟨pre, post, a, b', T⟩ := hS.turn hends hh hcount ((findRecord_of_queue hbq h).trans hr) hc
  intro v hv hkey hout
  rw [← hbq] at hv
  refine ⟨mergedAway_congr htq (T.mergedAway hS hends hc ⟨v.handle, v, hends.queue.findRecord_of_mem hv, hkey, hout⟩), fun hne => ?_⟩
  rw [findRecord_of_queue htq]
  exact T.merged_record hS hends hk hc (fun g hg hgh x hx => hne g hg hgh x ((findRecord_of_queue hbq g).symm.trans hx)) hv hkey hout

theorem CallSettled.alone (hC : CallSettled e o outcome m t c) (hS : Settler e o back outcome)
    (hk : ∀ r, (back r).key = r.key) {h : Handle} (hh : h ∈ c.unsettled)
    (hcount : c.unsettled.count h = 1) {r : Record} (hr : m.findRecord h = some r) (hc : r.state.isInCall = true)
    (halone : ∀ v ∈ m.queue, v.key = r.key → v.handle = h)
    (hcall : (back r).state ≠ .waiting ∨ ∀ k, (m.engine (other e)).work ≠ .alertCall k) : t.findRecord h = some (back r) := by
  obtain ⟨b, hends, hbq, hbe, htq, hte⟩ := hC.exists_start
  obtain ⟨pre, post, a, b', T⟩ := hS.turn hends hh hcount ((findRecord_of_queue hbq h).trans hr) hc
  rw [findRecord_of_queue htq]
  exact T.alone hS hends hk (by rw [hbq]; exact halone) (by rw [hbe]; exact hcall)

end

/-! ### The line's second failure offers its alert (R113, R12) -/

theorem setTrunk_setTrunk (s : State) (u : TrunkId) (x y : Trunk) : (s.setTrunk u x).setTrunk u y = s.setTrunk u y := by
  simp only [State.setTrunk, vput_vput]

theorem countLineFailure_second {s : State} {u : TrunkId} (h1 : 1 ≤ (s.trunk u).failures) (hf : (s.trunk u).faulted = false) :
    ∃ x : Trunk, s.countLineFailure u = ((s.setTrunk u x).raise (.trunkFault u .count)).internalAlert (s.trunkKey u .new) classTrouble := by
  have hn : min ((s.trunk u).failures + 1) 2 = 2 := by omega
  refine ⟨{ s.trunk u with failures := 2, faulted := true }, ?_⟩
  unfold State.countLineFailure
  dsimp only
  rw [hn, hf]
  simp only [decide_true, Bool.not_false, Bool.and_self, if_true, trunk_setTrunk_same, setTrunk_setTrunk]

theorem countLineFailure_below {s : State} {u : TrunkId} (h : (s.trunk u).failures = 0 ∨ (s.trunk u).faulted = true) :
    s.countLineFailure u = s.setTrunk u { s.trunk u with failures := min ((s.trunk u).failures + 1) 2 } := by
  unfold State.countLineFailure
  dsimp only
  rw [if_neg]
  rcases h with h | h <;> simp [h]

theorem OnlyJoined.isAlertCall_eq {x y : Engine} (h : OnlyJoined x y) : y.work.isAlertCall = x.work.isAlertCall := by
  obtain ⟨hs, rfl⟩ := h
  cases x.work <;> rfl

theorem applyToBlocks_evr (s : State) (e : EngineId) : (s.applyToBlocks e State.uncountedReturn).evr = s.evr := returnBlocks_evr s e

theorem failureTold_record (s : State) (e : EngineId) {cause : CallOutcome} (hl : cause.isLine = true) :
    vget (s.failureTold e cause).evr.records 4 = vget s.evr.records 4 := by
  unfold State.failureTold
  split
  · rw [State.applyFailure, hl, if_pos rfl]
    exact (vget_vput_other _ _ (show (4 : EventKind) ≠ 1 by decide)).trans (congrArg (fun v : Evr => vget v.records 4) (applyToBlocks_evr s e))
  · exact vget_vput_other _ _ (show (4 : EventKind) ≠ 9 by decide)
  · rfl

theorem failureTold_not_alert {s : State} {e : EngineId} (h : (s.engine e).work.isAlertCall = false) (cause : CallOutcome) :
    (s.failureTold e cause).queue = s.queue ∧ (s.failureTold e cause).engines = s.engines := by
  unfold State.failureTold
  split
  · next c hw =>
    rw [hw] at h
    cases h
  · exact ⟨testOutcome_queue _ _ _, testOutcome_engines _ _ _⟩
  · exact ⟨rfl, rfl⟩

theorem failureTold_line {s : State} {e : EngineId} {c : CallRecord} (hw : (s.engine e).work = .alertCall c) {cause : CallOutcome}
    (hl : cause.isLine = true) : s.failureTold e cause =
      (s.applyToBlocks e State.uncountedReturn).raise (.callFailed c.route c.trunk cause) := by
  rw [State.failureTold, hw]
  simp only [State.applyFailure, hl, if_true]

/-- R70, R113: the engine's call fails on the line, as it stands in `p`. -/
theorem ArrivesAlike.lineFails {e : EngineId} {m p : State} (h : ArrivesAlike e m p) (hq : QueueSound m) {c : CallRecord}
    (hw : (m.engine e).work = .alertCall c) {cause : CallOutcome} (hl : cause.isLine = true) :
    CallSettled e p State.uncountedReturn m ((p.failureTold e cause).close e) c := by
  rw [failureTold_line (h.work.trans hw) hl]
  refine h.settled hq hw ?_ ?_
  · rw [close_queue]
    rfl
  · rw [close_engine_other _ (other_ne e)]
    rfl

theorem siteOr_of_edge {s t : State} (h : t.tables.site = s.tables.site) (hc : t.clock = s.clock) : t.siteOr = s.siteOr := by
  rw [State.siteOr, h, hc, State.siteOr]

/-- The state after a failure of the line has been counted, as an arrival sees it. -/
theorem lineCounted_alike {s : State} {e : EngineId} {u : TrunkId} (hu : (s.engine e).work.trunk = some u) {cause : CallOutcome}
    (hl : cause.isLine = true) :
    (((s.trunk u).failures = 0 ∨ (s.trunk u).faulted = true) → ArrivesAlike e s ((s.stopEngine e).lineCounted e cause)) ∧
    (1 ≤ (s.trunk u).failures → (s.trunk u).faulted = false →
      ArrivesAlike e (s.internalAlert ⟨0, u.val + 1, s.siteOr.lineFaultEvent, .new⟩ 4) ((s.stopEngine e).lineCounted e cause)) := by
  have hstop := stopEngine_alike s e
  have htrunk : (s.stopEngine e).trunk u = s.trunk u := by
    rw [State.stopEngine, trunk_of_trunks (stopListening_spec _ e).2.1]
    exact modEngine_trunk _ _ _ _
  have hcounted : (s.stopEngine e).lineCounted e cause = (s.stopEngine e).countLineFailure u := by
    rw [State.lineCounted, hl, if_pos rfl, stopEngine_work, hu]
  have hsite : (s.stopEngine e).siteOr = s.siteOr := siteOr_of_edge (stopEngine_same s e).site (stopEngine_clock s e)
  rw [hcounted]
  refine ⟨fun h => ?_, fun h1 hf => ?_⟩
  · rw [countLineFailure_below (by rw [htrunk]; exact h)]
    exact hstop.setTrunk _ _
  · obtain ⟨x, hx⟩ := countLineFailure_second (s := s.stopEngine e) (u := u) (by rw [htrunk]; exact h1) (by rw [htrunk]; exact hf)
    have hkey : (s.stopEngine e).trunkKey u .new = ⟨0, u.val + 1, s.siteOr.lineFaultEvent, .new⟩ := by rw [State.trunkKey, hsite]
    rw [hx, hkey]
    exact ((hstop.setTrunk u x).told (d := .trunkFault u .count) (show (5 : EventKind) ≠ 4 by decide)).internalAlert _ _

/-- R113, R12: what a line failure whose alert is offered leaves of the queue beside it. -/
theorem failCall_alerts {s : State} {e : EngineId} {u : TrunkId} (hu : (s.engine e).work.trunk = some u) {cause : CallOutcome}
    (hl : cause.isLine = true) (h1 : 1 ≤ (s.trunk u).failures) (hf : (s.trunk u).faulted = false) :
    LineAlertOffered u .new e s (s.failCall e cause) := by
  rintro m rfl
  have halike := (lineCounted_alike (cause := cause) hu hl).2 h1 hf
  rw [failCall_eq]
  refine ⟨?_, fun hno => ?_, fun hq c hc => ?_⟩
  · rw [close_record _ _ (by decide) (by decide), failureTold_record _ _ hl, halike.evicted]
  · have hnot : (((s.stopEngine e).lineCounted e cause).engine e).work.isAlertCall = false := by
      rw [halike.work, (internalAlert_joined s _ _ e).isAlertCall_eq]
      exact hno
    obtain ⟨hqueue, heng⟩ := failureTold_not_alert hnot cause
    exact ⟨by rw [close_queue, hqueue, halike.queue],
      by rw [close_engine_other _ (other_ne e), engine_of_engines heng, halike.companion]⟩
  · exact (halike.lineFails ((localKept_internalAlert s _ _).queue hq) hc hl).others (uncountedReturn_settler e _) fun _ => rfl

theorem call_trunk {w : Work} {c : CallRecord} (h : w.call = some c) : w.trunk = some c.trunk := by
  rcases call_cases h with rfl | rfl <;> rfl

theorem failCall_secondAlerts (s : State) (e : EngineId) {cause : CallOutcome} (hl : cause.isLine = true) :
    SecondFailureAlerts e s (s.failCall e cause) := fun _ hc h1 hf => failCall_alerts (call_trunk hc) hl h1 hf

theorem failWork_secondAlerts (s : State) (e : EngineId) {cause : CallOutcome} (hl : cause.isLine = true) (code : TestCode) :
    SecondFailureAlerts e s (s.failWork e cause code) := by
  intro c hc
  rw [State.failWork, isLineTest_of_call hc]
  exact failCall_secondAlerts s e hl c hc

/-- What an arrival cannot tell from `s` offers the same alert. -/
theorem LineAlertOffered.of_alike {u : TrunkId} {q : Qualifier} {e : EngineId} {s m t : State} (h : ArrivesAlike e s m)
    (hsite : m.siteOr = s.siteOr) (k : LineAlertOffered u q e m t) : LineAlertOffered u q e s t := by
  rintro a rfl
  have hk := k _ rfl
  rw [hsite] at hk
  have hab := h.internalAlert ⟨0, u.val + 1, s.siteOr.lineFaultEvent, q⟩ 4
  obtain ⟨hrec, hno, hothers⟩ := hk
  refine ⟨hrec.trans hab.evicted, fun hn => ?_, fun hq c hc => ?_⟩
  · obtain ⟨h1, h2⟩ := hno (by rw [h.work]; exact hn)
    exact ⟨h1.trans hab.queue, h2.trans hab.companion⟩
  · have hkept := hothers (queueSound_congr h.queue hq) c (by rw [hab.work]; exact hc)
    intro x hx hne
    exact hkept x (by rw [hab.queue]; exact hx) fun g hg r hr => hne g hg r (by rw [← hab.findRecord]; exact hr)

theorem SecondFailureAlerts.of_alike {e : EngineId} {s m t : State} (h : ArrivesAlike e s m) (hsite : m.siteOr = s.siteOr)
    (htrunk : ∀ u, m.trunk u = s.trunk u) (k : SecondFailureAlerts e m t) : SecondFailureAlerts e s t := fun c hc h1 hf =>
  (k c (by rw [h.work]; exact hc) (by rw [htrunk]; exact h1) (by rw [htrunk]; exact hf)).of_alike h hsite

end Sys2Proof.Machine

namespace Sys2Proof.Machine
open Sys2Proof Sys2Proof.Machine

/-! ### A card fault (R114, R55) -/

theorem cardFaultRise_eq {s : State} {u : TrunkId} (hm : s.managed u = true) :
    s.cardFaultRise u = if (s.trunk u).faulted then s
      else (s.setTrunk u { s.trunk u with faulted := true }).raise (.trunkFault u .card) := by
  unfold State.cardFaultRise
  rw [hm]
  cases (s.trunk u).faulted <;> rfl

theorem cardFaultRise_trunk_same {s : State} {u : TrunkId} (hm : s.managed u = true) :
    (s.cardFaultRise u).trunk u = { s.trunk u with faulted := true } := by
  rw [cardFaultRise_eq hm]
  split
  · next hf => rw [← hf]
  · rw [raise_trunk, trunk_setTrunk_same]

theorem fChange_true (s : State) (u : TrunkId) (order : FaultOrder) : s.fChange u order true =
    match order with
    | .trunkFirst => (s.cardFaultRise u).faultAtEngine u
    | .engineFirst => (s.faultAtEngine u).cardFaultRise u := rfl

/-- R55: an engine whose trunk is not TAKEN, or that is in CLEAR, takes no card fault. -/
theorem faultAtEngine_none {s : State} {u : TrunkId} (h : (s.trunk u).state ≠ .taken ∨
    ∃ e, (s.trunk u).holder = some e ∧ (s.engine e).phase = .clear) : s.faultAtEngine u = s := by
  unfold State.faultAtEngine
  rcases h with hnot | ⟨e, hh, hp⟩
  · rw [lineEngine_not_taken hnot]
  · cases hl : s.lineEngine u with
    | none => rfl
    | some f =>
      obtain rfl := lineEngine_is_holder hl hh
      simp [hp, Phase.supervised]

theorem faultAtEngine_ends {s : State} {u : TrunkId} {e : EngineId} (hs : (s.trunk u).state = .taken)
    (hh : (s.trunk u).holder = some e) (ha : (s.engine e).acts = true)
    (hp : (s.engine e).phase = .seize ∨ (s.engine e).phase.supervised = true) :
    s.faultAtEngine u = s.failWork e .cardFault .cardFault := by
  unfold State.faultAtEngine
  rw [lineEngine_of_acts hs hh ha]
  rcases hp with hp | hp <;> simp [hp]

theorem work_of_trunk {w : Work} {u : TrunkId} (h : w.trunk = some u) :
    (∃ c, w.call = some c ∧ c.trunk = u) ∨ ∃ r, w = .lineTest r ∧ r.trunk = u := by
  cases w with
  | alertCall c => exact .inl ⟨c, rfl, Option.some.inj h⟩
  | testCall c => exact .inl ⟨c, rfl, Option.some.inj h⟩
  | lineTest r => exact .inr ⟨r, rfl, Option.some.inj h⟩
  | nothing => cases h

/-- A card fault that ends a call or a test on a faulted trunk leaves it faulted. -/
theorem Ended.stays_faulted {e : EngineId} {s t : State} {u : TrunkId} (h : Ended e .cardFault .cardFault s t)
    (hu : (s.engine e).work.trunk = some u) (hs : (s.trunk u).state = .taken) (hh : (s.trunk u).holder = some e)
    (hf : (s.trunk u).faulted = true) : (t.trunk u).faulted = true := by
  obtain ⟨-, hcall, hwork⟩ := h
  rcases work_of_trunk hu with ⟨c, hc, rfl⟩ | ⟨r, hr, rfl⟩
  · rw [(((hcall c hc hs hh).1 (by decide)).below (.inr hf)).1, hf]
  · rw [hr] at hwork
    obtain ⟨-, -, -, htest⟩ := hwork
    exact ((htest hs hh).2.1 (by decide)).2.1

/-- The trunk of a call that ends, TAKEN, is in COOLDOWN without a holder, in the role it had. -/
theorem Closed.trunk_released {e : EngineId} {s t : State} {u : TrunkId} (h : Closed e s t)
    (hu : (s.engine e).work.trunk = some u) (hs : (s.trunk u).state = .taken) (hh : (s.trunk u).holder = some e) :
    (t.trunk u).state = .cooldown ∧ (t.trunk u).holder = none ∧ t.trunkRole u = s.trunkRole u := by
  obtain ⟨hst, hho, -⟩ := (h.released u hu hh).1 hs
  refine ⟨hst, hho, ?_⟩
  have hnot : s.lastUse e (.trunk u) = false := by simp [State.lastUse, hs]
  have hentry : vget t.tables.trunks u = vget s.tables.trunks u := by
    rw [h.uses.trunks u, hnot, Staged.settled]
    split <;> rfl
  rw [State.trunkRole, hentry]
  rfl

end Sys2Proof.Machine

namespace Sys2Proof.Proofs
open Sys2Proof Sys2Proof.Machine

/-- Settles O27: F at the trunk and at the engine that holds it, in either order. -/
theorem cardFaultRises : Obligations.CardFaultRises := by
  intro s s1 u order v hlow htake hm
  have hm1 : s1.managed u = true := (managed_taken htake u).trans hm
  have htrunk : s1.trunk u = s.trunk u := by rw [takeDelivery_eq htake]; rfl
  have heng : ∀ f, s1.engine f = s.engine f := fun f => by rw [takeDelivery_eq htake]; rfl
  have hrise : s1.cardFaultRise u = if (s.trunk u).faulted then s1
      else (s1.setTrunk u { s.trunk u with faulted := true }).raise (.trunkFault u .card) := by
    rw [cardFaultRise_eq hm1, htrunk]
  have htrunkR : (s1.cardFaultRise u).trunk u = { s.trunk u with faulted := true } := by
    rw [cardFaultRise_trunk_same hm1, htrunk]
  have hengR : ∀ f, (s1.cardFaultRise u).engine f = s.engine f := fun f => by
    rw [← heng f]
    exact engine_of_engines (cardFaultRise_engines _ _) f
  have hrun : exec (.debouncedFChange u order) s = .next (s1.fChange u order v) := by
    rw [exec_fChange hlow, onChange_of_taken htake, if_pos hm1]
  have hquiet : v = true → (s.trunk u).state ≠ .taken ∨ (∃ e, (s.trunk u).holder = some e ∧ (s.engine e).phase = .clear) →
      s1.fChange u order v = s1.cardFaultRise u := by
    rintro rfl hcase
    rw [fChange_true]
    cases order with
    | trunkFirst =>
      refine faultAtEngine_none ?_
      rw [htrunkR]
      exact hcase.imp id fun ⟨e, hh, hp⟩ => ⟨e, hh, by rw [hengR]; exact hp⟩
    | engineFirst =>
      refine congrArg (State.cardFaultRise · u) (faultAtEngine_none ?_)
      rw [htrunk]
      exact hcase.imp id fun ⟨e, hh, hp⟩ => ⟨e, hh, by rw [heng]; exact hp⟩
  rw [hrun]
  refine ⟨fun hv => ?_, fun hv hs => ?_, fun e hv hs hh hp => ?_, fun e hv hs hh ha hp hu => ?_⟩
  · rw [hv]
    rfl
  · rw [hquiet hv (.inl hs), hrise]
  · rw [hquiet hv (.inr ⟨e, hh, hp⟩), hrise]
  · subst hv
    refine ⟨_, rfl, ?_⟩
    rw [fChange_true]
    cases order with
    | trunkFirst =>
      have hends : (s1.cardFaultRise u).faultAtEngine u = (s1.cardFaultRise u).failWork e .cardFault .cardFault :=
        faultAtEngine_ends (by rw [htrunkR]; exact hs) (by rw [htrunkR]; exact hh) (by rw [hengR]; exact ha)
          (by rw [hengR]; exact hp)
      dsimp only
      rw [hends]
      have hE := failWork_ended e (s1.cardFaultRise u) .cardFault .cardFault
      have huR : ((s1.cardFaultRise u).engine e).work.trunk = some u := by rw [hengR]; exact hu
      have hsR : ((s1.cardFaultRise u).trunk u).state = .taken := by rw [htrunkR]; exact hs
      have hhR : ((s1.cardFaultRise u).trunk u).holder = some e := by rw [htrunkR]; exact hh
      obtain ⟨hst, hho, -⟩ := hE.1.trunk_released huR hsR hhR
      refine ⟨hE.stays_faulted huR hsR hhR (by rw [htrunkR]), hst, hho, fun _ => ?_, nofun, ?_⟩
      · rw [← hrise]
        exact hE
      · rw [hE.1.engine, hengR]
    | engineFirst =>
      have hends : s1.faultAtEngine u = s1.failWork e .cardFault .cardFault :=
        faultAtEngine_ends (by rw [htrunk]; exact hs) (by rw [htrunk]; exact hh) (by rw [heng]; exact ha)
          (by rw [heng]; exact hp)
      dsimp only
      rw [hends]
      have hE := failWork_ended e s1 .cardFault .cardFault
      obtain ⟨hst, hho, hrole⟩ := hE.1.trunk_released (by rw [heng]; exact hu) (by rw [htrunk]; exact hs)
        (by rw [htrunk]; exact hh)
      have hmE : (s1.failWork e .cardFault .cardFault).managed u = true := by
        rw [State.managed, hrole]
        exact hm1
      rw [cardFaultRise_trunk_same hmE]
      refine ⟨rfl, hst, hho, nofun, fun _ => ⟨_, hE, failWork_secondAlerts s1 e rfl _, cardFaultRise_eq hmE⟩, ?_⟩
      rw [engine_of_engines (cardFaultRise_engines _ _), hE.1.engine, heng]

end Sys2Proof.Proofs

namespace Sys2Proof.Machine
open Sys2Proof Sys2Proof.Machine

/-! ### Timers and reports that an engine takes -/

theorem onTimer_due {s : State} {e : EngineId} {here : Engine → Bool} (act : State → State) (ha : (s.engine e).acts = true)
    (ht : (s.engine e).phaseTimer = some 0) (hh : here (s.engine e) = true) : s.onTimer e here act = act s :=
  if_pos (by simp [ha, ht, hh])

theorem onMatched_foreign {s : State} {e : EngineId} {tone : ToneId} (here : Engine → Bool) (act : State → ToneRole → State)
    (ha : (s.engine e).acts = true) (hm : Report.matched tone ∈ (s.engine e).reports) (hr : (s.engine e).roleOf tone = none) :
    s.onMatched e tone here act = s.dropReport e (.matched tone) := by
  unfold State.onMatched
  dsimp only
  rw [if_pos (by simpa [ha] using hm), hr]

theorem onMatched_taken {s : State} {e : EngineId} {tone : ToneId} {here : Engine → Bool} (act : State → ToneRole → State)
    {role : ToneRole} (ha : (s.engine e).acts = true) (hm : Report.matched tone ∈ (s.engine e).reports)
    (hr : (s.engine e).roleOf tone = some role) (hh : here (s.engine e) = true) :
    s.onMatched e tone here act = act (s.dropReport e (.matched tone)) role := by
  unfold State.onMatched
  dsimp only
  rw [if_pos (by simpa [ha] using hm), hr]
  exact if_pos hh

theorem dropReport_eq (s : State) (e : EngineId) (r : Report) :
    s.dropReport e r = s.setEngine e { s.engine e with reports := (s.engine e).reports.erase r } := rfl

/-! ### TABLE_APPLIED stays pending through an ending -/

theorem stopEngine_keepsTold (s : State) (e : EngineId) : KeepsTold s (s.stopEngine e) := (ending_stopEngine e s).told

theorem close_keepsTold (s : State) (e : EngineId) : KeepsTold s (s.close e) := (close_uses e s).2

theorem failCall_keepsTold (s : State) (e : EngineId) (cause : CallOutcome) : KeepsTold s (s.failCall e cause) := by
  have hcount : KeepsTold (s.stopEngine e) ((s.stopEngine e).lineCounted e cause) := by
    unfold State.lineCounted
    split
    · split
      · next u hu => exact (ending_countLineFailure e _ hu).told
      · exact .refl _
    · exact .refl _
  have htold : KeepsTold ((s.stopEngine e).lineCounted e cause) (((s.stopEngine e).lineCounted e cause).failureTold e cause) := by
    unfold State.failureTold
    split
    · exact (ending_applyFailure e _ _ _).told
    · exact (ending_testOutcome e _ _ _).told
    · exact .refl _
  rw [failCall_eq]
  exact (((stopEngine_keepsTold s e).trans hcount).trans htold).trans (close_keepsTold _ e)

theorem preemptStop_keepsTold (s : State) (e : EngineId) : KeepsTold s (s.preemptStop e) := by
  unfold State.preemptStop
  refine ((stopEngine_keepsTold s e).trans ?_).trans (close_keepsTold _ e)
  split
  · exact keepsTold_of_evr (congrArg Evr.records (applyToBlocks_evr _ _))
  · exact (ending_testOutcome e _ _ _).told
  · exact .refl _

/-! ### Endings told from a state just before -/

/-- Reports, listening and timers are nothing that an ending tells. -/
theorem Ended.of_modEngine {e : EngineId} {cause : CallOutcome} {code : TestCode} {s t : State} {g : Engine → Engine}
    (hw : (g (s.engine e)).work = (s.engine e).work) (hd : (g (s.engine e)).detector = (s.engine e).detector)
    (hk : KeepsTold (s.modEngine e g) t) (h : Ended e cause code (s.modEngine e g) t) : Ended e cause code s t := by
  obtain ⟨h1, h2, h3, h4⟩ := before_modEngine e s g hw (by rw [hd]) fun ref => by
    cases ref <;> simp [Engine.names, hw, hd]
  exact Ended.of_before h1 h2 h3 h4 hk h

theorem Stopped.of_modEngine {e : EngineId} {outcome : CallOutcome} {s t : State} {g : Engine → Engine}
    (hw : (g (s.engine e)).work = (s.engine e).work) (hd : (g (s.engine e)).detector = (s.engine e).detector)
    (hk : KeepsTold (s.modEngine e g) t) (h : Stopped e outcome (s.modEngine e g) t) : Stopped e outcome s t := by
  obtain ⟨h1, h2, h3, h4⟩ := before_modEngine e s g hw (by rw [hd]) fun ref => by
    cases ref <;> simp [Engine.names, hw, hd]
  exact Stopped.of_before h1 h2 h3 h4 hk h

/-- Everything an engine has loaded is released, and its reports with it, once. -/
theorem stopListening_twice (s : State) (e : EngineId) : (s.stopListening e).stopListening e = s.stopListening e := by
  have hstop := release_all_stopping (s.engine e).detector
  have heng := stopListening_engine s e
  have hlive : ∀ l ∈ ((s.stopListening e).engine e).detector.loadings, l.live = false := by
    rw [heng]
    intro l hl
    simp [Loading.live, hstop l hl]
  have hrefs : ((s.stopListening e).engine e).detector.releasedRefs (fun _ => true) = [] := by
    have hnone : ∀ p : Loading → Bool, ((((s.stopListening e).engine e).detector.loadings.filter fun l => l.live && true).any p) = false :=
      fun p => by
        rw [List.filter_eq_nil_iff.2 fun l hl => by simp [hlive l hl]]
        rfl
    simp only [Detector.releasedRefs, hnone, List.filter_false, List.map_nil, List.append_nil]
  have hrelease : ((s.stopListening e).engine e).detector.release (fun _ => true) = ((s.stopListening e).engine e).detector := by
    rw [heng]
    exact release_stopping hstop _
  generalize hm : s.stopListening e = m at *
  rw [State.stopListening, unload_eq, engine_modEngine_same, modEngine_modEngine]
  show ((m.modEngine e _).endUses ((m.engine e).detector.releasedRefs fun _ => true)) = m
  rw [hrefs]
  have hsame : ({ m.engine e with listening := [], reports := [] } : Engine) = m.engine e := by rw [heng]
  show m.setEngine e { m.engine e with
    listening := [], reports := [], detector := (m.engine e).detector.release fun _ => true } = m
  rw [hrelease]
  show m.setEngine e { m.engine e with listening := [], reports := [] } = m
  rw [hsame]
  cases e <;> rfl

theorem SameButToneTables.then_modEngine {s t : State} {e : EngineId} {f : Engine → Engine} (h : SameButToneTables s t) :
    SameButToneTables s (t.modEngine e f) := by
  have hdsc := modEngine_dsc t e f
  have hcmu := modEngine_cmu t e f
  have hevr := modEngine_evr t e f
  have htab := modEngine_tables t e f
  obtain ⟨⟨a1, a2, a3, a4, a5⟩, a6, a7, a8, a9, a10, a11, a12, a13, a14, a15, a16, a17, a18, a19, a20⟩ := h
  exact ⟨⟨(modEngine_pending ..).trans a1, (modEngine_resetLow ..).trans a2, (modEngine_clock ..).trans a3,
      (modEngine_hwi ..).trans a4, (modEngine_ccp ..).trans a5⟩, (modEngine_queue ..).trans a6, by rw [htab]; exact a7,
    by rw [htab]; exact a8, by rw [htab]; exact a9, by rw [htab]; exact a10, by rw [hdsc]; exact a11, by rw [hdsc]; exact a12,
    by rw [hdsc]; exact a13, by rw [hdsc]; exact a14, by rw [hcmu]; exact a15, by rw [hcmu]; exact a16, by rw [hcmu]; exact a17,
    by rw [hcmu]; exact a18, fun k hk => by rw [hevr]; exact a19 k hk, by rw [hevr]; exact a20⟩

/-- R68: a guard begins: everything is unloaded. -/
theorem enterGuard_spec (s : State) (e : EngineId) (step : Step) :
    SameButToneTables s (s.enterGuard e step) ∧ UsesEnded (s.lastLoaded e) s (s.enterGuard e step) ∧
      (s.enterGuard e step).trunks = s.trunks ∧ (∀ f, f ≠ e → (s.enterGuard e step).engine f = s.engine f) ∧
      (s.enterGuard e step).engine e = (s.engine e).guarding step := by
  obtain ⟨hsame, htrunks, heng, hother⟩ := stopListening_spec s e
  obtain ⟨huses, -⟩ := stopListening_uses s e
  refine ⟨hsame.then_modEngine, ?_, ?_, fun f hf => ?_, ?_⟩
  · exact huses.of_tables rfl (modEngine_tables _ _ _) (keepsTold_of_evr (by simp [State.enterGuard]))
  · rw [State.enterGuard, modEngine_trunks, htrunks]
  · rw [State.enterGuard, engine_modEngine_other _ _ hf, hother f hf]
  · rw [State.enterGuard, engine_modEngine_same, heng]
    rfl

theorem dropReport_names (s : State) (e : EngineId) (r : Report) (f : EngineId) :
    ((s.dropReport e r).engine f).names = (s.engine f).names := by
  by_cases hf : f = e
  · subst hf
    rw [dropReport_engine]
    rfl
  · rw [State.dropReport, engine_modEngine_other _ _ hf]

/-- The same from a state in which a report has just been taken. -/
theorem enterGuard_taken (s : State) (e : EngineId) (r : Report) (step : Step) :
    SameButToneTables s ((s.dropReport e r).enterGuard e step) ∧
      UsesEnded (s.lastLoaded e) s ((s.dropReport e r).enterGuard e step) ∧
      ((s.dropReport e r).enterGuard e step).trunks = s.trunks ∧
      (∀ f, f ≠ e → ((s.dropReport e r).enterGuard e step).engine f = s.engine f) ∧
      ((s.dropReport e r).enterGuard e step).engine e = (s.engine e).guarding step := by
  obtain ⟨h1, h2, h3, h4, h5⟩ := enterGuard_spec (s.dropReport e r) e step
  have hloaded : ∀ ref, s.lastLoaded e ref = (s.dropReport e r).lastLoaded e ref := fun ref => by
    cases ref <;> simp only [State.lastLoaded, dropReport_names]
  refine ⟨h1.of_modEngine, (h2.congr hloaded).of_tables (modEngine_tables _ _ _).symm rfl (.refl _), ?_, fun f hf => ?_, ?_⟩
  · rw [h3, State.dropReport, modEngine_trunks]
  · rw [h4 f hf, State.dropReport, engine_modEngine_other _ _ hf]
  · rw [h5, dropReport_engine]
    rfl

/-- R63: the handshake heard, from the state in which its report was waiting. -/
theorem handshakeHeard_taken (s : State) (e : EngineId) (tone : ToneId) (u : TrunkId) :
    let t := (s.dropReport e (.matched tone)).handshakeHeard e tone u
    SameButToneTables s t ∧ UsesEnded (s.lastReleased e tone) s t ∧ t.trunks = s.trunks ∧
      (∀ f, f ≠ e → t.engine f = s.engine f) ∧
      t.engine e = { s.engine e with
        step := .toneHeard, polRef := some (s.debounced u .v), listening := [(ToneRole.handshake, tone)]
        detector := ((s.engine e).detector.release fun l => l.tone != tone).watch tone Loading.watchAbsence
        reports := ((s.engine e).reports.erase (.matched tone)).filter fun r =>
          !(s.engine e).detector.loadings.any fun l => l.live && l.tone != tone && l.tone == r.tone } := by
  have huses := (keepOnly_uses (s.dropReport e (.matched tone)) e .handshake tone).1
  obtain ⟨h1, h2, h3, h4⟩ := unload_spec ((s.dropReport e (.matched tone)).modEngine e fun x =>
    { x with listening := [(ToneRole.handshake, tone)] }) e fun l => l.tone != tone
  have hreleased : ∀ ref, s.lastReleased e tone ref = (s.dropReport e (.matched tone)).lastReleased e tone ref := fun ref => by
    have hdet : ((s.dropReport e (.matched tone)).engine e).detector = (s.engine e).detector := by rw [dropReport_engine]
    cases ref <;> simp only [State.lastReleased, State.lastLoaded, dropReport_names, hdet]
  refine ⟨h1.of_modEngine.of_modEngine.then_modEngine, (huses.congr hreleased).of_tables (modEngine_tables _ _ _).symm
    (modEngine_tables _ _ _) (keepsTold_of_evr (by simp [State.handshakeHeard])), ?_, fun f hf => ?_, ?_⟩
  · rw [State.handshakeHeard, modEngine_trunks, State.keepOnly, h2, modEngine_trunks, State.dropReport, modEngine_trunks]
  · rw [State.handshakeHeard, engine_modEngine_other _ _ hf, State.keepOnly, h4 f hf, engine_modEngine_other _ _ hf,
      State.dropReport, engine_modEngine_other _ _ hf]
  · have hdeb : (s.dropReport e (.matched tone)).debounced u .v = s.debounced u .v := by
      simp [State.debounced, State.dropReport]
    rw [State.handshakeHeard, engine_modEngine_same, keepOnly_engine, dropReport_engine, hdeb]
    rfl

/-- R69, R71: the acknowledgement timeout: the call stops at its mark, the block is sent again, or there is no acknowledgement. -/
theorem ackTimedOut_eq {s : State} {e : EngineId} {c : CallRecord} (hc : (s.engine e).work.call = some c) :
    s.ackTimedOut e = if c.preempt then (s.stopListening e).preemptStop e
      else if c.tries < (s.routeOr c.route).blockTries then s.enterGuard e .resendGuard
      else (s.stopListening e).failCall e .noAck := by
  have hroute : (s.stopListening e).routeOr c.route = s.routeOr c.route := by
    have hsame := (stopListening_spec s e).1
    rw [State.routeOr, State.routeEntry, hsame.routes, hsame.edge.clock]
    rfl
  unfold State.ackTimedOut
  rw [hc]
  simp only [hroute, State.enterGuard, stopListening_twice]

end Sys2Proof.Machine

namespace Sys2Proof.Proofs
open Sys2Proof Sys2Proof.Machine

/-- Settles O35: a foreign MATCHED is dropped, and a tone's end begins the guard. -/
theorem toneEndsAndForeignMatches : Obligations.ToneEndsAndForeignMatches := by
  refine ⟨fun s e tone c hlow ha hm hr hc => ?_, fun s e hlow ha hstep => ⟨fun tone hm hp => ?_, fun hp ht => ?_⟩⟩
  · rcases hc with rfl | rfl | rfl | rfl
    · exact (running_live (fun s => s.onMatched e tone _ _) hlow).trans (by rw [onMatched_foreign _ _ ha hm hr, dropReport_eq])
    · exact (running_live (fun s => s.onMatched e tone _ _) hlow).trans (by rw [onMatched_foreign _ _ ha hm hr, dropReport_eq])
    · exact (running_live (fun s => s.onMatched e tone _ _) hlow).trans (by rw [onMatched_foreign _ _ ha hm hr, dropReport_eq])
    · exact (running_live (fun s => s.onMatched e tone _ _) hlow).trans (by rw [onMatched_foreign _ _ ha hm hr, dropReport_eq])
  · have hrun : exec (.absentTaken e tone) s = .next ((s.dropReport e (.absent tone)).enterGuard e .guard) := by
      refine (running_live (State.absentTaken e tone) hlow).trans ?_
      unfold State.absentTaken State.toneStopped
      dsimp only
      rw [if_pos (by simpa [ha] using hm), dropReport_engine, if_pos (by rcases hp with h | h <;> simp [hstep, h])]
    exact ⟨_, hrun, enterGuard_taken s e _ .guard⟩
  · have hrun : exec (.ackToneHeardTimeout e) s = .next (s.enterGuard e .guard) := by
      refine (running_live (fun s => s.onTimer e _ fun s' => s'.enterGuard e .guard) hlow).trans ?_
      rw [onTimer_due _ ha ht (by simp [hp, hstep])]
    exact ⟨_, hrun, enterGuard_spec s e .guard⟩

/-- Settles O41: an abort and a mark, each where it is posted and where it is not acted on. -/
theorem abortAndMarkTaken : Obligations.AbortAndMarkTaken := by
  intro s e hlow
  have habort : exec (.engineAbort e) s = .next (s.abortTaken e) := running_live (State.abortTaken e) hlow
  have hmark : exec (.preemptMarkTaken e) s = .next (s.markTaken e) := running_live (State.markTaken e) hlow
  rw [habort, hmark]
  refine ⟨fun a ha hw => ⟨_, rfl, ?_⟩, fun ha => ?_, fun c ha hc hp => ⟨fun hsafe => ⟨_, rfl, ?_⟩, fun hphase => ?_⟩⟩
  · rw [State.abortTaken, if_pos (by rw [ha]; rfl)]
    exact abortEngine_stopped e s hw
  · rw [State.abortTaken, if_neg (by rw [ha]; nofun)]
  · have hm : (s.engine e).marked = true := by rw [Engine.marked, hc]; exact hp
    unfold State.markTaken
    dsimp only
    rw [if_pos (by simp [ha, hm, hsafe])]
    exact preemptStop_stopped e s (isLineTest_of_call hc)
  · have hunsafe : (s.engine e).safePoint = false := by
      rcases hphase with h | ⟨h, hst⟩ <;> simp [Engine.safePoint, *]
    unfold State.markTaken
    dsimp only
    rw [if_neg (by simp [hunsafe])]

/-- Settles O38: the answer timeout, and the acknowledgement timeout with and without tries left. -/
theorem timeoutsOfTheCentre : Obligations.TimeoutsOfTheCentre := by
  intro s e c hlow ha ht hc
  refine ⟨fun hp hst => ?_, fun hp hst => ?_⟩
  · refine ⟨s.failCall e .noAnswer, ?_, failCall_ended e s .noAnswer .noLoop (isLineTest_of_call hc)⟩
    refine (running_live (fun s => s.onTimer e _ fun s' => s'.failCall e .noAnswer) hlow).trans ?_
    rw [onTimer_due _ ha ht (by rcases hst with h | h <;> simp [hp, h])]
  · have hrun : exec (.ackTimeout e) s = .next (s.ackTimedOut e) := by
      refine (running_live (fun s => s.onTimer e _ fun s' => s'.ackTimedOut e) hlow).trans ?_
      rw [onTimer_due _ ha ht (by simp [hp, hst])]
    obtain ⟨h1, h2, h3, h4⟩ := before_stopListening e s
    have hline : ((s.stopListening e).engine e).work.isLineTest = false := by rw [h4]; exact isLineTest_of_call hc
    rw [hrun, ackTimedOut_eq hc]
    refine ⟨fun hm htry => ?_, fun hm htry => ?_, fun hm => ?_⟩
    · rw [if_neg (by simp [hm]), if_pos htry]
      exact ⟨_, rfl, enterGuard_spec s e .resendGuard⟩
    · rw [if_neg (by simp [hm]), if_neg (by omega)]
      exact ⟨_, rfl, Ended.of_before h1 h2 h3 h4 (failCall_keepsTold _ e .noAck) (failCall_ended e _ .noAck .noLoop hline)⟩
    · rw [if_pos hm]
      exact ⟨_, rfl, Stopped.of_before h1 h2 h3 h4 (preemptStop_keepsTold _ e) (preemptStop_stopped e _ hline)⟩

/-- Settles O32: what is heard while the answer is awaited. -/
theorem answerToneTaken : Obligations.AnswerToneTaken := by
  intro s e tone c hlow ha hm hp hst hc
  have hrun : ∀ role, (s.engine e).roleOf tone = some role → exec (.answerMatchedTaken e tone) s =
      .next ((s.dropReport e (.matched tone)).answerMatched e tone role) := fun role hr => by
    refine (running_live (fun s => s.onMatched e tone _ fun s' role => s'.answerMatched e tone role) hlow).trans ?_
    rw [onMatched_taken _ ha hm hr (by simp [hp])]
  have heng := dropReport_engine s e (.matched tone)
  have hcall : ((s.dropReport e (.matched tone)).engine e).work.call = some c := by rw [heng]; exact hc
  have hend : ∀ cause, Ended e cause .noLoop s ((s.dropReport e (.matched tone)).failCall e cause) := fun cause =>
    Ended.of_modEngine (g := fun x => { x with reports := x.reports.erase (.matched tone) }) rfl rfl
      (failCall_keepsTold _ e cause) (failCall_ended e _ cause .noLoop (isLineTest_of_call hcall))
  have hact : ∀ role, (s.dropReport e (.matched tone)).answerMatched e tone role =
      match role with
      | .busy => (s.dropReport e (.matched tone)).failCall e .busy
      | .reorder => (s.dropReport e (.matched tone)).failCall e .congestion
      | .handshake => (s.dropReport e (.matched tone)).handshakeHeard e tone c.trunk
      | _ => s.dropReport e (.matched tone) := fun role => by
    unfold State.answerMatched
    rw [if_pos (by rw [heng]; exact hst), call_trunk hcall]
    cases role <;> rfl
  refine ⟨fun hr => ⟨_, hrun _ hr, ?_⟩, fun hr => ⟨_, hrun _ hr, ?_⟩, fun hr => ⟨_, hrun _ hr, ?_⟩⟩
  · rw [hact]
    exact hend .busy
  · rw [hact]
    exact hend .congestion
  · rw [hact]
    exact handshakeHeard_taken s e tone c.trunk

end Sys2Proof.Proofs

namespace Sys2Proof.Machine
open Sys2Proof Sys2Proof.Machine

theorem modEngine_eq (s : State) (e : EngineId) (f : Engine → Engine) : s.modEngine e f = s.setEngine e (f (s.engine e)) := rfl

theorem stopListening_alike (s : State) (e : EngineId) : ArrivesAlike e s (s.stopListening e) where
  queue := (stopListening_spec s e).1.queue
  classes := (stopListening_spec s e).1.classes
  routes r := by
    rw [State.routeOr, State.routeEntry, (stopListening_spec s e).1.routes, (stopListening_spec s e).1.edge.clock]
    rfl
  hold := (stopListening_spec s e).1.hold
  phase := by rw [stopListening_engine]
  work := by rw [stopListening_engine]
  companion := (stopListening_spec s e).2.2.2 _ (other_ne e)
  evicted := stopListening_record s e (by decide) (by decide)

/-! ### A line test that ends (R157, R115) -/

/-- R157: the result of a line test, written and told. -/
def State.resultTold (s : State) (e : EngineId) (r : LineTestRecord) (code : TestCode) : State :=
  { s.stopEngine e with cmu := { (s.stopEngine e).cmu with
      results := vput (s.stopEngine e).cmu.results r.trunk ⟨true, code, if code.measured then r.peak else 0, r.loopDelay⟩ } }.raise
    (.lineTestDone r.trunk code (if code.measured then r.peak else 0) r.loopDelay)

/-- R157: the slot is EMPTY again. -/
def State.slotEmptied (s : State) : State := { s with cmu := { s.cmu with slot := .empty } }

theorem endLineTest_eq {s : State} {e : EngineId} {r : LineTestRecord} (hw : (s.engine e).work = .lineTest r) (code : TestCode) :
    s.endLineTest e code = (((s.resultTold e r code).testCodeReported r.trunk code).slotEmptied).close e := by
  rw [State.endLineTest, hw]
  rfl

theorem resultTold_alike (s : State) (e : EngineId) (r : LineTestRecord) (code : TestCode) :
    ArrivesAlike e s (s.resultTold e r code) :=
  ((stopEngine_alike s e).with_cmu _).told (show (8 : EventKind) ≠ 4 by decide)

theorem resultTold_trunk (s : State) (e : EngineId) (r : LineTestRecord) (code : TestCode) (u : TrunkId) :
    (s.resultTold e r code).trunk u = s.trunk u := by
  rw [State.resultTold, raise_trunk]
  show (s.stopEngine e).trunk u = _
  rw [State.stopEngine, trunk_of_trunks (stopListening_spec _ e).2.1, modEngine_trunk]

theorem resultTold_debounced (s : State) (e : EngineId) (r : LineTestRecord) (code : TestCode) (u : TrunkId) (sig : LineSignal) :
    (s.resultTold e r code).debounced u sig = s.debounced u sig := by
  simp [State.debounced, State.resultTold]

theorem resultTold_siteOr (s : State) (e : EngineId) (r : LineTestRecord) (code : TestCode) :
    (s.resultTold e r code).siteOr = s.siteOr :=
  siteOr_of_edge (stopEngine_same s e).site (stopEngine_clock s e)

theorem resultTold_keepsTold (s : State) (e : EngineId) (r : LineTestRecord) (code : TestCode) :
    KeepsTold s (s.resultTold e r code) := by
  have h : KeepsTold (s.stopEngine e) { s.stopEngine e with cmu := { (s.stopEngine e).cmu with
      results := vput (s.stopEngine e).cmu.results r.trunk ⟨true, code, if code.measured then r.peak else 0, r.loopDelay⟩ } } :=
    keepsTold_of_evr rfl
  exact ((stopEngine_keepsTold s e).trans h).trans (raise_keepsTold _ _)

/-- R115: the codes that clear a trunk. -/
def TestCode.passes (code : TestCode) : Prop := code = .pass ∨ code = .passReversed

/-- R115, R12: a trunk that a test has cleared offers its restore alert. -/
theorem testCodeReported_clears {s : State} {u : TrunkId} {code : TestCode} (hc : code.passes)
    (hf : (s.trunk u).faulted = true) (hd : s.debounced u .f = false) :
    ∃ x : Trunk, s.testCodeReported u code =
      ((s.setTrunk u x).raise (.trunkCleared u)).internalAlert (s.trunkKey u .restore) classTrouble := by
  refine ⟨{ s.trunk u with failures := 0, faulted := false }, ?_⟩
  rcases hc with rfl | rfl <;>
    simp only [State.testCodeReported, State.clearLineFailures, hf, hd, Bool.not_false, Bool.and_self, if_true,
      trunk_setTrunk_same, setTrunk_setTrunk]

/-- R115: any other code, or a trunk that is not faulted or has its F, offers nothing. -/
theorem testCodeReported_silent {s : State} {u : TrunkId} {code : TestCode}
    (h : ¬ code.passes ∨ (s.trunk u).faulted = false ∨ s.debounced u .f = true) :
    s.testCodeReported u code = s ∨ (∃ x, s.testCodeReported u code = s.setTrunk u x) ∨
      ∃ x, s.testCodeReported u code = (s.setTrunk u x).raise (.trunkFault u .test) := by
  have hpass : code.passes → s.testCodeReported u code = s.clearLineFailures u := fun hc => by
    rcases h with h | h
    · exact absurd hc h
    · rcases hc with rfl | rfl <;> rcases h with h | h <;> simp [State.testCodeReported, h]
  have hfault : code ≠ .aborted → ¬ code.passes → s.testCodeReported u code =
      if (s.trunk u).faulted then s else (s.setTrunk u { s.trunk u with faulted := true }).raise (.trunkFault u .test) :=
    fun ha hn => by
    cases code <;> simp [State.testCodeReported, TestCode.passes] at ha hn ⊢
  by_cases hc : code.passes
  · exact .inr (.inl ⟨_, hpass hc⟩)
  · by_cases ha : code = .aborted
    · exact .inl (by rw [ha]; rfl)
    · rw [hfault ha hc]
      split
      · exact .inl rfl
      · exact .inr (.inr ⟨_, rfl⟩)

theorem testCodeReported_keepsTold (s : State) (u : TrunkId) (code : TestCode) : KeepsTold s (s.testCodeReported u code) := by
  have hset : ∀ x, KeepsTold s (s.setTrunk u x) := fun x => keepsTold_of_evr rfl
  by_cases hc : code.passes ∧ (s.trunk u).faulted = true ∧ s.debounced u .f = false
  · obtain ⟨x, hx⟩ := testCodeReported_clears hc.1 hc.2.1 hc.2.2
    rw [hx]
    exact ((hset x).trans (raise_keepsTold _ _)).trans (internalAlert_keepsTold _ _ _)
  · have hno : ¬ code.passes ∨ (s.trunk u).faulted = false ∨ s.debounced u .f = true := by
      rw [not_and, not_and] at hc
      by_cases h1 : code.passes
      · by_cases h2 : (s.trunk u).faulted = true
        · exact .inr (.inr (by simpa using hc h1 h2))
        · exact .inr (.inl (by simpa using h2))
      · exact .inl h1
    rcases testCodeReported_silent hno with h | ⟨x, h⟩ | ⟨x, h⟩ <;> rw [h]
    · exact .refl _
    · exact hset x
    · exact (hset x).trans (raise_keepsTold _ _)

theorem endLineTest_keepsTold (s : State) (e : EngineId) (code : TestCode) : KeepsTold s (s.endLineTest e code) := by
  cases hw : (s.engine e).work with
  | lineTest r =>
    rw [endLineTest_eq hw]
    have hslot : ∀ m : State, KeepsTold m m.slotEmptied := fun m => keepsTold_of_evr rfl
    exact (((resultTold_keepsTold s e r code).trans (testCodeReported_keepsTold _ _ _)).trans (hslot _)).trans (close_keepsTold _ e)
  | _ => rw [State.endLineTest, hw]; exact .refl s

/-- A line test whose end offers no alert leaves the queue as it was. -/
theorem endLineTest_queue {s : State} {e : EngineId} {r : LineTestRecord} (hw : (s.engine e).work = .lineTest r) {code : TestCode}
    (h : ¬ code.passes ∨ (s.trunk r.trunk).faulted = false ∨ s.debounced r.trunk .f = true) :
    (s.endLineTest e code).queue = s.queue := by
  rw [endLineTest_eq hw, close_queue]
  have hq := (resultTold_alike s e r code).queue
  rcases testCodeReported_silent (s := s.resultTold e r code) (u := r.trunk) (code := code)
    (by rw [resultTold_trunk, resultTold_debounced]; exact h) with h | ⟨x, h⟩ | ⟨x, h⟩ <;> rw [h]
  · exact hq
  · exact hq
  · exact hq

/-- R115, R12: a line test that clears its trunk. -/
theorem endLineTest_alert {s : State} {e : EngineId} {r : LineTestRecord} (hw : (s.engine e).work = .lineTest r) {code : TestCode}
    (hc : code.passes) (hf : (s.trunk r.trunk).faulted = true) (hd : s.debounced r.trunk .f = false) :
    LineAlertOffered r.trunk .restore e s (s.endLineTest e code) := by
  rintro m rfl
  obtain ⟨x, hx⟩ := testCodeReported_clears (s := s.resultTold e r code) (u := r.trunk) hc
    (by rw [resultTold_trunk]; exact hf) (by rw [resultTold_debounced]; exact hd)
  have hkey : (s.resultTold e r code).trunkKey r.trunk .restore = ⟨0, r.trunk.val + 1, s.siteOr.lineFaultEvent, .restore⟩ := by
    rw [State.trunkKey, resultTold_siteOr]
  have halike : ArrivesAlike e (s.internalAlert ⟨0, r.trunk.val + 1, s.siteOr.lineFaultEvent, .restore⟩ 4)
      ((s.resultTold e r code).testCodeReported r.trunk code).slotEmptied := by
    rw [hx, hkey]
    exact ((((resultTold_alike s e r code).setTrunk r.trunk x).told (d := .trunkCleared r.trunk)
      (show (6 : EventKind) ≠ 4 by decide)).internalAlert _ _).with_cmu _
  rw [endLineTest_eq hw]
  refine ⟨?_, fun _ => ⟨?_, ?_⟩, fun _ c hcall => ?_⟩
  · rw [close_record _ _ (by decide) (by decide), halike.evicted]
  · rw [close_queue, halike.queue]
  · rw [close_engine_other _ (other_ne e), halike.companion]
  · have := (internalAlert_joined s ⟨0, r.trunk.val + 1, s.siteOr.lineFaultEvent, .restore⟩ 4 e).isAlertCall_eq
    rw [hcall, hw] at this
    cases this

end Sys2Proof.Machine

namespace Sys2Proof.Proofs
open Sys2Proof Sys2Proof.Machine

/-- Settles O37: the three conditions of the line, at a call and at a line test. -/
theorem lineFailuresEndWork : Obligations.LineFailuresEndWork := by
  intro s e c cause code hlow ha hw hcase
  have hrun : exec c s = .next (s.failWork e cause code) := by
    rcases hcase with ⟨rfl, rfl, rfl, ht, hp⟩ | ⟨rfl, rfl, rfl, ht, hp, hst⟩ | ⟨rfl, rfl, rfl, ht, hp⟩
    · refine (running_live (fun s => s.onTimer e _ fun s' => s'.failWork e .noLoop .noLoop) hlow).trans ?_
      rw [onTimer_due _ ha ht (by simp [hp])]
    · refine (running_live (fun s => s.onTimer e _ fun s' => s'.failWork e .noDialTone .noDialTone) hlow).trans ?_
      rw [onTimer_due _ ha ht (by simp [hp, hst])]
    · refine (running_live (State.loopLossEnd e) hlow).trans ?_
      unfold State.loopLossEnd
      dsimp only
      rw [if_pos (by simp [ha, ht, hp])]
  have hline : cause.isLine = true ∧ cause ∈ [CallOutcome.noLoop, .cardFault, .noDialTone, .lineLost] ∧ ¬ code.passes := by
    rcases hcase with ⟨-, rfl, rfl, -⟩ | ⟨-, rfl, rfl, -⟩ | ⟨-, rfl, rfl, -⟩ <;> exact ⟨rfl, by decide, by simp [TestCode.passes]⟩
  obtain ⟨hl, hmem, hno⟩ := hline
  have hE := failWork_ended e s cause code
  refine ⟨_, hrun, hE, failWork_secondAlerts s e hl code, fun k hk hs hh => ?_, fun r hr => ?_⟩
  · have hcount := (hE.2.1 k hk hs hh).1 hmem
    refine ⟨hcount.failures, fun h1 => ?_⟩
    cases hf : (s.trunk k.trunk).faulted with
    | true => rw [(hcount.below (.inr hf)).1, hf]
    | false => exact (hcount.second h1 hf).1
  · rw [State.failWork, hr]
    exact endLineTest_queue hr (.inl hno)

/-- Settles O34: the tone, the levels and the window of a line test. -/
theorem lineTestMeasures : Obligations.LineTestMeasures := by
  intro s e r hlow ha hw hp
  have hline : (s.engine e).work.isLineTest = true := by rw [hw]; rfl
  refine ⟨fun tone hst hm hr => ?_, fun rep n hlevel => ?_, fun hst ht code hcode => ?_⟩
  · refine (running_live (fun s => s.onMatched e tone _ fun s' _ => s'.testToneMatched e tone) hlow).trans ?_
    rw [onMatched_taken _ ha hm hr (by simp [hp, hline])]
    have hwork : ((s.dropReport e (.matched tone)).engine e).work = .lineTest r := by rw [dropReport_engine]; exact hw
    rw [State.testToneMatched, if_pos (by rw [dropReport_engine]; exact hst), hwork]
    show Host.Outcome.next ((s.dropReport e (.matched tone)).testToneHeard e tone r.trunk) = _
    rw [State.testToneHeard, modEngine_eq, engine_of_engines (clearLineFailures_engines _ _), dropReport_engine]
    simp only [hw]
    cases e <;> rfl
  · refine (running_live (State.levelTaken e) hlow).trans ?_
    unfold State.levelTaken
    dsimp only
    rw [hlevel]
    dsimp only
    rw [if_pos ha, State.dropReport, modEngine_modEngine, modEngine_eq]
    simp only [hw]
    rfl
  · obtain ⟨h1, h2, h3, h4⟩ := before_stopListening e s
    have hsame := (stopListening_spec s e).1
    have hsite : (s.stopListening e).siteOr = s.siteOr := siteOr_of_edge hsame.site hsame.edge.clock
    have hwork : ((s.stopListening e).engine e).work = .lineTest r := h4.trans hw
    have htrunk : (s.stopListening e).trunk r.trunk = s.trunk r.trunk := trunk_of_trunks (stopListening_spec s e).2.1 _
    have hdeb : (s.stopListening e).debounced r.trunk .f = s.debounced r.trunk .f := by
      rw [State.debounced, hsame.edge.hwi]
      rfl
    have hrun : exec (.levelWindowExpiry e) s = .next ((s.stopListening e).endLineTest e code) := by
      refine (running_live (fun s => s.onTimer e _ fun s' => s'.levelWindowEnd e) hlow).trans ?_
      rw [onTimer_due _ ha ht (by simp [hp, hst]), State.levelWindowEnd, hw, hcode, ← hsite]
      rfl
    have hpasses : code.passes ↔ code ≠ .lowTone := by
      rw [hcode]
      split
      · simp [TestCode.passes]
      · split <;> simp [TestCode.passes]
    refine ⟨_, hrun, Ended.of_before h1 h2 h3 h4 (endLineTest_keepsTold _ e code) (endLineTest_ended e _ r .aborted code hwork),
      fun hc hf hd => ?_, fun hc => ?_⟩
    · refine (endLineTest_alert hwork (hpasses.2 hc) (by rw [htrunk]; exact hf) (by rw [hdeb]; exact hd)).of_alike ?_ hsite
      exact stopListening_alike s e
    · rw [endLineTest_queue hwork (by rw [htrunk, hdeb, hpasses, not_not]; exact hc), hsame.queue]

end Sys2Proof.Proofs

namespace Sys2Proof.Machine
open Sys2Proof Sys2Proof.Machine

/-! ### The dial string (R58 to R62) -/

theorem NamesTones.of_detector {s : State} {roles : List (ToneRole × ToneId)} {x x' y : Engine} (h : NamesTones s roles x y)
    (hd : x'.detector = x.detector) : NamesTones s roles x' y := by
  obtain ⟨h1, h2⟩ := h
  exact ⟨h1, by rw [hd]; exact h2⟩

theorem DialsFrom.congr {s t : State} {route : RouteId} {pos : Nat} {x y : Engine} {p : Nat} {z : Generator}
    (h : DialsFrom s route pos { x with dialPos := p, generator := z } y) (ht : t.tables = s.tables) (hc : t.clock = s.clock) :
    DialsFrom t route pos x y := by
  have hroute : t.routeOr route = s.routeOr route := by
    rw [State.routeOr, State.routeEntry, ht, hc]
    rfl
  have hsite : t.siteOr = s.siteOr := siteOr_of_edge (by rw [ht]) hc
  unfold DialsFrom at h ⊢
  rw [hroute, hsite]
  generalize (s.routeOr route).dial[pos]? = d at h ⊢
  cases d with
  | none => exact ⟨h.1, (h.2.of_tables ht).of_detector rfl⟩
  | some sym =>
    cases sym with
    | tone v => exact h
    | pause => exact h
    | wait => exact ⟨h.1, fun hw => ((h.2 hw).of_tables ht).of_detector rfl⟩

/-- R59, R60: the engine goes on at its dial position. -/
theorem dialNext_spec (s : State) (e : EngineId) (route : RouteId) :
    ∃ y, s.dialNext e route = s.setEngine e y ∧ DialsFrom s route (s.engine e).dialPos (s.engine e) y := by
  unfold State.dialNext DialsFrom
  generalize (s.routeOr route).dial[(s.engine e).dialPos]? = d
  cases d with
  | none => exact named_after s e _ _ rfl
  | some sym =>
    cases sym with
    | tone v => exact ⟨_, rfl, rfl⟩
    | pause => exact ⟨_, rfl, rfl⟩
    | wait =>
      have heng : (s.modEngine e fun x => { x with dialPos := x.dialPos + 1 }).engine e =
          { s.engine e with dialPos := (s.engine e).dialPos + 1 } := engine_modEngine_same _ _ _
      have hset : ∀ y, (s.modEngine e fun x => { x with dialPos := x.dialPos + 1 }).setEngine e y = s.setEngine e y := fun y => by
        cases e <;> rfl
      have hsite : (s.modEngine e fun x => { x with dialPos := x.dialPos + 1 }).siteOr = s.siteOr :=
        siteOr_of_edge (by rw [modEngine_tables]) (modEngine_clock _ _ _)
      cases hw : (s.engine e).work.isLineTest with
      | false =>
        obtain ⟨y, hy, hyeq, hn⟩ := enterDialTone_named (s.modEngine e fun x => { x with dialPos := x.dialPos + 1 }) e
          (by rw [heng]; exact hw)
        rw [hset] at hy
        rw [heng] at hyeq hn
        rw [hsite] at hn
        exact ⟨y, hy, hyeq, fun _ => (hn.of_tables (modEngine_tables _ _ _).symm).of_detector rfl⟩
      | true =>
        obtain ⟨y, hy, hyeq, -⟩ := enterDialTone_lineTest (s.modEngine e fun x => { x with dialPos := x.dialPos + 1 }) e
          (by rw [heng]; exact hw)
        rw [hset] at hy
        rw [heng] at hyeq
        exact ⟨y, hy, hyeq, nofun⟩

/-- The engine goes on from a position that it has just been given. -/
theorem dialNext_after (s : State) (e : EngineId) (route : RouteId) (pos : Nat) (z : Generator) :
    ∃ y, (s.modEngine e fun x => { x with dialPos := pos, generator := z }).dialNext e route = s.setEngine e y ∧
      DialsFrom s route pos (s.engine e) y := by
  obtain ⟨y, hy, hd⟩ := dialNext_spec (s.modEngine e fun x => { x with dialPos := pos, generator := z }) e route
  rw [engine_modEngine_same] at hd
  refine ⟨y, ?_, hd.congr (modEngine_tables _ _ _).symm (modEngine_clock _ _ _).symm⟩
  rw [hy]
  cases e <;> rfl

theorem SameButToneTables.of_setTrunk {s t : State} {u : TrunkId} {x : Trunk} (h : SameButToneTables (s.setTrunk u x) t) :
    SameButToneTables s t := by
  obtain ⟨⟨a1, a2, a3, a4, a5⟩, a6, a7, a8, a9, a10, a11, a12, a13, a14, a15, a16, a17, a18, a19, a20⟩ := h
  exact ⟨⟨a1, a2, a3, a4, a5⟩, a6, a7, a8, a9, a10, a11, a12, a13, a14, a15, a16, a17, a18, a19, a20⟩

/-- A change of an engine that leaves its work, and whether a record may join it, is nothing to an arrival. -/
theorem modEngine_alike {s : State} {e : EngineId} (g : Engine → Engine) (hw : (g (s.engine e)).work = (s.engine e).work)
    (hp : ((g (s.engine e)).phase != .idle && (g (s.engine e)).phase != .closing) =
      ((s.engine e).phase != .idle && (s.engine e).phase != .closing)) : ArrivesAlike e s (s.modEngine e g) where
  queue := modEngine_queue _ _ _
  classes := by rw [modEngine_tables]
  routes r := by
    rw [State.routeOr, State.routeEntry, modEngine_tables, modEngine_clock]
    rfl
  hold := by rw [modEngine_dsc]
  phase := by rw [engine_modEngine_same, hp]
  work := by rw [engine_modEngine_same, hw]
  companion := engine_modEngine_other _ _ (other_ne e)
  evicted := by rw [modEngine_evr]

end Sys2Proof.Machine

namespace Sys2Proof.Proofs
open Sys2Proof Sys2Proof.Machine

/-- Settles O39: the symbols of the dial string and of a block, one after another. -/
theorem symbolsGoOn : Obligations.SymbolsGoOn := by
  have hend : ∀ (s : State) (e : EngineId) (c : CallRecord), s.resetLow = false → (s.engine e).acts = true →
      (s.engine e).work.call = some c → (s.engine e).generator.ended = true →
      exec (.symbolEnd e) s = .next (s.symbolDone e c) := fun s e c hlow ha hc hg => by
    refine (running_live (State.symbolEnd e) hlow).trans ?_
    unfold State.symbolEnd
    dsimp only
    rw [hc]
    dsimp only
    rw [if_pos (by simp [ha, hg])]
  refine ⟨fun s e c hlow ha hc => ⟨fun ht hp hst => ?_, fun hg hp => ?_⟩, fun s e c hlow ha hc hg hp => ⟨fun v rest hsend => ?_,
    fun hsend => ?_⟩⟩
  · obtain ⟨y, hy, hd⟩ := dialNext_after s e c.route 0 (s.engine e).generator
    refine ⟨y, ?_, hd⟩
    refine (running_live (fun s => s.onTimer e _ fun s' => s'.blindEnd e) hlow).trans ?_
    rw [onTimer_due _ ha ht (by simp [hp, hst]), ← hy, State.blindEnd, hc]
    rfl
  · obtain ⟨y, hy, hd⟩ := dialNext_after s e c.route ((s.engine e).dialPos + 1) Generator.silent
    refine ⟨y, ?_, hd⟩
    rw [hend s e c hlow ha hc hg, ← hy, State.symbolDone, hp]
    rfl
  · rw [hend s e c hlow ha hc hg, State.symbolDone, hp, hsend]
    rfl
  · rw [hend s e c hlow ha hc hg, State.symbolDone, hp, hsend]
    obtain ⟨y, hy, hyeq, hn⟩ := named_after s e (fun x =>
      { x.modCall (fun c => { c with blocks := c.blocks.modify c.current fun b => { b with state := .awaitAck } }) with
        phase := .awaitAck, step := .listen, phaseTimer := some (ticksOfTenths (s.routeOr c.route).ackTimeout), sending := [],
        generator := Generator.silent }) [(ToneRole.ack, (s.routeOr c.route).ackTone)] rfl
    refine ⟨y, congrArg Host.Outcome.next hy, ?_, hn⟩
    rw [← hsend] at hyeq
    exact hyeq

/-- Settles O31: dial tone and reorder, in a listening step of DIALTONE. -/
theorem dialToneTaken : Obligations.DialToneTaken := by
  intro s e tone c hlow ha hm hp hst hc
  have hrun : ∀ role, (s.engine e).roleOf tone = some role → exec (.dialToneMatchedTaken e tone) s =
      .next ((s.dropReport e (.matched tone)).dialToneMatched e role) := fun role hr => by
    refine (running_live (fun s => s.onMatched e tone _ fun s' role => s'.dialToneMatched e role) hlow).trans ?_
    rw [onMatched_taken _ ha hm hr (by simp [hp, hst, isLineTest_of_call hc])]
  have hcall : ((s.dropReport e (.matched tone)).engine e).work.call = some c := by rw [dropReport_engine]; exact hc
  refine ⟨fun hr => ?_, fun hr => ?_⟩
  · obtain ⟨m, hmdef⟩ : ∃ m, m = (s.dropReport e (.matched tone)).clearLineFailures c.trunk := ⟨_, rfl⟩
    obtain ⟨hsame, htrunks, heng, hother⟩ := stopListening_spec m e
    obtain ⟨huses, -⟩ := stopListening_uses m e
    obtain ⟨y, hy, hd⟩ := dialNext_spec (m.stopListening e) e c.route
    have hact : (s.dropReport e (.matched tone)).dialToneMatched e .dialTone = (m.stopListening e).setEngine e y := by
      unfold State.dialToneMatched
      rw [← hy, hcall, hmdef]
      rfl
    have hmeng : ∀ f, m.engine f = (s.dropReport e (.matched tone)).engine f := fun f => by
      rw [hmdef]
      exact engine_of_engines (clearLineFailures_engines _ _) f
    have hmtrunk : m.trunk c.trunk = { s.trunk c.trunk with failures := 0 } := by
      rw [hmdef, State.clearLineFailures, trunk_setTrunk_same, State.dropReport, modEngine_trunk]
    have hloaded : ∀ ref, s.lastLoaded e ref = m.lastLoaded e ref := fun ref => by
      cases ref <;> simp only [State.lastLoaded, hmeng, dropReport_names]
    have hmtab : m.tables = s.tables := by rw [hmdef, clearLineFailures_tables, State.dropReport, modEngine_tables]
    have hx : (m.stopListening e).engine e =
        { s.engine e with listening := [], reports := [], detector := (s.engine e).detector.release fun _ => true } := by
      rw [heng, hmeng, dropReport_engine]
    have hkept : SameButToneTables s (m.stopListening e) := by
      rw [hmdef] at hsame ⊢
      exact hsame.of_setTrunk.of_modEngine
    have hyt : ((m.stopListening e).setEngine e y).engine e = y := engine_setEngine_same _ _ _
    rw [hx] at hd
    refine ⟨(m.stopListening e).setEngine e y, by rw [hrun _ hr, hact], hkept.then_modEngine (f := fun _ => y), (huses.congr hloaded).of_tables hmtab.symm
      (setEngine_tables _ _ _) (keepsTold_of_evr (congrArg Evr.records (setEngine_evr _ _ _))), ?_, fun u hu => ?_, fun f hf => ?_, ?_⟩
    · rw [setEngine_trunk, trunk_of_trunks htrunks, hmtrunk]
    · rw [setEngine_trunk, trunk_of_trunks htrunks, hmdef, State.clearLineFailures, trunk_setTrunk_other _ _ hu,
        State.dropReport, modEngine_trunk]
    · rw [engine_setEngine_other _ _ hf, hother f hf, hmeng, State.dropReport, engine_modEngine_other _ _ hf]
    · rw [hyt]
      exact DialsFrom.congr (p := (s.engine e).dialPos) (z := (s.engine e).generator) hd (setEngine_tables _ _ _)
        (setEngine_clock _ _ _)
  · have hact : (s.dropReport e (.matched tone)).dialToneMatched e .reorder =
        (s.dropReport e (.matched tone)).failCall e .noDialTone := by
      unfold State.dialToneMatched
      rw [hcall]
    refine ⟨_, by rw [hrun _ hr, hact], ?_, ?_⟩
    · exact Ended.of_modEngine (g := fun x => { x with reports := x.reports.erase (.matched tone) }) rfl rfl
        (failCall_keepsTold _ e _) (failCall_ended e _ .noDialTone .noDialTone (isLineTest_of_call hcall))
    · exact SecondFailureAlerts.of_alike (s := s) (m := s.dropReport e (.matched tone)) (modEngine_alike _ rfl rfl)
        (siteOr_of_edge (by rw [State.dropReport, modEngine_tables]) (modEngine_clock _ _ _)) (fun u => modEngine_trunk _ _ _ u)
        (failCall_secondAlerts _ e rfl)

end Sys2Proof.Proofs

namespace Sys2Proof.Machine
open Sys2Proof Sys2Proof.Machine

/-! ### The release guard of CLEAR ends (R52, R53) -/

theorem failWork_keepsTold (s : State) (e : EngineId) (cause : CallOutcome) (code : TestCode) :
    KeepsTold s (s.failWork e cause code) := by
  unfold State.failWork
  split
  · exact endLineTest_keepsTold s e code
  · exact failCall_keepsTold s e cause

theorem not_call_of_lineTest {w : Work} {r : LineTestRecord} (h : w = .lineTest r) {c : CallRecord} : w.call ≠ some c := by
  rw [h]
  nofun

/-- A line test that ends from a state in which nothing of it has changed but its polarity. -/
theorem Ended.of_lineTest {e : EngineId} {cause : CallOutcome} {code : TestCode} {s m t : State} {r : LineTestRecord} {v : Bool}
    (h : Ending e s m) (ho : m.outcomes = s.outcomes) (hf : ∀ u, m.flags u = s.flags u) (hs : (s.engine e).work = .lineTest r)
    (hm : (m.engine e).work = .lineTest { r with polarity := v }) (hk : KeepsTold m t) (k : Ended e cause code m t) :
    Ended e cause code s t := by
  simp only [State.outcomes, Prod.mk.injEq] at ho
  obtain ⟨o1, o2, o3, o4, o5⟩ := ho
  have hc := h.core
  simp only [State.core, Prod.mk.injEq] at hc
  obtain ⟨k1, -, k2⟩ := k
  refine ⟨k1.of_before h hk, fun c hcall => absurd hcall (not_call_of_lineTest hs), ?_⟩
  rw [hm, o2, o4] at k2
  rw [hs]
  obtain ⟨r1, r2, r3, r4⟩ := k2
  exact ⟨r1, r2, r3, fun ht hh => (r4 ((h.own _).1.trans ht) ((h.own _).2.trans hh)).of_flags (hf _).symm rfl
    hc.1.2.2.2.1.symm⟩

/-- R52, R53: the engine whose seize goes on. -/
def Engine.seizing (x : Engine) (clock timeout : Nat) (v : Bool) : Engine :=
  { x with phase := .seize, step := .none, seize := true, seizeStart := some clock, phaseTimer := some timeout
           work := x.work.mapTest fun r => { r with polarity := v } }

theorem enterSeize_eq (s : State) (e : EngineId) (u : TrunkId) : s.enterSeize e u =
    let s1 := s.setEngine e ((s.engine e).seizing s.clock (ticksOfMs s.siteOr.loopTimeout) (s.debounced u .v))
    if s.debounced u .f then s1.failWork e .cardFault .cardFault else if s.debounced u .l then s1.leaveSeize e else s1 := rfl

theorem seizing_call {x : Engine} {c : CallRecord} (h : x.work.call = some c) (n m : Nat) (v : Bool) :
    (x.seizing n m v).work = x.work := by
  show x.work.mapTest _ = x.work
  rcases call_cases h with h | h <;> rw [h] <;> rfl

theorem setEngine_setEngine (s : State) (e : EngineId) (x y : Engine) : (s.setEngine e x).setEngine e y = s.setEngine e y := by
  cases e <;> rfl

/-- R53, R58: with L present already, the engine is past SEIZE at once. -/
theorem leaveSeize_seizing (s : State) (e : EngineId) {u : TrunkId} (hu : (s.engine e).work.trunk = some u) (v : Bool) (n : Nat) :
    ∃ y, (s.setEngine e ((s.engine e).seizing s.clock n v)).leaveSeize e = s.setEngine e y ∧
      y.phase = .dialTone ∧ y.seize = true ∧ y.seizeStart = some s.clock ∧
      (∀ c, (s.engine e).work.call = some c → y.work = (s.engine e).work ∧
        ((s.routeOr c.route).dialToneMode = .blind → y.step = .blind ∧ y.phaseTimer = some 300 ∧
          y.listening = (s.engine e).listening ∧ y.detector = (s.engine e).detector) ∧
        ((s.routeOr c.route).dialToneMode = .wait → y.step = .listen ∧ y.phaseTimer = some 400 ∧
          NamesTones s [(ToneRole.dialTone, s.siteOr.dialTone), (ToneRole.reorder, s.siteOr.reorderTone)] (s.engine e) y)) ∧
      (∀ r, (s.engine e).work = .lineTest r → y.step = .listen ∧ y.phaseTimer = some 400 ∧
        y.work = .lineTest { r with polarity := v, loopDelay := 0 } ∧
        NamesTones s [(ToneRole.dialTone, s.siteOr.dialTone)] (s.engine e) y) := by
  obtain ⟨m, hm⟩ : ∃ m, m = s.setEngine e ((s.engine e).seizing s.clock n v) := ⟨_, rfl⟩
  have heng : m.engine e = (s.engine e).seizing s.clock n v := by rw [hm, engine_setEngine_same]
  have htab : m.tables = s.tables := by rw [hm, setEngine_tables]
  have hclock : m.clock = s.clock := by rw [hm, setEngine_clock]
  have hsite : m.siteOr = s.siteOr := siteOr_of_edge (by rw [htab]) hclock
  have hroute : ∀ rt, m.routeOr rt = s.routeOr rt := fun rt => by
    rw [State.routeOr, State.routeEntry, htab, hclock]
    rfl
  have hset : ∀ y, m.setEngine e y = s.setEngine e y := fun y => by rw [hm, setEngine_setEngine]
  have hwait : m.clock - (m.engine e).seizeStart.getD m.clock = 0 := by
    rw [heng, hclock]
    exact Nat.sub_self _
  rw [← hm]
  rcases work_of_trunk hu with ⟨c, hc, -⟩ | ⟨r, hr, -⟩
  · have hcm : (m.engine e).work.call = some c := by rw [heng, seizing_call hc]; exact hc
    have hone : ∀ c', (s.engine e).work.call = some c' → c' = c := fun c' hc' => Option.some.inj (hc'.symm.trans hc)
    have hno : ∀ r, (s.engine e).work ≠ .lineTest r := fun r hr => by rw [hr] at hc; cases hc
    cases hmode : (s.routeOr c.route).dialToneMode with
    | blind =>
      rw [leaveSeize_blind hcm (by rw [hroute, hmode]), hset, heng]
      rw [heng] at hwait
      refine ⟨_, rfl, rfl, rfl, rfl, fun c' hc' => ?_, fun r hr => absurd hr (hno r)⟩
      obtain rfl := hone c' hc'
      refine ⟨seizing_call hc s.clock n v, fun _ => ⟨rfl, ?_, rfl, rfl⟩, fun hw => by rw [hmode] at hw; cases hw⟩
      show some (300 - min _ 200) = some 300
      rw [hwait]
      rfl
    | wait =>
      obtain ⟨y, hy, hyeq, hn⟩ := enterDialTone_named m e (isLineTest_of_call hcm)
      rw [leaveSeize_wait hcm (by rw [hroute, hmode]), hy, hset]
      rw [hsite, heng] at hn
      rw [heng] at hyeq
      refine ⟨y, rfl, by rw [hyeq], by rw [hyeq]; rfl, by rw [hyeq]; rfl, fun c' hc' => ?_, fun r hr => absurd hr (hno r)⟩
      obtain rfl := hone c' hc'
      refine ⟨by rw [hyeq]; exact seizing_call hc s.clock n v, fun hb => (by rw [hmode] at hb; cases hb), fun _ => ⟨by rw [hyeq], by rw [hyeq], ?_⟩⟩
      exact (hn.of_tables htab.symm).of_detector rfl
  · have hrm : (m.engine e).work = .lineTest { r with polarity := v } := by
      rw [heng]
      show (s.engine e).work.mapTest _ = _
      rw [hr]
      rfl
    obtain ⟨y, hy, hyeq, hn⟩ := leaveSeize_lineTest hrm
    rw [hwait] at hyeq
    rw [hy, hset]
    rw [hsite, heng] at hn
    rw [heng] at hyeq
    refine ⟨y, rfl, by rw [hyeq], by rw [hyeq]; rfl, by rw [hyeq]; rfl, fun c hc => absurd hc (not_call_of_lineTest hr), fun r' hr' => ?_⟩
    obtain rfl := Work.lineTest.inj (hr.symm.trans hr')
    exact ⟨by rw [hyeq], by rw [hyeq], by rw [hyeq]; rfl, (hn.of_tables htab.symm).of_detector rfl⟩

/-- R53: with F present, the call or test ends at once. -/
theorem failWork_seizing (s : State) (e : EngineId) (hp : (s.engine e).phase = .clear) {u : TrunkId}
    (hu : (s.engine e).work.trunk = some u) (v : Bool) (n : Nat) :
    let t := (s.setEngine e ((s.engine e).seizing s.clock n v)).failWork e .cardFault .cardFault
    Ended e .cardFault .cardFault s t ∧ SecondFailureAlerts e s t := by
  have hset : s.setEngine e ((s.engine e).seizing s.clock n v) = s.modEngine e fun x => x.seizing s.clock n v := rfl
  have hE := failWork_ended e (s.setEngine e ((s.engine e).seizing s.clock n v)) .cardFault .cardFault
  have hK := failWork_keepsTold (s.setEngine e ((s.engine e).seizing s.clock n v)) e .cardFault .cardFault
  have hA := failWork_secondAlerts (s.setEngine e ((s.engine e).seizing s.clock n v)) e (cause := .cardFault) rfl .cardFault
  rw [hset] at hE hK hA ⊢
  dsimp only
  rcases work_of_trunk hu with ⟨c, hc, -⟩ | ⟨r, hr, -⟩
  · exact ⟨Ended.of_modEngine (seizing_call hc _ _ _) rfl hK hE,
      hA.of_alike (modEngine_alike _ (seizing_call hc _ _ _) (by rw [hp]; rfl))
        (siteOr_of_edge (by rw [modEngine_tables]) (modEngine_clock _ _ _)) fun u => modEngine_trunk _ _ _ u⟩
  · have hmr : ((s.engine e).seizing s.clock n v).work = .lineTest { r with polarity := v } := by
      show (s.engine e).work.mapTest _ = _
      rw [hr]
      rfl
    refine ⟨Ended.of_lineTest (v := v) (ending_modEngine e s _ ?_ rfl fun ref => ?_) (outcomes_of_aside (modEngine_aside s e _))
      (modEngine_flags s e _) hr (by rw [engine_modEngine_same]; exact hmr) hK hE, fun c hc => absurd hc (not_call_of_lineTest hr)⟩
    · rw [hmr, hr]
      rfl
    · cases ref <;> simp [Engine.names, hr, Engine.seizing, Work.mapTest, Work.call]

end Sys2Proof.Machine

namespace Sys2Proof.Proofs
open Sys2Proof Sys2Proof.Machine

/-- Settles O36: the release guard's end, by what the line shows then. -/
theorem clearEndsInSeize : Obligations.ClearEndsInSeize := by
  intro s e u hlow ha ht hp hu
  have hrun : exec (.releaseGuardExpiry e) s = .next (s.enterSeize e u) := by
    refine (running_live (fun s => s.onTimer e _ fun s' => s'.clearEnd e) hlow).trans ?_
    rw [onTimer_due _ ha ht (by simp [hp]), State.clearEnd, hu]
  rw [hrun, enterSeize_eq]
  refine ⟨fun hf hl => ?_, fun hf hl => ?_, fun hf => ?_⟩
  · simp only [hf, hl, Bool.false_eq_true, if_false]
    rfl
  · obtain ⟨y, hy, hrest⟩ := leaveSeize_seizing s e hu (s.debounced u .v) (ticksOfMs s.siteOr.loopTimeout)
    refine ⟨y, ?_, hrest⟩
    simp only [hf, hl, Bool.false_eq_true, if_false, if_true, hy]
  · refine ⟨_, rfl, ?_⟩
    simp only [hf, if_true]
    exact failWork_seizing s e hp hu _ _

end Sys2Proof.Proofs

namespace Sys2Proof.Machine
open Sys2Proof Sys2Proof.Machine

/-! ### Blocks (R65 to R69) -/

theorem digitSymbol_val (n place : Nat) : (digitSymbol n place).val = n / place % 10 :=
  Nat.mod_eq_of_lt (Nat.lt_of_lt_of_le (Nat.mod_lt _ (by decide)) (by decide))

theorem startSending_eq (s : State) (e : EngineId) :
    s.startSending e = s.setEngine e ((s.engine e).sendsBlock s.siteOr (s.composeBlock (s.engine e).work)) := by
  unfold State.startSending Engine.sendsBlock
  generalize s.composeBlock (s.engine e).work = block
  cases block <;> rfl

theorem composeBlock_record {s : State} {c : CallRecord} {b : BlockEntry} {h : Handle} {r : Record}
    (hb : c.blocks[c.current]? = some b) (hh : b.handle = some h) (hr : s.findRecord h = some r) :
    s.composeBlock (.alertCall c) = reportBlock s.siteOr.account (s.classSymbol r.cls) r.key := by
  simp only [State.composeBlock, hb, Option.bind_some, hh, hr]

theorem classSymbol_of_tables {s t : State} (h : t.tables = s.tables) (k : ClassId) : t.classSymbol k = s.classSymbol k := by
  rw [State.classSymbol, State.classEntry, h]
  rfl

/-- R69, R21: a call that has no further block to send is over. -/
theorem finishCall_spec (s : State) (e : EngineId) : Closed e s (s.finishCall e) ∧
    (∀ c, (s.engine e).work = .alertCall c → vget (s.finishCall e).evr.records 1 = vget s.evr.records 1 ∧
      (s.finishCall e).cmu.slot = s.cmu.slot) ∧
    ∀ c, (s.engine e).work = .testCall c → (s.finishCall e).cmu.slot = .empty ∧
      vget (s.finishCall e).evr.records 9 = (vget s.evr.records 9).occur (.testCallDone c.route .delivered) := by
  have hstop := outcomes_of_aside (stopEngine_aside s e)
  simp only [State.outcomes, Prod.mk.injEq] at hstop
  obtain ⟨hslot, -, h1, -, h9⟩ := hstop
  have hclose : ∀ m : State, (m.close e).cmu.slot = m.cmu.slot := fun m => by
    have := close_outcomes m e
    simp only [State.outcomes, Prod.mk.injEq] at this
    exact this.1
  cases hw : (s.engine e).work with
  | testCall c =>
    have heq : s.finishCall e = ((s.stopEngine e).testOutcome c .delivered).close e := by
      unfold State.finishCall
      dsimp only
      rw [stopEngine_work, hw]
    rw [heq]
    refine ⟨closed_of_ending ((ending_stopEngine e s).trans (ending_testOutcome e _ _ _)), nofun, fun c' hc' => ?_⟩
    obtain rfl := Work.testCall.inj hc'
    refine ⟨hclose _, ?_⟩
    rw [close_record _ _ (by decide) (by decide), State.testOutcome, ite_self]
    exact (raise_record_same (s.stopEngine e) (.testCallDone c.route .delivered)).trans (by rw [← h9]; rfl)
  | _ =>
    have heq : s.finishCall e = (s.stopEngine e).close e := by
      unfold State.finishCall
      dsimp only
      rw [stopEngine_work, hw]
    rw [heq]
    refine ⟨closed_of_ending (ending_stopEngine e s), fun c _ => ⟨?_, ?_⟩, nofun⟩
    · rw [close_record _ _ (by decide) (by decide), h1]
    · rw [hclose, hslot]

end Sys2Proof.Machine

namespace Sys2Proof.Proofs
open Sys2Proof Sys2Proof.Machine

/-- Settles O40: the layout of a block, and the guards that end in one or in the call's end. -/
theorem guardEndsSend : Obligations.GuardEndsSend := by
  refine ⟨fun account sym k => ?_, fun s k => ⟨fun ce hce => ?_, fun hce => ?_⟩, fun s e c hlow ha ht hc => ?_⟩
  · refine ⟨_, rfl, ?_⟩
    simp only [List.map_append, List.map_cons, List.map_nil, digitSymbol_val, Nat.div_one]
    cases k.qualifier <;> rfl
  · rw [State.classSymbol, hce]
  · rw [State.classSymbol, hce]
    exact Nat.mod_eq_of_lt (Nat.lt_of_lt_of_le k.isLt (by decide))
  have hguard : (s.engine e).step = .guard → exec (.guardEnd e) s = .next (s.guardDone e) := fun hst => by
    refine (running_live (fun s => s.onTimer e _ fun s' => s'.guardDone e) hlow).trans ?_
    rw [onTimer_due _ ha ht (by simp [hst])]
  have hsend : ∀ cmd, (cmd = .guardEnd e ∧ (s.engine e).phase = .awaitAnswer ∧ (s.engine e).step = .guard ∨
      cmd = .resendGuardEnd e ∧ (s.engine e).step = .resendGuard) → exec cmd s = .next (s.startSending e) := by
    rintro cmd (⟨rfl, hp, hst⟩ | ⟨rfl, hst⟩)
    · rw [hguard hst, State.guardDone, hp, hc]
    · refine (running_live (fun s => s.onTimer e _ fun s' => s'.startSending e) hlow).trans ?_
      rw [onTimer_due _ ha ht (by simp [hst])]
  refine ⟨fun cmd b h r hcmd hw hb hh hr => ?_, fun cmd hcmd hw => ?_, fun hp hst => ?_⟩
  · rw [hsend cmd hcmd, startSending_eq, hw, composeBlock_record hb hh hr]
  · rw [hsend cmd hcmd, startSending_eq, hw]
    rfl
  · have hnext : exec (.guardEnd e) s = .next (s.nextBlock e c) := by
      rw [hguard hst, State.guardDone, hp, hc]
    rw [hnext]
    refine ⟨fun b h r hw hb hq hh hr => ?_, fun hb => ⟨_, rfl, ?_⟩⟩
    · have heq : s.nextBlock e c =
          (s.modEngine e fun x => x.modCall fun c => { c with current := c.current + 1, tries := 0 }).startSending e := by
        unfold State.nextBlock
        rw [hb]
        exact if_pos hq
      have hwork : (s.engine e).modCall (fun c => { c with current := c.current + 1, tries := 0 }) =
          { s.engine e with work := .alertCall { c with current := c.current + 1, tries := 0 } } := by
        rw [Engine.modCall, hw]
        rfl
      have hcompose : (s.setEngine e { s.engine e with work := .alertCall { c with current := c.current + 1, tries := 0 } }).composeBlock
          (.alertCall { c with current := c.current + 1, tries := 0 }) =
            reportBlock s.siteOr.account (s.classSymbol r.cls) r.key := by
        rw [composeBlock_record (c := { c with current := c.current + 1, tries := 0 }) hb hh
          ((findRecord_of_queue (setEngine_queue _ _ _) h).trans hr),
          siteOr_of_edge (by rw [setEngine_tables]) (setEngine_clock _ _ _), classSymbol_of_tables (setEngine_tables _ _ _)]
      rw [heq, modEngine_eq, hwork, startSending_eq, engine_setEngine_same, hcompose, setEngine_setEngine,
        siteOr_of_edge (by rw [setEngine_tables]) (setEngine_clock _ _ _)]
    · have heq : s.nextBlock e c = s.finishCall e := by
        unfold State.nextBlock
        rw [hb]
      rw [heq]
      obtain ⟨h1, h2, h3⟩ := finishCall_spec s e
      exact ⟨h1, h2 c, h3 c⟩

end Sys2Proof.Proofs

namespace Sys2Proof.Machine
open Sys2Proof Sys2Proof.Machine

/-! ### The acknowledgement of a block (R68) -/

/-- R21: the current entry ACKED and its record delivered, in the state in which the block's acknowledgement is taken. -/
def State.acknowledging (s : State) (e : EngineId) (tone : ToneId) (c : CallRecord) : State :=
  ((s.dropReport e (.matched tone)).modEngine e fun x => { x with phaseTimer := none }).ackBlock e c

/-- R68: the engine, its entry ACKED, its report taken and its timer gone. -/
def Engine.acked (x : Engine) (tone : ToneId) : Engine :=
  { x with phaseTimer := none, reports := x.reports.erase (.matched tone)
           work := x.work.mapCall fun c => { c with blocks := c.blocks.modify c.current fun b => { b with state := .acked } } }

theorem acknowledging_no_record {s : State} {e : EngineId} {tone : ToneId} {c : CallRecord} {b : BlockEntry}
    (hb : c.blocks[c.current]? = some b) (hh : b.handle = none) :
    s.acknowledging e tone c = s.setEngine e ((s.engine e).acked tone) := by
  unfold State.acknowledging State.ackBlock
  rw [hb, Option.bind_some, hh]
  cases e <;> rfl

theorem acknowledging_record {s : State} {e : EngineId} {tone : ToneId} {c : CallRecord} {b : BlockEntry} {h : Handle} {r : Record}
    {f : EngineId} (hb : c.blocks[c.current]? = some b) (hh : b.handle = some h) (hr : s.findRecord h = some r)
    (hst : r.state = .inCall f) : s.acknowledging e tone c =
      (({ s with queue := s.queue.filter fun r => r.handle != h } : State).raise (.delivered h r.key c.route)).setEngine e
        ((s.engine e).acked tone) := by
  have hm : (((s.dropReport e (.matched tone)).modEngine e fun x => { x with phaseTimer := none }).modEngine e fun x =>
      x.modCall fun c => { c with blocks := c.blocks.modify c.current fun b => { b with state := .acked } }) =
      s.setEngine e ((s.engine e).acked tone) := by cases e <;> rfl
  unfold State.acknowledging State.ackBlock
  rw [hm, hb, Option.bind_some, hh]
  unfold State.deliverRecord
  dsimp only
  rw [findRecord_of_queue (setEngine_queue _ _ _), hr]
  dsimp only
  rw [if_pos (by rw [hst]; rfl)]
  cases e <;> rfl

/-- R68: after the pre-emption check, an engine whose call has no mark waits for the tone's end. -/
theorem ackHeard_eq (s : State) (e : EngineId) (tone : ToneId) (c : CallRecord) :
    (s.dropReport e (.matched tone)).ackHeard e tone c =
      if (((s.acknowledging e tone c).preemptCheck []).engine e).marked then ((s.acknowledging e tone c).preemptCheck []).preemptStop e
      else ((s.acknowledging e tone c).preemptCheck []).modEngine e fun x =>
        { x with step := .toneHeard
                 phaseTimer := some (ticksOfTenths (((s.acknowledging e tone c).preemptCheck []).routeOr c.route).ackTimeout)
                 detector := x.detector.watch tone Loading.watchAbsence } := rfl

theorem acked_marked {x : Engine} {c : CallRecord} (h : x.work.call = some c) (tone : ToneId) :
    (x.acked tone).marked = c.preempt := by
  have hcall : (x.acked tone).work.call =
      some { c with blocks := c.blocks.modify c.current fun b => { b with state := .acked } } := by
    show (x.work.mapCall _).call = _
    rw [Work.mapCall_call, h]
    rfl
  rw [Engine.marked, hcall]

theorem firstIdle_of_idle {s : State} {e : EngineId} (h : (s.engine e).phase = .idle) : s.firstIdle.isSome = true := by
  rw [State.firstIdle, List.find?_isSome]
  exact ⟨e, by cases e <;> decide, by rw [State.idleEngine, h]; rfl⟩

theorem firstIdle_of_busy {s : State} {e : EngineId} (h : (s.engine e).phase ≠ .idle) (h' : (s.engine (other e)).phase ≠ .idle) :
    s.firstIdle = none := by
  refine List.find?_eq_none.2 fun f _ => ?_
  rcases other_or e f with rfl | rfl
  · simpa [State.idleEngine] using h
  · simpa [State.idleEngine] using h'

/-- What an acknowledgement leaves of the state beside the engine, the queue and DELIVERED. -/
structure AckKeeps (e : EngineId) (s t : State) : Prop where
  clock : t.clock = s.clock
  hwi : t.hwi = s.hwi
  tables : t.tables = s.tables
  dsc : t.dsc = s.dsc
  companion : t.engine (other e) = s.engine (other e)

theorem AckKeeps.routeOr {e : EngineId} {s t : State} (h : AckKeeps e s t) (r : RouteId) : t.routeOr r = s.routeOr r := by
  rw [State.routeOr, State.routeEntry, h.tables, h.clock]
  rfl

theorem AckKeeps.inSync {e : EngineId} {s t : State} (h : AckKeeps e s t) : t.inSync = s.inSync := by
  rw [State.inSync, h.hwi]
  rfl

theorem AckKeeps.routeValid {e : EngineId} {s t : State} (h : AckKeeps e s t) (r : RouteId) : t.routeValid r = s.routeValid r := by
  rw [State.routeValid, State.routeEntry, h.tables]
  rfl

/-- Which engine has a call on a route is a matter of the calls' routes. -/
theorem callOn_of_routes {s t : State}
    (h : ∀ f, (t.engine f).work.call.map CallRecord.route = (s.engine f).work.call.map CallRecord.route) (r : RouteId) :
    t.callOn r = s.callOn r := by
  have hmap : ∀ (m : State) f, (match (m.engine f).work.call with
      | some c => c.route == r
      | none => false) = ((m.engine f).work.call.map CallRecord.route == some r) := fun m f => by
    cases (m.engine f).work.call <;> rfl
  unfold State.callOn
  congr 1
  funext f
  exact (hmap t f).trans ((congrArg (· == some r) (h f)).trans (hmap s f).symm)

end Sys2Proof.Machine

namespace Sys2Proof.Proofs
open Sys2Proof Sys2Proof.Machine

/-- Settles O33: the acknowledgement, and the pre-emption check after it. -/
theorem acknowledgementTaken : Obligations.AcknowledgementTaken := by
  intro s e tone c b hlow ha hm hp hst hc hr hb y sB hy hcase heard hheard
  have hyacked : y = (s.engine e).acked tone := hy
  have hrun : exec (.ackMatchedTaken e tone) s = .next ((s.dropReport e (.matched tone)).ackHeard e tone c) := by
    refine (running_live (fun s => s.onMatched e tone _ fun s' _ => s'.ackMatched e tone) hlow).trans ?_
    rw [onMatched_taken _ ha hm hr (by simp [hp]), State.ackMatched, if_pos (by rw [dropReport_engine]; exact hst), dropReport_engine,
      hc]
  have hack : s.acknowledging e tone c = sB ∧ AckKeeps e s sB ∧ sB.engine e = y := by
    rcases hcase with ⟨hh, rfl⟩ | ⟨h, r, f, hh, hrec, hin, rfl⟩
    · refine ⟨by rw [hyacked]; exact acknowledging_no_record hb hh, ⟨setEngine_clock .., setEngine_hwi .., setEngine_tables ..,
        setEngine_dsc .., engine_setEngine_other _ _ (other_ne e)⟩, engine_setEngine_same _ _ _⟩
    · refine ⟨by rw [hyacked]; exact acknowledging_record hb hh hrec hin, ⟨setEngine_clock .., setEngine_hwi .., setEngine_tables ..,
        setEngine_dsc .., engine_setEngine_other _ _ (other_ne e)⟩, engine_setEngine_same _ _ _⟩
  obtain ⟨hA, hkeep, hyB⟩ := hack
  rw [hrun, ackHeard_eq, hA]
  have hmark : (sB.engine e).marked = c.preempt := by rw [hyB, hyacked, acked_marked hc]
  have hwork : (sB.engine e).work.isLineTest = false := by
    rw [hyB, hyacked]
    show ((s.engine e).work.mapCall _).isLineTest = false
    rcases call_cases hc with h | h <;> rw [h] <;> rfl
  have hwait : ∀ m : State, m.engine e = y → m.routeOr c.route = s.routeOr c.route →
      (m.modEngine e fun x => { x with step := .toneHeard, phaseTimer := some (ticksOfTenths (m.routeOr c.route).ackTimeout)
                                       detector := x.detector.watch tone Loading.watchAbsence }) = m.setEngine e heard := fun m hme hmr => by
    rw [modEngine_eq, hme, hmr, hheard, hyacked]
    rfl
  refine ⟨fun hnot => ?_, fun hpre hnone => ?_, fun i j m n pre post r ce rt hpre hother hmarked hhold hready hsync horder hij hi hj
    hnodup hq hfirst hw hce hrt hv hcall hm' hn' k sM hk hsM => ?_⟩
  · have hcheck : sB.preemptCheck [] = sB := by
      refine preemptCheck_not_made [] ?_
      rw [hkeep.dsc, ready_of_tables hkeep.tables, hkeep.inSync]
      exact hnot.imp (fun h => firstIdle_of_idle (e := other e) (by rw [hkeep.companion]; exact h)) id
    rw [hcheck, hmark]
    refine ⟨fun hpre => ?_, fun hpre => ⟨_, by rw [if_pos hpre], preemptStop_stopped e sB hwork⟩⟩
    rw [if_neg (by simp [hpre]), hwait sB hyB (hkeep.routeOr _)]
  · rw [preemptCheck_none_waiting [] hnone, hmark, if_neg (by simp [hpre]), hwait sB hyB (hkeep.routeOr _)]
  · have hbusy : (sB.engine e).phase ≠ .idle := by
      rw [hyB, hyacked]
      show (s.engine e).phase ≠ .idle
      rw [hp]
      decide
    have hurgent : sB.UrgentFirst i j m n := by
      refine ⟨by rw [hkeep.dsc]; exact horder, hij, hi, hj, hnodup, pre, r, post, ce, rt, hq, hfirst, hw, ?_, hrt, ?_, ?_, hm', hn'⟩
      · rw [State.classEntry, hkeep.tables]
        exact hce
      · rw [hkeep.routeValid]
        exact hv
      · rw [callOn_of_routes fun f => ?_, hcall]
        rcases other_or e f with rfl | rfl
        · rw [hyB, hyacked]
          show ((s.engine f).work.mapCall _).call.map _ = _
          rw [Work.mapCall_call, Option.map_map]
          rfl
        · rw [hkeep.companion]
    have hmay : sB.mayDispatch = true := by
      rw [State.mayDispatch, hkeep.dsc, ready_of_tables hkeep.tables, hkeep.inSync, hhold, hready, hsync]
      rfl
    have hcheck : sB.preemptCheck [] = sM := by
      rw [preemptCheck_marks hmay (firstIdle_of_busy hbusy (by rw [hkeep.companion]; exact hother)) (by rw [hkeep.dsc]; exact hmarked)
        hurgent, ← hk, markCall_eq, hsM]
    rw [hcheck]
    refine ⟨fun hke => ?_, fun hke => ?_⟩
    · subst hke
      have heng : (sM.engine k).marked = true ∧ (sM.engine k).work.isLineTest = false := by
        rw [hsM, engine_setEngine_same]
        show Engine.marked { sB.engine k with work := (sB.engine k).work.mapCall _ } = true ∧
          ((sB.engine k).work.mapCall _).isLineTest = false
        rw [hyB, hyacked, Engine.marked]
        rcases call_cases hc with h | h
        · rw [show ((s.engine k).acked tone).work = (s.engine k).work.mapCall _ from rfl, h]
          exact ⟨rfl, rfl⟩
        · rw [show ((s.engine k).acked tone).work = (s.engine k).work.mapCall _ from rfl, h]
          exact ⟨rfl, rfl⟩
      exact ⟨_, by rw [if_pos heng.1], preemptStop_stopped k sM heng.2⟩
    · have heng : sM.engine e = y := by
        rw [hsM, engine_setEngine_other _ _ (Ne.symm hke)]
        exact hyB
      have hmarkM : (sM.engine e).marked = c.preempt := by rw [heng, ← hyB, hmark]
      rw [hmarkM, if_neg (by simp [hpre]), hwait sM heng]
      rw [hsM, State.routeOr, State.routeEntry, setEngine_tables, setEngine_clock]
      exact hkeep.routeOr _

end Sys2Proof.Proofs

namespace Sys2Proof.Machine
open Sys2Proof Sys2Proof.Machine

/-! ### What an arrival cannot tell (R12), before an ending -/

theorem takeDelivery_alike {s s1 : State} {u : TrunkId} {sig : LineSignal} {v : Bool}
    (h : s.takeDelivery u sig = some (v, s1)) (e : EngineId) : ArrivesAlike e s s1 := by
  rw [takeDelivery_eq h]
  exact ⟨rfl, rfl, fun _ => rfl, rfl, rfl, rfl, rfl, rfl⟩

theorem cardFaultRise_alike {s : State} {u : TrunkId} (hm : s.managed u = true) (e : EngineId) :
    ArrivesAlike e s (s.cardFaultRise u) := by
  rw [cardFaultRise_eq hm]
  split
  · exact .refl e s
  · exact ((ArrivesAlike.refl e s).setTrunk u _).told (show (5 : EventKind) ≠ 4 by decide)

/-- R113: the call of engine `e` fails on the line as it stands in `p`, which an arrival cannot tell from `s`. -/
structure LineEnding (e : EngineId) (c : CallRecord) (s p t : State) (cause : CallOutcome) : Prop where
  alike : ArrivesAlike e s p
  isLine : cause.isLine = true
  failures : (p.trunk c.trunk).failures = (s.trunk c.trunk).failures
  faulted : (s.trunk c.trunk).faulted = true → (p.trunk c.trunk).faulted = true
  queue : t.queue = (p.failCall e cause).queue
  companion : t.engine (other e) = (p.failCall e cause).engine (other e)

section
variable {e : EngineId} {c : CallRecord} {s p m t : State} {cause : CallOutcome}

theorem CallSettled.congr {o t' : State} {outcome : State → Handle → State} (h : CallSettled e o outcome m t c)
    (hq : t'.queue = t.queue) (he : t'.engine (other e) = t.engine (other e)) : CallSettled e o outcome m t' c := by
  obtain ⟨b, h1, h2, h3, h4, h5⟩ := h.exists_start
  exact ⟨b, h1, h2, h3, hq.trans h4, he.trans h5⟩

/-- A line failure that offers no alert settles the call's records from where they stood. -/
theorem LineEnding.settled (h : LineEnding e c s p t cause) (hq : QueueSound s) (hw : (s.engine e).work = .alertCall c)
    (hbelow : (s.trunk c.trunk).failures = 0 ∨ (s.trunk c.trunk).faulted = true) :
    CallSettled e ((p.stopEngine e).lineCounted e cause) State.uncountedReturn s t c := by
  have hu : (p.engine e).work.trunk = some c.trunk := by rw [h.alike.work, hw]; rfl
  have halike := h.alike.trans ((lineCounted_alike (cause := cause) hu h.isLine).1
    (hbelow.imp (fun hf => h.failures.trans hf) h.faulted))
  have hs := halike.lineFails hq hw h.isLine
  rw [← failCall_eq] at hs
  exact hs.congr h.queue h.companion

/-- R12: an arrival leaves a record in a call to be settled just as it was. -/
theorem ArrivalKeeps.unsettled (h : ArrivalKeeps s m) (hin : (m.engine e).work.isAlertCall = true)
    (hw : (s.engine e).work = .alertCall c) {g : Handle} (hg : g ∈ c.unsettled) (hcount : c.unsettled.count g = 1) {r : Record}
    (hr : s.findRecord g = some r) (hc : r.state.isInCall = true) :
    ∃ c', (m.engine e).work = .alertCall c' ∧ g ∈ c'.unsettled ∧ c'.unsettled.count g = 1 := by
  obtain ⟨c', hc'⟩ : ∃ c', (m.engine e).work = .alertCall c' := by
    cases hm : (m.engine e).work with
    | alertCall c' => exact ⟨c', rfl⟩
    | _ => rw [hm] at hin; cases hin
  refine ⟨c', hc', ?_⟩
  obtain ⟨b, hb, hblocks⟩ := h.joined e c' hc'
  obtain rfl := Work.alertCall.inj (hw.symm.trans hb)
  rcases hblocks with rfl | ⟨x, rfl, hx⟩
  · exact ⟨hg, hcount⟩
  · rw [unsettled_append]
    have hne : x ≠ g := fun he => by
      rw [hx r (he ▸ hr)] at hc
      cases hc
    exact ⟨List.mem_append_left _ hg, by rw [List.count_append, hcount, List.count_singleton]; simp [hne]⟩

/-- R46: every record the call has still to settle returns, an alert offered or not. -/
theorem LineEnding.returned (h : LineEnding e c s p t cause) (hq : QueueSound s) (hw : (s.engine e).work = .alertCall c)
    {g : Handle} (hg : g ∈ c.unsettled) (hcount : c.unsettled.count g = 1) {r : Record} (hr : s.findRecord g = some r)
    (hc : r.state.isInCall = true) : Returned e g { r with state := .waiting } t := by
  by_cases hbelow : (s.trunk c.trunk).failures = 0 ∨ (s.trunk c.trunk).faulted = true
  · exact (h.settled hq hw hbelow).returned (uncountedReturn_settler e _) (fun _ => rfl) (fun _ => rfl) hg hcount hr hc
  · by_cases hbelow' : (p.trunk c.trunk).failures = 0 ∨ (p.trunk c.trunk).faulted = true
    · have hpw := h.alike.work.trans hw
      have hend : LineEnding e c p p t cause := ⟨.refl e p, h.isLine, rfl, id, h.queue, h.companion⟩
      exact (hend.settled (queueSound_congr h.alike.queue hq) hpw hbelow').returned (uncountedReturn_settler e _) (fun _ => rfl)
        (fun _ => rfl) hg hcount ((h.alike.findRecord g).trans hr) hc
    · have hpq := queueSound_congr h.alike.queue hq
      have hpw := h.alike.work.trans hw
      have hu : (p.engine e).work.trunk = some c.trunk := by rw [hpw]; rfl
      obtain ⟨k, hk⟩ : ∃ k : Key, k = ⟨0, c.trunk.val + 1, p.siteOr.lineFaultEvent, .new⟩ := ⟨_, rfl⟩
      have halike : ArrivesAlike e (p.internalAlert k 4) ((p.stopEngine e).lineCounted e cause) := by
        rw [hk]
        exact (lineCounted_alike (cause := cause) hu h.isLine).2 (by omega) (by simpa using fun hf => hbelow' (.inr hf))
      have hkeeps := internalAlert_keeps p hpq k 4
      have hin : ((p.internalAlert k 4).engine e).work.isAlertCall = true := by
        rw [(internalAlert_joined p k 4 e).isAlertCall_eq, hpw]
        rfl
      have hpr := (h.alike.findRecord g).trans hr
      obtain ⟨c', hc', hg', hcount'⟩ := hkeeps.unsettled hin hpw hg hcount hpr hc
      have hs := halike.lineFails ((localKept_internalAlert p k 4).queue hpq) hc' h.isLine
      rw [← failCall_eq] at hs
      exact (hs.congr h.queue h.companion).returned (uncountedReturn_settler e _) (fun _ => rfl) (fun _ => rfl) hg' hcount'
        (hkeeps.inCall g r hpr hc) hc

end

/-! ### The commands that end an alert call -/

section
variable {e : EngineId} {c : CallRecord} {s t : State} {cmd : Instr}

theorem failWork_alertCall {p : State} (hw : (p.engine e).work = .alertCall c) (cause : CallOutcome) (code : TestCode) :
    p.failWork e cause code = p.failCall e cause := by
  rw [State.failWork, hw]
  rfl

/-- A command that runs into a line failure at once. -/
theorem LineEnding.of_run {p : State} {cause : CallOutcome} {code : TestCode}
    (hw : (s.engine e).work = .alertCall c) (halike : ArrivesAlike e s p) (htrunk : p.trunk c.trunk = s.trunk c.trunk)
    (hl : cause.isLine = true) (hrun : exec cmd s = .next (p.failWork e cause code)) (hx : exec cmd s = .next t) :
    LineEnding e c s p t cause := by
  obtain rfl := Host.Outcome.next.inj (hx.symm.trans hrun)
  rw [failWork_alertCall (halike.work.trans hw)]
  exact ⟨halike, hl, by rw [htrunk], fun h => by rw [htrunk]; exact h, rfl, rfl⟩

/-- R55, R114: a card fault, at the trunk first or at the engine first. -/
theorem lineEnding_of_cardFault {s1 : State} {order : FaultOrder} (hlow : s.resetLow = false)
    (hw : (s.engine e).work = .alertCall c) (ha : (s.engine e).acts = true)
    (htake : s.takeDelivery c.trunk .f = some (true, s1)) (hm : s.managed c.trunk = true)
    (hs : (s.trunk c.trunk).state = .taken) (hh : (s.trunk c.trunk).holder = some e)
    (hp : (s.engine e).phase = .seize ∨ (s.engine e).phase.supervised = true)
    (hx : exec (.debouncedFChange c.trunk order) s = .next t) : ∃ p, LineEnding e c s p t .cardFault := by
  have hm1 : s1.managed c.trunk = true := (managed_taken htake _).trans hm
  have htrunk : s1.trunk c.trunk = s.trunk c.trunk := by rw [takeDelivery_eq htake]; rfl
  have heng : s1.engine e = s.engine e := by rw [takeDelivery_eq htake]; rfl
  have htaken := takeDelivery_alike htake e
  rw [exec_fChange hlow, onChange_of_taken htake, if_pos hm1, fChange_true] at hx
  cases order with
  | trunkFirst =>
    have htrunkR : (s1.cardFaultRise c.trunk).trunk c.trunk = { s.trunk c.trunk with faulted := true } := by
      rw [cardFaultRise_trunk_same hm1, htrunk]
    have hengR : (s1.cardFaultRise c.trunk).engine e = s.engine e := (engine_of_engines (cardFaultRise_engines _ _) e).trans heng
    have halike := htaken.trans (cardFaultRise_alike hm1 e)
    suffices hends : t.queue = ((s1.cardFaultRise c.trunk).failCall e .cardFault).queue ∧ t.engine (other e) =
        ((s1.cardFaultRise c.trunk).failCall e .cardFault).engine (other e) from
      ⟨_, halike, rfl, by rw [htrunkR], fun _ => by rw [htrunkR], hends.1, hends.2⟩
    obtain rfl := Host.Outcome.next.inj hx
    dsimp only
    rw [faultAtEngine_ends (by rw [htrunkR]; exact hs) (by rw [htrunkR]; exact hh) (by rw [hengR]; exact ha)
      (by rw [hengR]; exact hp), failWork_alertCall (halike.work.trans hw)]
    exact ⟨rfl, rfl⟩
  | engineFirst =>
    suffices hends : t.queue = (s1.failCall e .cardFault).queue ∧ t.engine (other e) = (s1.failCall e .cardFault).engine (other e) from
      ⟨s1, htaken, rfl, by rw [htrunk], fun h => by rw [htrunk]; exact h, hends.1, hends.2⟩
    obtain rfl := Host.Outcome.next.inj hx
    dsimp only
    rw [faultAtEngine_ends (by rw [htrunk]; exact hs) (by rw [htrunk]; exact hh) (by rw [heng]; exact ha)
      (by rw [heng]; exact hp), failWork_alertCall (htaken.work.trans hw)]
    exact ⟨cardFaultRise_queue _ _, engine_of_engines (cardFaultRise_engines _ _) _⟩

theorem lineEnding_of_lineFails (hlow : s.resetLow = false) (hw : (s.engine e).work = .alertCall c)
    (hx : exec cmd s = .next t) (h : LineFails s e c cmd) : ∃ p cause, LineEnding e c s p t cause := by
  obtain ⟨ha, ⟨rfl, ht, hp⟩ | ⟨rfl, ht, hp, hst⟩ | ⟨rfl, ht, hp⟩ | ⟨tone, rfl, hm, hp, hst, hr⟩ | ⟨rfl, ht, hp, hf⟩ |
    ⟨order, s1, rfl, htake, hm, hs, hh, hp⟩⟩ := h
  · refine ⟨s, .noLoop, .of_run (code := .noLoop) hw (.refl e s) rfl rfl ?_ hx⟩
    refine (running_live (fun s => s.onTimer e _ fun s' => s'.failWork e .noLoop .noLoop) hlow).trans ?_
    rw [onTimer_due _ ha ht (by simp [hp])]
  · refine ⟨s, .noDialTone, .of_run (code := .noDialTone) hw (.refl e s) rfl rfl ?_ hx⟩
    refine (running_live (fun s => s.onTimer e _ fun s' => s'.failWork e .noDialTone .noDialTone) hlow).trans ?_
    rw [onTimer_due _ ha ht (by simp [hp, hst])]
  · refine ⟨s, .lineLost, .of_run (code := .noLoop) hw (.refl e s) rfl rfl ?_ hx⟩
    refine (running_live (State.loopLossEnd e) hlow).trans ?_
    unfold State.loopLossEnd
    dsimp only
    rw [if_pos (by simp [ha, ht, hp])]
  · have hwd : ((s.dropReport e (.matched tone)).engine e).work = .alertCall c := by rw [dropReport_engine]; exact hw
    refine ⟨s.dropReport e (.matched tone), .noDialTone, .of_run (code := .noDialTone) hw (modEngine_alike _ rfl rfl)
      (modEngine_trunk _ _ _ _) rfl ?_ hx⟩
    refine (running_live (fun s => s.onMatched e tone _ fun s' role => s'.dialToneMatched e role) hlow).trans ?_
    rw [onMatched_taken _ ha hm hr (by simp [hp, hst, hw, Work.isLineTest]), failWork_alertCall hwd]
    unfold State.dialToneMatched
    rw [hwd]
    rfl
  · have hcall : (s.engine e).work.call = some c := by rw [hw]; rfl
    refine ⟨s.modEngine e fun x => x.seizing s.clock (ticksOfMs s.siteOr.loopTimeout) (s.debounced c.trunk .v), .cardFault,
      .of_run (code := .cardFault) hw (modEngine_alike _ (seizing_call hcall _ _ _) (by rw [hp]; rfl)) (modEngine_trunk _ _ _ _) rfl
        ?_ hx⟩
    refine (running_live (fun s => s.onTimer e _ fun s' => s'.clearEnd e) hlow).trans ?_
    rw [onTimer_due _ ha ht (by simp [hp]), State.clearEnd, call_trunk hcall]
    show Host.Outcome.next (s.enterSeize e c.trunk) = _
    rw [enterSeize_eq]
    dsimp only
    rw [if_pos hf]
    rfl
  · obtain ⟨p, hp⟩ := lineEnding_of_cardFault hlow hw ha htake hm hs hh hp hx
    exact ⟨p, _, hp⟩

/-- R47: what stops a call without a cause settles its records from where they stood. -/
theorem callSettled_of_callStops (hlow : s.resetLow = false) (hq : QueueSound s) (hw : (s.engine e).work = .alertCall c)
    (hx : exec cmd s = .next t) (h : CallStops s e c cmd) : ∃ p, CallSettled e p State.uncountedReturn s t c := by
  have hstop : ∀ m : State, ArrivesAlike e s m → t = ((m.stopEngine e).applyToBlocks e State.uncountedReturn).close e →
      ∃ p, CallSettled e p State.uncountedReturn s t c := fun m hm ht =>
    ⟨_, (hm.trans (stopEngine_alike m e)).settled hq hw (by rw [ht, close_queue]) (by rw [ht, close_engine_other _ (other_ne e)])⟩
  have hpreempt : ∀ m : State, ArrivesAlike e s m → m.preemptStop e =
      ((m.stopEngine e).applyToBlocks e State.uncountedReturn).close e := fun m hm => by
    unfold State.preemptStop
    dsimp only
    rw [stopEngine_work, hm.work, hw]
  have hcall : (s.engine e).work.call = some c := by rw [hw]; rfl
  rcases h with ⟨rfl, hab⟩ | ⟨ha, hpre, ⟨rfl, hsafe⟩ | ⟨rfl, ht, hp, hst⟩⟩
  · refine hstop s (.refl e s) (Host.Outcome.next.inj (hx.symm.trans ((running_live (State.abortTaken e) hlow).trans ?_)))
    rw [State.abortTaken, if_pos hab, State.abortEngine, hw]
  · refine hstop s (.refl e s) (Host.Outcome.next.inj (hx.symm.trans ((running_live (State.markTaken e) hlow).trans ?_)))
    have hmark : (s.engine e).marked = true := by rw [Engine.marked, hcall]; exact hpre
    unfold State.markTaken
    dsimp only
    rw [if_pos (by simp [ha, hmark, hsafe]), hpreempt s (.refl e s)]
  · refine hstop _ (stopListening_alike s e) (Host.Outcome.next.inj (hx.symm.trans ((running_live (fun s => s.onTimer e _ fun s' =>
      s'.ackTimedOut e) hlow).trans ?_)))
    rw [onTimer_due _ ha ht (by simp [hp, hst]), ackTimedOut_eq hcall, if_pos hpre, hpreempt _ (stopListening_alike s e)]

/-- R45: a far-end failure is met in a state that an arrival cannot tell from `s`. -/
theorem failCall_of_farEndFails (hlow : s.resetLow = false) (hw : (s.engine e).work = .alertCall c)
    (hx : exec cmd s = .next t) (h : FarEndFails s e c cmd) :
    ∃ p cause, ArrivesAlike e s p ∧ p.clock = s.clock ∧ CallOutcome.isLine cause = false ∧ t = p.failCall e cause := by
  have hcall : (s.engine e).work.call = some c := by rw [hw]; rfl
  obtain ⟨ha, ⟨tone, rfl, hm, hp, hst, hr⟩ | ⟨rfl, ht, hp, hst⟩ | ⟨rfl, ht, hp, hst, hpre, htry⟩ |
    ⟨v, s1, rfl, htake, hm, hs, hh, hpol⟩⟩ := h
  · have heng := dropReport_engine s e (.matched tone)
    have hrun : ∀ role, (s.engine e).roleOf tone = some role → t = (s.dropReport e (.matched tone)).answerMatched e tone role :=
      fun role hr => Host.Outcome.next.inj (hx.symm.trans ((running_live (fun s => s.onMatched e tone _ fun s' role =>
        s'.answerMatched e tone role) hlow).trans (by rw [onMatched_taken _ ha hm hr (by simp [hp])])))
    have hact : ∀ role cause, (role = .busy ∧ cause = .busy ∨ role = .reorder ∧ cause = .congestion) →
        (s.dropReport e (.matched tone)).answerMatched e tone role = (s.dropReport e (.matched tone)).failCall e cause := by
      intro role cause hcase
      unfold State.answerMatched
      rw [if_pos (by rw [heng]; exact hst), heng]
      show (match role, (s.engine e).work.trunk with | _, _ => _) = _
      rw [call_trunk hcall]
      rcases hcase with ⟨rfl, rfl⟩ | ⟨rfl, rfl⟩ <;> rfl
    rcases hr with hr | hr
    · exact ⟨_, .busy, modEngine_alike _ rfl rfl, modEngine_clock _ _ _, rfl, (hrun _ hr).trans (hact _ _ (.inl ⟨rfl, rfl⟩))⟩
    · exact ⟨_, .congestion, modEngine_alike _ rfl rfl, modEngine_clock _ _ _, rfl, (hrun _ hr).trans (hact _ _ (.inr ⟨rfl, rfl⟩))⟩
  · refine ⟨s, .noAnswer, .refl e s, rfl, rfl, Host.Outcome.next.inj (hx.symm.trans ?_)⟩
    refine (running_live (fun s => s.onTimer e _ fun s' => s'.failCall e .noAnswer) hlow).trans ?_
    rw [onTimer_due _ ha ht (by rcases hst with h | h <;> simp [hp, h])]
  · refine ⟨s.stopListening e, .noAck, stopListening_alike s e, (stopListening_spec s e).1.edge.clock, rfl,
      Host.Outcome.next.inj (hx.symm.trans ?_)⟩
    refine (running_live (fun s => s.onTimer e _ fun s' => s'.ackTimedOut e) hlow).trans ?_
    rw [onTimer_due _ ha ht (by simp [hp, hst]), ackTimedOut_eq hcall, if_neg (by simp [hpre]), if_neg (by omega)]
  · have hline : s1.lineEngine c.trunk = some e := (onChange_lineEngine htake _).trans (lineEngine_of_acts hs hh ha)
    have hpol1 : (s1.engine e).polRef = some (!v) := by rw [takeDelivery_eq htake]; exact hpol
    refine ⟨s1, .farCleared, takeDelivery_alike htake e, by rw [takeDelivery_eq htake], rfl, Host.Outcome.next.inj (hx.symm.trans ?_)⟩
    rw [exec_vChange hlow, onChange_of_taken htake, if_pos ((managed_taken htake _).trans hm), State.vChange, hline]
    simp [hpol1]

/-! ### The events of far-end failures -/

/-- R19: what a failure tells is of a fallback or of a stranding. -/
theorem fail_tells (r : Record) (ce : ClassEntry) (n : Nat) (route : RouteId) :
    ∀ d ∈ (r.fail ce n route).2, d.kind = 2 ∨ d.kind = 3 := by
  unfold Record.fail
  dsimp only
  split
  · split <;> split <;> simp [Detail.kind]
  · simp

theorem fail_state (r : Record) (ce : ClassEntry) (n : Nat) (route : RouteId) :
    (r.fail ce n route).1.state = .stranded ∨ ∃ a b, (r.fail ce n route).1.state = .held a b := by
  unfold Record.fail
  dsimp only
  split
  · split <;> split <;> simp
  · simp

theorem raise_tells (s : State) (d : Detail) : (vget (s.raise d).evr.records d.kind).pending = true := by
  rw [raise_record_same]
  rfl

theorem raiseAll_pending_kept (k : EventKind) : ∀ (ds : List Detail) (s : State), (vget s.evr.records k).pending = true →
    (vget (ds.foldl State.raise s).evr.records k).pending = true
  | [], _, h => h
  | d :: ds, s, h => by
    refine raiseAll_pending_kept k ds (s.raise d) ?_
    by_cases hk : k = d.kind
    · rw [hk]
      exact raise_tells s d
    · rw [raise_record_other s d hk]
      exact h

theorem raiseAll_tells : ∀ (ds : List Detail) (s : State), ∀ d ∈ ds, (vget (ds.foldl State.raise s).evr.records d.kind).pending = true
  | [], _, _, h => absurd h (by simp)
  | d :: ds, s, x, hx => by
    rcases List.mem_cons.1 hx with rfl | hx
    · exact raiseAll_pending_kept _ ds (s.raise x) (raise_tells s x)
    · exact raiseAll_tells ds (s.raise d) x hx

theorem farEndFailure_pending_kept (k : EventKind) (s : State) (g : Handle) (route : RouteId)
    (h : (vget s.evr.records k).pending = true) : (vget (s.farEndFailure g route).evr.records k).pending = true := by
  unfold State.farEndFailure
  split
  · split
    · dsimp only
      rw [settleReturn_evr]
      exact raiseAll_pending_kept k _ _ h
    · exact h
  · exact h

theorem farEndFailures_pending_kept (k : EventKind) (route : RouteId) : ∀ (hs : List Handle) (s : State),
    (vget s.evr.records k).pending = true →
    (vget (hs.foldl (fun s h => s.farEndFailure h route) s).evr.records k).pending = true
  | [], _, h => h
  | g :: hs, s, h => farEndFailures_pending_kept k route hs _ (farEndFailure_pending_kept k s g route h)

/-- R17: each record that fails at the far end raises the events of its failure. -/
theorem farEndFailures_tell (o : State) (route : RouteId) {h : Handle} {r : Record} (hc : r.state.isInCall = true) :
    ∀ (hs : List Handle) (s : State), s.EndsIn e o → h ∈ hs → s.findRecord h = some r →
    ∀ d ∈ (r.fail (o.classOr r.cls) (o.routeOr route).fallbackAfter route).2,
      (vget (hs.foldl (fun s h => s.farEndFailure h route) s).evr.records d.kind).pending = true
  | [], _, _, hh, _, _, _ => absurd hh (by simp)
  | g :: hs, s, hends, hh, hr, d, hd => by
    have hS := farEndFailure_settler e o route
    by_cases hg : g = h
    · subst hg
      have hclass : s.classOr r.cls = o.classOr r.cls := by
        rw [State.classOr, State.classEntry, hends.tables, hends.clock]
        rfl
      have hroute : s.routeOr route = o.routeOr route := by
        rw [State.routeOr, State.routeEntry, hends.tables, hends.clock]
        rfl
      refine farEndFailures_pending_kept _ route hs _ ?_
      unfold State.farEndFailure
      simp only [hr]
      rw [if_pos hc, settleReturn_evr, hclass, hroute]
      exact raiseAll_tells _ _ d hd
    · refine farEndFailures_tell o route hc hs _ (hS.keeps s g hends) ((List.mem_cons.1 hh).resolve_left (Ne.symm hg)) ?_ d hd
      rcases hS.step hends g with h' | ⟨x, hx, hxc, hset⟩
      · rw [show s.farEndFailure g route = s from h', hr]
      · exact hset.inCall_kept (Ne.symm hg) hr hc

end

/-- R45: the engine's call fails at the far end, as it stands in `p`. -/
theorem ArrivesAlike.farEndFails {e : EngineId} {s p : State} (h : ArrivesAlike e s p) (hq : QueueSound s) {c : CallRecord}
    (hw : (s.engine e).work = .alertCall c) {cause : CallOutcome} (hl : cause.isLine = false) :
    CallSettled e (p.stopEngine e) (fun s h => s.farEndFailure h c.route) s (p.failCall e cause) c ∧
      ∀ g ∈ c.unsettled, ∀ r, s.findRecord g = some r → r.state.isInCall = true →
        ∀ d ∈ (r.fail ((p.stopEngine e).classOr r.cls) ((p.stopEngine e).routeOr c.route).fallbackAfter c.route).2,
          (vget (p.failCall e cause).evr.records d.kind).pending = true := by
  have halike := h.trans (stopEngine_alike p e)
  have htold : p.failCall e cause = (((p.stopEngine e).applyToBlocks e fun s h => s.farEndFailure h c.route).raise
      (.callFailed c.route c.trunk cause)).close e := by
    rw [failCall_eq, State.lineCounted, hl, if_neg (by simp), State.failureTold, halike.work, hw]
    simp only [State.applyFailure, hl, Bool.false_eq_true, if_false]
  refine ⟨halike.settled hq hw (by rw [htold, close_queue]; rfl) (by rw [htold, close_engine_other _ (other_ne e)]; rfl),
    fun g hg r hr hc d hd => ?_⟩
  have hk := fail_tells _ _ _ _ d hd
  have h1 : d.kind ≠ 1 ∧ d.kind ≠ 5 ∧ d.kind ≠ 12 := by rcases hk with hk | hk <;> rw [hk] <;> decide
  have hends := callEmptied_endsIn e (queueSound_congr halike.queue hq)
  have hbq : ((p.stopEngine e).callEmptied e).findRecord g = some r := by
    rw [← hr, ← halike.findRecord]
    exact findRecord_of_queue (modEngine_queue _ _ _) g
  rw [htold, close_record _ _ h1.2.1 h1.2.2, applyToBlocks_eq (halike.work.trans hw)]
  rw [raise_record_other _ (.callFailed c.route c.trunk cause) (show d.kind ≠ 1 from h1.1)]
  exact farEndFailures_tell _ _ hc c.unsettled _ hends hg hbq d hd

end Sys2Proof.Machine

namespace Sys2Proof.Proofs
open Sys2Proof Sys2Proof.Machine

/-- Settles O47: the records of an alert call, at a line failure or a stop, and at a far-end failure. -/
theorem endedCallSettlesRecords : Obligations.EndedCallSettlesRecords := by
  intro s t e c cmd hlow hq hw hnodup hx
  have hcount : ∀ h ∈ c.unsettled, c.unsettled.count h = 1 := fun h hh => List.count_eq_one_of_mem hnodup hh
  have hin : ∀ r : Record, r.state = .inCall e → r.state.isInCall = true := fun r hr => by rw [hr]; rfl
  refine ⟨fun hcase => ⟨fun h hh r hr hst => ?_, fun hquiet => ?_⟩, fun hfar => ?_⟩
  · have hret : Returned e h { r with state := .waiting } t := by
      rcases hcase with hline | hstop
      · obtain ⟨p, cause, hend⟩ := lineEnding_of_lineFails hlow hw hx hline
        exact hend.returned hq hw hh (hcount h hh) hr (hin r hst)
      · obtain ⟨p, hend⟩ := callSettled_of_callStops hlow hq hw hx hstop
        exact hend.returned (uncountedReturn_settler e _) (fun _ => rfl) (fun _ => rfl) hh (hcount h hh) hr (hin r hst)
    exact hret.imp id (Or.imp And.right id)
  · have hend : ∃ p, CallSettled e p State.uncountedReturn s t c := by
      rcases hcase with hline | hstop
      · rcases hquiet with hstop | hbelow
        · exact callSettled_of_callStops hlow hq hw hx hstop
        · obtain ⟨p, cause, hend⟩ := lineEnding_of_lineFails hlow hw hx hline
          exact ⟨_, hend.settled hq hw hbelow⟩
      · exact callSettled_of_callStops hlow hq hw hx hstop
    obtain ⟨p, hend⟩ := hend
    have hS := uncountedReturn_settler e p
    exact ⟨hend.others hS fun _ => rfl, fun h hh r hr hst => ⟨hend.survives hS (fun _ => rfl) hh (hcount h hh) hr (hin r hst),
      fun halone hcall => hend.alone hS (fun _ => rfl) hh (hcount h hh) hr (hin r hst) halone (.inr hcall)⟩⟩
  · obtain ⟨p, cause, halike, hclock, hl, rfl⟩ := failCall_of_farEndFails hlow hw hx hfar
    obtain ⟨hend, htold⟩ := halike.farEndFails hq hw hl
    have hstopped := halike.trans (stopEngine_alike p e)
    have hclass : ∀ k, (p.stopEngine e).classOr k = s.classOr k := fun k => by
      rw [State.classOr, State.classEntry, hstopped.classes, stopEngine_clock, hclock]
      rfl
    have hS := farEndFailure_settler e (p.stopEngine e) c.route
    have hk : ∀ r : Record, (r.fail ((p.stopEngine e).classOr r.cls) ((p.stopEngine e).routeOr c.route).fallbackAfter c.route).1.key =
        r.key := fun r => (r.fail_keeps _ _ _).2.1
    have hback : ∀ r : Record, (r.fail ((p.stopEngine e).classOr r.cls) ((p.stopEngine e).routeOr c.route).fallbackAfter c.route) =
        r.fail (s.classOr r.cls) (s.routeOr c.route).fallbackAfter c.route := fun r => by
      rw [hclass, hstopped.routes]
    have hstate : ∀ r : Record, (r.fail (s.classOr r.cls) (s.routeOr c.route).fallbackAfter c.route).1.state.isInCall = false ∧
        (r.fail (s.classOr r.cls) (s.routeOr c.route).fallbackAfter c.route).1.state ≠ .waiting := fun r => by
      rcases fail_state r (s.classOr r.cls) (s.routeOr c.route).fallbackAfter c.route with h | ⟨a, b, h⟩ <;> rw [h]
      · exact ⟨rfl, RecordState.noConfusion⟩
      · exact ⟨rfl, RecordState.noConfusion⟩
    refine ⟨hend.others hS hk, fun h hh r hr hst out hout => ?_⟩
    subst hout
    refine ⟨?_, hend.survives hS hk hh (hcount h hh) hr (hin r hst), fun halone => ?_, fun d hd => ?_⟩
    · have hret := hend.returned hS hk (fun r => by rw [hback]; exact (hstate r).1) hh (hcount h hh) hr (hin r hst)
      rw [hback] at hret
      rcases hret with h' | ⟨h', -⟩ | h'
      · exact .inl h'
      · exact absurd h' (hstate r).2
      · rw [(r.fail_keeps _ _ _).2.1] at h'
        exact .inr h'
    · have := hend.alone hS hk hh (hcount h hh) hr (hin r hst) halone (.inl (by rw [hback]; exact (hstate r).2))
      rw [hback] at this
      exact this
    · exact htold h hh r hr (hin r hst) d (by rw [hback]; exact hd)

end Sys2Proof.Proofs

namespace Sys2Proof.Machine
open Sys2Proof Sys2Proof.Machine

/-! ### Where a record stands (R29) -/

theorem searchOrder_ahead {n pos p : Nat} (hp : pos ≤ p) (hn : p < n) :
    ∃ rest, searchOrder n pos = List.range' pos (p - pos) ++ p :: rest := by
  refine ⟨List.range' (p + 1) (n - (p + 1)) ++ (List.range n).take pos, ?_⟩
  have hsplit : List.range' pos (n - pos) = List.range' pos (p - pos) ++ p :: List.range' (p + 1) (n - (p + 1)) := by
    have h := List.range'_append_1 (s := pos) (m := p - pos) (n := n - (p + 1) + 1)
    rw [show pos + (p - pos) = p by omega, List.range'_succ, show p - pos + (n - (p + 1) + 1) = n - pos by omega] at h
    exact h.symm
  rw [searchOrder, List.range_eq_range', List.drop_range', Nat.mul_one, Nat.zero_add, hsplit]
  simp

theorem searchOrder_behind {n pos p : Nat} (hp : p < pos) (hn : p < n) :
    ∃ rest, searchOrder n pos = (List.range' pos (n - pos) ++ List.range' 0 p) ++ p :: rest := by
  refine ⟨List.range' (p + 1) (min pos n - (p + 1)), ?_⟩
  have hsplit : List.range' 0 (min pos n) = List.range' 0 p ++ p :: List.range' (p + 1) (min pos n - (p + 1)) := by
    have h := List.range'_append_1 (s := 0) (m := p) (n := min pos n - (p + 1) + 1)
    rw [Nat.zero_add, List.range'_succ, show p + (min pos n - (p + 1) + 1) = min pos n by omega] at h
    exact h.symm
  rw [searchOrder, List.take_range, List.range_eq_range', List.range_eq_range', List.drop_range', Nat.mul_one, Nat.zero_add, hsplit,
    List.append_assoc]

/-- R29: the record stands at the first valid route of its list from its position on. -/
theorem routeFrom_of_nextRoute {s : State} {r : Record} {ce : ClassEntry} {p : Nat} {rt : RouteId}
    (hce : s.classEntry r.cls = some ce) (h : s.nextRoute r ce p rt) : s.routeFrom r = some (p, rt) := by
  obtain ⟨hrt, hv, hno⟩ := h
  obtain ⟨hlt, -⟩ := List.getElem?_eq_some_iff.1 hrt
  obtain ⟨front, rest, hs, hfront⟩ : ∃ front rest, searchOrder ce.routes.length r.routePos = front ++ p :: rest ∧
      ∀ i ∈ front, r.routePos ≤ i ∧ i < p ∨ p < r.routePos ∧ (r.routePos ≤ i ∨ i < p) := by
    by_cases hp : r.routePos ≤ p
    · obtain ⟨rest, hs⟩ := searchOrder_ahead hp hlt
      refine ⟨_, rest, hs, fun i hi => ?_⟩
      rw [List.mem_range'_1] at hi
      omega
    · obtain ⟨rest, hs⟩ := searchOrder_behind (Nat.lt_of_not_le hp) hlt
      refine ⟨_, rest, hs, fun i hi => ?_⟩
      rw [List.mem_append, List.mem_range'_1, List.mem_range'_1] at hi
      omega
  unfold State.routeFrom
  rw [hce]
  dsimp only
  rw [hs, List.filterMap_append, List.filterMap_cons, hrt, Option.map_some, List.find?_append, List.find?_eq_none.2]
  · simp [hv]
  · rintro ⟨i, ri⟩ hq
    obtain ⟨j, hj, hij⟩ := List.mem_filterMap.1 hq
    obtain ⟨rj, hrj, hpair⟩ := Option.map_eq_some_iff.1 hij
    obtain ⟨rfl, rfl⟩ := Prod.mk.inj hpair
    simp [hno j rj hrj (hfront j hj)]

theorem routeFrom_none {s : State} {r : Record} {ce : ClassEntry} (hce : s.classEntry r.cls = some ce)
    (h : ∀ rt ∈ ce.routes, s.routeValid rt = false) : s.routeFrom r = none := by
  unfold State.routeFrom
  rw [hce]
  refine List.find?_eq_none.2 fun q hq => ?_
  obtain ⟨j, -, hj⟩ := List.mem_filterMap.1 hq
  obtain ⟨rj, hrj, rfl⟩ := Option.map_eq_some_iff.1 hj
  simp [h rj (List.mem_of_getElem? hrj)]

theorem moveTo_eq_standsAt (r : Record) (p : Nat) : r.moveTo p = r.standsAt p := by
  unfold Record.moveTo Record.standsAt
  by_cases h : p = r.routePos
  · subst h
    simp
  · rw [if_neg (Ne.symm h), if_neg h]

/-! ### The walk over the records that are passed over (R29 to R31) -/

theorem noTrunkRaised_cases (s : State) (c : ClassId) : s.noTrunkRaised c = s ∧ s.dsc.noTrunk = true ∨
    s.noTrunkRaised c = ({ s with dsc := { s.dsc with noTrunk := true } } : State).raise (.noTrunk c) ∧ s.dsc.noTrunk = false := by
  unfold State.noTrunkRaised
  cases h : s.dsc.noTrunk
  · exact .inr ⟨rfl, rfl⟩
  · exact .inl ⟨rfl, rfl⟩

theorem noTrunkRaised_passedOver (s : State) (c : ClassId) (x : Record) :
    ((s.noTrunkRaised c).passedOver x ↔ s.passedOver x) ∧ ((s.noTrunkRaised c).refusedTrunk x ↔ s.refusedTrunk x) := by
  rcases noTrunkRaised_cases s c with ⟨h, -⟩ | ⟨h, -⟩ <;> rw [h] <;> exact ⟨Iff.rfl, Iff.rfl⟩

/-- The walk after a record that was refused a trunk. -/
def Walk.refusing (w : Walk) (x : Record) : Walk :=
  { state := if w.requested then w.state else w.state.noTrunkRaised x.cls
    requested := true, eligible := true, refused := w.refused ++ [x.handle] }

theorem Walk.request_refused {w : Walk} {e : EngineId} {x : Record} {rt : RouteId} {cx : ClassEntry}
    (hcx : w.state.classEntry x.cls = some cx) (hno : w.state.chooseTrunk cx.preemptMode = none) :
    w.request e x rt = w.refusing x := by
  unfold Walk.request
  dsimp only
  rw [show w.state.classOr x.cls = cx by rw [State.classOr, hcx]; rfl, hno]
  rfl

theorem Walk.look_refused {w : Walk} {x : Record} (e : EngineId) (hn : (w.state.queue.map Record.handle).Nodup)
    (hx : x ∈ w.state.queue) (h : w.state.refusedTrunk x) : w.look e x.handle = w.refusing x := by
  obtain ⟨hw, cx, rx, hcx, hrx, hv, hcall, hno⟩ := h
  have hplace := placeOnRoute_of_waiting (findRecord_of_nodup hn hx) hw (routeFrom_current hcx hrx hv)
  rw [moveTo_same, updateRecord_of_found hn hx (moveTo_same x)] at hplace
  unfold Walk.look
  rw [hplace]
  dsimp only
  rw [hcall, Option.isSome_none, if_neg (by simp)]
  exact Walk.request_refused hcx (chooseTrunk_eq_none.2 hno)

theorem Walk.look_passed {w : Walk} {x : Record} (e : EngineId) (hn : (w.state.queue.map Record.handle).Nodup)
    (hx : x ∈ w.state.queue) (h : w.state.passedOver x) (hnot : ¬ w.state.refusedTrunk x) : w.look e x.handle = w := by
  have hnone : w.state.placeOnRoute x.handle = none → w.look e x.handle = w := fun hp => by
    unfold Walk.look
    rw [hp]
  have hfound := findRecord_of_nodup hn hx
  rcases h with hw | hinv | ⟨cx, hcx, hroutes⟩ | ⟨cx, rx, hcx, hrx, hv, hcall⟩ | href
  · exact hnone (placeOnRoute_eq_none fun r hr => by rw [← Option.some.inj (hfound.symm.trans hr)]; exact hw)
  · refine hnone ?_
    have hfrom : w.state.routeFrom x = none := by rw [State.routeFrom, hinv]
    unfold State.placeOnRoute
    rw [hfound]
    dsimp only
    rw [hfrom, ite_self]
  · refine hnone ?_
    unfold State.placeOnRoute
    rw [hfound]
    dsimp only
    rw [routeFrom_none hcx hroutes, ite_self]
  · by_cases hw : x.state = .waiting
    · have hplace := placeOnRoute_of_waiting hfound hw (routeFrom_current hcx hrx hv)
      rw [moveTo_same, updateRecord_of_found hn hx (moveTo_same x)] at hplace
      unfold Walk.look
      rw [hplace]
      dsimp only
      rw [hcall, if_pos rfl]
    · exact hnone (placeOnRoute_eq_none fun r hr => by rw [← Option.some.inj (hfound.symm.trans hr)]; exact hw)
  · exact absurd href hnot

theorem exists_first {α : Type} {P : α → Prop} {l : List α} (h : ∃ x ∈ l, P x) :
    ∃ front x rest, l = front ++ x :: rest ∧ P x ∧ ∀ y ∈ front, ¬ P y := by
  classical
  obtain ⟨x, hx⟩ := Option.isSome_iff_exists.1 ((List.find?_isSome (p := fun x => decide (P x))).2 (by simpa using h))
  obtain ⟨hp, front, rest, hl, hfront⟩ := List.find?_eq_some_iff_append.1 hx
  exact ⟨front, x, rest, hl, by simpa using hp, fun y hy => by simpa using hfront y hy⟩

theorem Walk.run_not_idle {w : Walk} (h : w.state.firstIdle = none) : ∀ hs, w.run hs = w
  | [] => rfl
  | g :: hs => by rw [Walk.run, h]

/-- The walk has passed over the records of a list: the first of them that was refused a trunk has begun an episode, unless one
was refused before. -/
structure Walk.Passed (w w' : Walk) (pre : List Record) : Prop where
  plain : (∀ x ∈ pre, ¬ w.state.refusedTrunk x) → w' = w
  told : ∀ front x rest, pre = front ++ x :: rest → (∀ y ∈ front, ¬ w.state.refusedTrunk y) → w.state.refusedTrunk x →
    w'.state = (w.refusing x).state ∧ w'.requested = true ∧ w'.eligible = true
  refused : ∀ x ∈ pre, w.state.refusedTrunk x → x.handle ∈ w'.refused
  kept : ∀ g ∈ w.refused, g ∈ w'.refused

theorem Walk.run_passed {e : EngineId} (later : List Handle) : ∀ (pre : List Record) (w : Walk),
    (w.state.queue.map Record.handle).Nodup → w.state.firstIdle = some e → (∀ x ∈ pre, x ∈ w.state.queue ∧ w.state.passedOver x) →
    ∃ w', w.run (pre.map Record.handle ++ later) = w'.run later ∧ w.Passed w' pre
  | [], w, _, _, _ => ⟨w, rfl, fun _ => rfl, fun front x rest h => by simp at h, nofun, fun _ h => h⟩
  | x :: pre, w, hn, hidle, hall => by
    obtain ⟨hx, hpass⟩ := hall x (.head _)
    have hrun : w.run ((x :: pre).map Record.handle ++ later) = (w.look e x.handle).run (pre.map Record.handle ++ later) := by
      rw [List.map_cons, List.cons_append, Walk.run, hidle]
    by_cases href : w.state.refusedTrunk x
    · have hlook := w.look_refused e hn hx href
      obtain ⟨c, hstate⟩ : ∃ c, (w.refusing x).state = w.state ∨ (w.refusing x).state = w.state.noTrunkRaised c := by
        refine ⟨x.cls, ?_⟩
        unfold Walk.refusing
        cases w.requested
        · exact .inr rfl
        · exact .inl rfl
      have hsame : (w.refusing x).state.queue = w.state.queue ∧ (w.refusing x).state.firstIdle = w.state.firstIdle ∧
          ∀ y, ((w.refusing x).state.passedOver y ↔ w.state.passedOver y) ∧
            ((w.refusing x).state.refusedTrunk y ↔ w.state.refusedTrunk y) := by
        rcases hstate with h | h <;> rw [h]
        · exact ⟨rfl, rfl, fun _ => ⟨Iff.rfl, Iff.rfl⟩⟩
        · refine ⟨?_, ?_, noTrunkRaised_passedOver w.state c⟩ <;>
            rcases noTrunkRaised_cases w.state c with ⟨h, -⟩ | ⟨h, -⟩ <;> rw [h] <;> rfl
      obtain ⟨hq, hi, hp⟩ := hsame
      obtain ⟨w', hw', P⟩ := Walk.run_passed later pre (w.refusing x) (by rw [hq]; exact hn) (hi.trans hidle)
        fun y hy => by rw [hq, (hp y).1]; exact hall y (.tail _ hy)
      have hw'state : w'.state = (w.refusing x).state ∧ w'.requested = true ∧ w'.eligible = true := by
        by_cases hany : ∃ y ∈ pre, (w.refusing x).state.refusedTrunk y
        · obtain ⟨front, y, rest, hsplit, hy, hfront⟩ := exists_first hany
          exact P.told front y rest hsplit hfront hy
        · rw [P.plain (by simpa using hany)]
          exact ⟨rfl, rfl, rfl⟩
      refine ⟨w', by rw [hrun, hlook, hw'], fun hno => absurd href (hno x (.head _)), fun front y rest hsplit hfront hy => ?_,
        fun y hy hyr => ?_, fun g hg => P.kept g (List.mem_append_left _ hg)⟩
      · cases front with
        | nil =>
          obtain ⟨rfl, -⟩ := List.cons.inj hsplit
          exact hw'state
        | cons z front =>
          obtain ⟨rfl, -⟩ := List.cons.inj hsplit
          exact absurd href (hfront _ (.head _))
      · rcases List.mem_cons.1 hy with rfl | hy
        · exact P.kept _ (List.mem_append_right _ (List.mem_singleton.2 rfl))
        · exact P.refused y hy ((hp y).2.2 hyr)
    · obtain ⟨w', hw', P⟩ := Walk.run_passed later pre w hn hidle fun y hy => hall y (.tail _ hy)
      refine ⟨w', by rw [hrun, w.look_passed e hn hx hpass href, hw'], fun hno => P.plain fun y hy => hno y (.tail _ hy),
        fun front y rest hsplit hfront hy => ?_, fun y hy hyr => ?_, P.kept⟩
      · cases front with
        | nil =>
          obtain ⟨rfl, -⟩ := List.cons.inj hsplit
          exact absurd hy href
        | cons z front =>
          obtain ⟨rfl, htail⟩ := List.cons.inj hsplit
          exact P.told front y rest htail (fun k hk => hfront k (.tail _ hk)) hy
      · rcases List.mem_cons.1 hy with rfl | hy
        · exact absurd hyr href
        · exact P.refused y hy hyr

theorem Walk.run_none_waiting {w : Walk} {e : EngineId} {pre : List Record} (later : List Handle)
    (hn : (w.state.queue.map Record.handle).Nodup) (hidle : w.state.firstIdle = some e)
    (hall : ∀ x ∈ pre, x ∈ w.state.queue ∧ x.state ≠ .waiting) : w.run (pre.map Record.handle ++ later) = w.run later := by
  obtain ⟨w', hrun, P⟩ := Walk.run_passed later pre w hn hidle fun x hx => ⟨(hall x hx).1, .inl (hall x hx).2⟩
  rw [hrun, P.plain fun x hx href => (hall x hx).2 href.1]

end Sys2Proof.Machine

namespace Sys2Proof.Machine
open Sys2Proof Sys2Proof.Machine

/-! ### A selection that starts no alert call -/

theorem earliestBusy_congr {s t : State} (h : t.trunks = s.trunks) : ∀ us, t.earliestBusy us = s.earliestBusy us
  | [] => rfl
  | u :: us => by simp only [State.earliestBusy, earliestBusy_congr h us, trunk_of_trunks h]

/-- R103: which trunk is granted is a matter of the trunks, their roles and the lines. -/
theorem chooseTrunk_congr {s t : State} (htrunks : t.trunks = s.trunks) (htables : t.tables = s.tables) (hhwi : t.hwi = s.hwi)
    (mode : PreemptMode) : t.chooseTrunk mode = s.chooseTrunk mode := by
  have hgrant : t.grantable mode = s.grantable mode := by
    funext u
    simp only [State.grantable, State.managed, State.trunkRole, State.ringRecently, State.ringFallWaits, State.debounced,
      trunk_of_trunks htrunks, htables, hhwi]
  unfold State.chooseTrunk
  simp only [hgrant, trunk_of_trunks htrunks, earliestBusy_congr htrunks]

/-- The walk of a selection that is made. -/
def State.walked (s : State) : Walk :=
  Walk.run { state := s, requested := false, eligible := false, refused := [] } (s.queue.map Record.handle)

theorem select_eligible {s : State} (hm : s.mayDispatch = true) (hi : s.firstIdle.isSome = true) (he : s.walked.eligible = true) :
    s.select = (s.walked.state, s.walked.refused) := by
  unfold State.select
  rw [if_pos (by simp [hm, hi])]
  exact if_pos he

theorem select_offers {s : State} {e : EngineId} (hm : s.mayDispatch = true) (hi : s.firstIdle.isSome = true)
    (he : s.walked.eligible = false) (hf : s.walked.state.firstIdle = some e) :
    s.select = (s.walked.state.offerSlot e, s.walked.refused) := by
  have hno : ¬ (s.walked.eligible = true) := by simp [he]
  unfold State.select
  rw [if_pos (by simp [hm, hi])]
  dsimp only
  refine (if_neg hno).trans ?_
  rw [show (Walk.run { state := s, requested := false, eligible := false, refused := [] } (s.queue.map Record.handle)).state.firstIdle =
    some e from hf]
  rfl

theorem walked_none_waiting {s : State} (hw : ∀ x ∈ s.queue, x.state ≠ .waiting) :
    s.walked = { state := s, requested := false, eligible := false, refused := [] } := by
  have hskip : ∀ (hs : List Handle) (w : Walk), w.state = s → w.run hs = w := by
    intro hs
    induction hs with
    | nil => exact fun _ _ => rfl
    | cons g hs ih =>
      intro w hws
      have hplace : w.state.placeOnRoute g = none := placeOnRoute_eq_none fun r hr => by
        rw [hws] at hr
        exact hw r (findRecord_mem hr)
      rw [Walk.run]
      split
      · rfl
      · rw [Walk.look, hplace]
        exact ih w hws
  exact hskip _ _ rfl

/-- R28: the selection, with an engine IDLE and selections allowed. -/
theorem selection_may {s : State} (hhold : s.dsc.hold = none) (hready : s.ready = true) (hsync : s.inSync = true) :
    s.selecting.mayDispatch = true := by
  have hd : s.selecting.mayDispatch = (s.dsc.hold.isNone && s.ready && s.inSync) := rfl
  rw [hd, hhold, hready, hsync]
  rfl

/-! ### The command in the slot (R34, R151) -/

/-- R51, R53: the holder of a trunk that is TAKEN seizes it at once. -/
theorem acquire_seizes {m : State} {e : EngineId} {x : Engine} {u : TrunkId} (ht : (m.trunk u).state = .taken)
    (hp : x.phase = .acquire) (ha : x.abort = none)
    (hw : (∃ r, x.work = .lineTest r) ∨ ∃ c, x.work.call = some c ∧ c.fromOffice = false) :
    (m.setEngine e x).acquire e u =
      let s1 := m.setEngine e (x.seizing m.clock (ticksOfMs m.siteOr.loopTimeout) (m.debounced u .v))
      if m.debounced u .f then s1.failWork e .cardFault .cardFault else if m.debounced u .l then s1.leaveSeize e else s1 := by
  have hseize : (m.setEngine e x).acquire e u = (m.setEngine e x).enterSeize e u := by
    rw [State.acquire, setEngine_trunk, if_pos ht]
    unfold State.takenReported
    dsimp only
    rw [engine_setEngine_same, if_pos (by simp [hp, ha])]
    rcases hw with ⟨r, hr⟩ | ⟨c, hc, hoff⟩
    · rw [hr]
    · rcases call_cases hc with h | h <;> rw [h] <;> dsimp only <;> rw [hoff, if_neg (by simp)]
  have hdeb : ∀ sig, (m.setEngine e x).debounced u sig = m.debounced u sig := fun sig => by
    rw [State.debounced, setEngine_hwi]
    rfl
  rw [hseize, enterSeize_eq, engine_setEngine_same, setEngine_setEngine, setEngine_clock, hdeb, hdeb, hdeb,
    siteOr_of_edge (t := m.setEngine e x) (s := m) (by rw [setEngine_tables]) (setEngine_clock _ _ _)]

theorem IdleEnginesEmpty.abort_none {s : State} (h : IdleEnginesEmpty s) {e : EngineId} (hi : (s.engine e).phase = .idle) :
    (s.engine e).abort = none := by
  rw [(h e hi).1]
  rfl

theorem takeLineTest_eq {s : State} {e : EngineId} {u : TrunkId} (ha : (s.engine e).abort = none)
    (hf : s.debounced u .f = false) (hl : s.debounced u .l = false) : s.takeLineTest e u =
      (({ s with cmu := { s.cmu with
          slot := .running (.lineTest u) e
          results := vput s.cmu.results u { vget s.cmu.results u with valid := false } } } : State).setTrunk u { s.trunk u with
            state := .taken, busySince := none, warnTimer := none, holder := some e }).setEngine e { s.engine e with
              phase := .seize, step := .none, seize := true, seizeStart := some s.clock
              phaseTimer := some (ticksOfMs s.siteOr.loopTimeout)
              work := .lineTest ⟨u, s.debounced u .v, 0, 0⟩ } := by
  obtain ⟨m, hm⟩ : ∃ m : State, m = ({ s with cmu := { s.cmu with
      slot := .running (.lineTest u) e
      results := vput s.cmu.results u { vget s.cmu.results u with valid := false } } } : State).setTrunk u { s.trunk u with
        state := .taken, busySince := none, warnTimer := none, holder := some e } := ⟨_, rfl⟩
  have hstart : s.takeLineTest e u = (m.setEngine e { s.engine e with
      phase := .acquire, step := .none, work := .lineTest ⟨u, false, 0, 0⟩ }).acquire e u := by rw [hm]; rfl
  have hdeb : ∀ sig, m.debounced u sig = s.debounced u sig := fun sig => by rw [hm]; rfl
  have hclock : m.clock = s.clock := by rw [hm]; rfl
  have hsite : m.siteOr = s.siteOr := by rw [hm]; rfl
  rw [hstart, acquire_seizes (by rw [hm, trunk_setTrunk_same]) rfl (by exact ha) (.inl ⟨_, rfl⟩), hdeb, hdeb, hdeb, hf, hl, hclock, hsite, ← hm]
  rfl

theorem takeTestCall_eq {s : State} {e : EngineId} {u : TrunkId} {rt : RouteId} (ha : (s.engine e).abort = none)
    (hbusy : (s.trunk u).state ≠ .officeBusy) (hf : s.debounced u .f = false) (hl : s.debounced u .l = false) :
    s.takeTestCall e rt u =
      (({ s with
          cmu := { s.cmu with slot := .running (.testCall rt) e }
          dsc := { s.dsc with startOrder := s.dsc.startOrder ++ [e], noTrunk := false } } : State).setTrunk u { s.trunk u with
            state := .taken, busySince := none, warnTimer := none, holder := some e }).setEngine e { s.engine e with
              phase := .seize, step := .none, seize := true, seizeStart := some s.clock
              phaseTimer := some (ticksOfMs s.siteOr.loopTimeout)
              work := .testCall { route := rt, trunk := u, blocks := [⟨none, .queued⟩], current := 0, tries := 0,
                                  preempt := false, fromOffice := false } } := by
  obtain ⟨m, hm⟩ : ∃ m : State, m = ({ s with
      cmu := { s.cmu with slot := .running (.testCall rt) e }
      dsc := { s.dsc with startOrder := s.dsc.startOrder ++ [e], noTrunk := false } } : State).setTrunk u { s.trunk u with
        state := .taken, busySince := none, warnTimer := none, holder := some e } := ⟨_, rfl⟩
  have hoff : ((s.trunk u).state == .officeBusy) = false := by simpa using hbusy
  have hstart : s.takeTestCall e rt u = (m.setEngine e { s.engine e with
      phase := .acquire, step := .none, work := .testCall (newCall rt u [⟨none, .queued⟩] false) }).acquire e u := by
    unfold State.takeTestCall
    dsimp only
    rw [grantTrunk_free hbusy, hoff, hm]
    cases e <;> rfl
  have hdeb : ∀ sig, m.debounced u sig = s.debounced u sig := fun sig => by rw [hm]; rfl
  have hclock : m.clock = s.clock := by rw [hm]; rfl
  have hsite : m.siteOr = s.siteOr := by rw [hm]; rfl
  rw [hstart, acquire_seizes (by rw [hm, trunk_setTrunk_same]) rfl (by exact ha) (.inr ⟨_, rfl, rfl⟩), hdeb, hdeb, hdeb, hf, hl, hclock, hsite,
    ← hm]
  rfl

/-! ### A record that the walk moves to its route (R29) -/

/-- R29: the record at its route. -/
def State.moved (s : State) (r : Record) (p : Nat) : State :=
  { s with queue := s.queue.map fun x => if x.handle = r.handle then x.standsAt p else x }

theorem placeOnRoute_moved {s : State} (hn : (s.queue.map Record.handle).Nodup) {r : Record} (hr : r ∈ s.queue)
    (hw : r.state = .waiting) {ce : ClassEntry} (hce : s.classEntry r.cls = some ce) {p : Nat} {rt : RouteId}
    (hnext : s.nextRoute r ce p rt) : s.placeOnRoute r.handle = some (s.moved r p, r.standsAt p, rt) := by
  have hq : s.updateRecord r.handle (Record.moveTo · p) = s.moved r p := by
    rw [State.updateRecord, State.moved]
    simp only [moveTo_eq_standsAt, beq_iff_eq]
  rw [placeOnRoute_of_waiting (findRecord_of_nodup hn hr) hw (routeFrom_of_nextRoute hce hnext), hq, moveTo_eq_standsAt]

theorem moved_handles (s : State) (r : Record) (p : Nat) : (s.moved r p).queue.map Record.handle = s.queue.map Record.handle := by
  rw [State.moved, List.map_map]
  refine List.map_congr_left fun x _ => ?_
  show Record.handle (if x.handle = r.handle then x.standsAt p else x) = x.handle
  split <;> rfl

/-- The records around one that has been moved are where they were. -/
theorem moved_queue {s : State} {pre post : List Record} {r : Record} (hq : s.queue = pre ++ r :: post)
    (hn : (s.queue.map Record.handle).Nodup) (p : Nat) : (s.moved r p).queue = pre ++ r.standsAt p :: post := by
  rw [hq, List.map_append, List.map_cons] at hn
  obtain ⟨-, hcons, hdis⟩ := List.nodup_append.1 hn
  obtain ⟨hpost, -⟩ := List.nodup_cons.1 hcons
  have hkeep : ∀ l : List Record, (∀ x ∈ l, x.handle ≠ r.handle) →
      l.map (fun x => if x.handle = r.handle then x.standsAt p else x) = l := fun l hl => by
    conv_rhs => rw [← List.map_id l]
    exact List.map_congr_left fun x hx => if_neg (hl x hx)
  rw [State.moved]
  show s.queue.map _ = _
  rw [hq, List.map_append, List.map_cons, if_pos rfl, hkeep pre fun x hx => hdis _ (List.mem_map_of_mem hx) _ (.head _),
    hkeep post fun x hx he => hpost (he ▸ List.mem_map_of_mem hx)]

/-- R29 to R31: the one WAITING record, and what the walk makes of it. -/
theorem walked_alone {s : State} {e : EngineId} {pre post : List Record} {r : Record} (hi : s.firstIdle = some e)
    (hq : s.queue = pre ++ r :: post) (hpre : ∀ x ∈ pre, x.state ≠ .waiting) (hpost : ∀ x ∈ post, x.state ≠ .waiting)
    (hn : (s.queue.map Record.handle).Nodup) {w' : Walk} {p : Nat}
    (hlook : Walk.look { state := s, requested := false, eligible := false, refused := [] } e r.handle = w')
    (hstate : w'.state.queue = (s.moved r p).queue) (heng : w'.state.engines = s.engines) : s.walked = w' := by
  have hlist : s.queue.map Record.handle = pre.map Record.handle ++ r.handle :: post.map Record.handle := by rw [hq]; simp
  have hmoved := moved_queue hq hn p
  have hidle : w'.state.firstIdle = some e := by
    rw [← hi]
    show engineIds.find? w'.state.idleEngine = engineIds.find? s.idleEngine
    congr 1
    funext f
    rw [State.idleEngine, engine_of_engines heng, State.idleEngine]
  have hrest := Walk.run_none_waiting (w := w') (pre := post) [] (by rw [hstate, moved_handles]; exact hn) hidle
    fun x hx => ⟨by rw [hstate, hmoved]; simp [hx], hpost x hx⟩
  rw [List.append_nil] at hrest
  rw [State.walked, hlist, Walk.run_none_waiting _ hn hi fun x hx => ⟨by show x ∈ s.queue; rw [hq]; simp [hx], hpre x hx⟩, Walk.run]
  dsimp only
  rw [hi]
  dsimp only
  rw [hlook, hrest]
  rfl

end Sys2Proof.Machine

namespace Sys2Proof.Proofs
open Sys2Proof Sys2Proof.Machine

/-- Settles O49: a selection that is not made, and what one makes of a refused record, of a busy route and of the slot. -/
theorem selectionWithoutCall : Obligations.SelectionWithoutCall := by
  refine ⟨fun s hlow => ⟨fun hdue => ?_, fun hdue hnot => ?_⟩, ?_⟩
  · rw [exec_selection hlow, State.selectionStep, if_pos hdue]
  · have hmay : s.selecting.mayDispatch = false := by
      have hd : s.selecting.mayDispatch = (s.dsc.hold.isNone && s.ready && s.inSync) := rfl
      rw [hd]
      rcases hnot with h | h | h
      · rw [Option.isNone_eq_false_iff.2 h]
        rfl
      · simp [h]
      · simp [h]
    rw [exec_selection hlow, selectionStep_due hdue, select_not_made (.inl hmay)]
    dsimp only
    rw [preemptCheck_not_made (s := s.selecting) [] (.inr (.inr hnot))]
    rfl
  rintro s e hlow hdue hhold hready hsync hidle s1 rfl
  have hmay := selection_may hhold hready hsync
  have hidle1 : s.selecting.firstIdle = some e := hidle
  have hsome : s.selecting.firstIdle.isSome = true := by rw [hidle1]; rfl
  have hrun : ∀ m g, s.selecting.select = (m, g) → m.preemptCheck g = m → exec .selection s = .next m := fun m g hsel hcheck => by
    rw [exec_selection hlow, selectionStep_due hdue, hsel]
    exact congrArg Host.Outcome.next hcheck
  have hidles : ∀ m : State, m.engines = s.engines → m.firstIdle.isSome = true := fun m hm => by
    have : m.firstIdle = s.firstIdle := by
      show engineIds.find? m.idleEngine = engineIds.find? s.idleEngine
      congr 1
      funext f
      rw [State.idleEngine, engine_of_engines hm, State.idleEngine]
    rw [this, hidle]
    rfl
  refine ⟨?_, fun u n hnone hslot hempty hg hf hl => ?_, fun rt u n hnone hslot hempty hv hcall hu hf hl => ?_, fun hnone hslot => ?_⟩
  · rintro pre r post ce p rt hq hpre hpost hn hw hce hnext s2 rfl
    have hr : r ∈ s.queue := by rw [hq]; simp
    have hplace : s.selecting.placeOnRoute r.handle = some (s.selecting.moved r p, r.standsAt p, rt) :=
      placeOnRoute_moved (s := s.selecting) hn hr hw hce hnext
    refine ⟨fun hcall hno => ?_, fun hcall hslot => ?_⟩
    · obtain ⟨w', hw'⟩ : ∃ w', w' = Walk.refusing { state := s.selecting.moved r p, requested := false, eligible := false, refused := [] }
        (r.standsAt p) := ⟨_, rfl⟩
      have hlook : Walk.look { state := s.selecting, requested := false, eligible := false, refused := [] } e r.handle = w' := by
        unfold Walk.look
        dsimp only
        rw [hplace]
        dsimp only
        rw [show (s.selecting.moved r p).callOn rt = none from hcall, if_neg (by simp), hw']
        exact Walk.request_refused (cx := ce) hce ((chooseTrunk_congr (t := s.selecting.moved r p) (s := s) rfl rfl rfl _).trans hno)
      have hstate : w'.state = (s.selecting.moved r p).noTrunkRaised r.cls := by rw [hw']; rfl
      have hwalked := walked_alone hidle1 hq hpre hpost hn (p := p) hlook (by rw [hstate, noTrunkRaised_queue])
        (by rw [hstate, noTrunkRaised_engines]; rfl)
      refine (hrun w'.state w'.refused (by rw [← hwalked]; exact select_eligible hmay hsome (by rw [hwalked, hw']; rfl))
        (preemptCheck_not_made _ (.inl (hidles _ (by rw [hstate, noTrunkRaised_engines]; rfl))))).trans ?_
      rw [hstate]
      rfl
    · have hlook : Walk.look { state := s.selecting, requested := false, eligible := false, refused := [] } e r.handle =
          { state := s.selecting.moved r p, requested := false, eligible := false, refused := [] } := by
        unfold Walk.look
        dsimp only
        rw [hplace]
        exact if_pos hcall
      have hwalked := walked_alone hidle1 hq hpre hpost hn (p := p) hlook rfl rfl
      refine (hrun (s.selecting.moved r p) [] ?_ (preemptCheck_not_made _ (.inl (hidles _ rfl)))).trans rfl
      rw [select_offers hmay hsome (by rw [hwalked]) (by rw [hwalked]; exact hidle), hwalked]
      dsimp only
      rw [State.offerSlot, show (s.selecting.moved r p).cmu.slot = .empty from hslot]
  · have hwalked := walked_none_waiting (s := s.selecting) hnone
    have hsel : s.selecting.select = (s.selecting.takeLineTest e u, []) := by
      rw [select_offers hmay hsome (by rw [hwalked]) (by rw [hwalked]; exact hidle), hwalked]
      dsimp only
      rw [State.offerSlot, show s.selecting.cmu.slot = .held (.lineTest u) n from hslot]
      dsimp only
      rw [if_pos (show s.selecting.lineTestGrantable u = true from hg)]
    have heq := takeLineTest_eq (s := s.selecting) (u := u) (hempty.abort_none (firstIdle_idle hidle)) hf hl
    refine (hrun _ _ hsel (preemptCheck_none_waiting _ ?_)).trans (by rw [heq]; rfl)
    rw [heq, setEngine_queue]
    exact hnone
  · have hwalked := walked_none_waiting (s := s.selecting) hnone
    have hsel : s.selecting.select = (s.selecting.takeTestCall e rt u, []) := by
      rw [select_offers hmay hsome (by rw [hwalked]) (by rw [hwalked]; exact hidle), hwalked]
      dsimp only
      rw [State.offerSlot, show s.selecting.cmu.slot = .held (.testCall rt) n from hslot]
      dsimp only
      rw [show s.selecting.routeValid rt = true from hv, show s.selecting.callOn rt = none from hcall,
        chooseTrunk_congr (t := s.selecting) (s := s) rfl rfl rfl, hu]
      rfl
    have hbusy := (open_of_grantable (chooseTrunk_grantable hu)).2 rfl
    have heq := takeTestCall_eq (s := s.selecting) (u := u) (rt := rt) (hempty.abort_none (firstIdle_idle hidle)) hbusy hf hl
    refine (hrun _ _ hsel (preemptCheck_none_waiting _ ?_)).trans (by rw [heq]; rfl)
    rw [heq, setEngine_queue]
    exact hnone
  · have hwalked := walked_none_waiting (s := s.selecting) hnone
    refine (hrun s.selecting [] ?_ (preemptCheck_not_made _ (.inl hsome))).trans rfl
    rw [select_offers hmay hsome (by rw [hwalked]) (by rw [hwalked]; exact hidle), hwalked]
    dsimp only
    rw [State.offerSlot, show s.selecting.cmu.slot = .empty from hslot]

end Sys2Proof.Proofs

namespace Sys2Proof.Machine
open Sys2Proof Sys2Proof.Machine

/-! ### A second call inside one selection (O48)

The chosen record's trunk has its second line failure at once: F is present as the engine seizes it. The trunk-fault alert offered
then meets a STRANDED record of its key further back in the queue, which is re-armed and is WAITING as the walk, with the engine
IDLE again, comes to it: it is granted another trunk in the same selection. -/

/-- The site record of the refuting state: what counts is its line fault event code, 351. -/
def faultingSite : SiteRecord :=
  { account := [1, 2, 3, 4], dialTone := 0, busyTone := 1, reorderTone := 2, symbolOn := 50, symbolOff := 50, generatorLevel := 6,
    silenceFloor := 4096, loopTimeout := 400, loopLossTime := 200, releaseGuard := 1000, warningFrequency := 1400, warningOn := 200,
    warningOff := 800, periodicInterval := 0, periodicEvent := 0, silenceTime := 0, silenceEvent := 0, lineFaultEvent := 351,
    goodLevel := 2000 }

/-- Route 0, for one block a call. -/
def faultingRoute : RouteEntry :=
  { valid := true, dial := [.tone 5], handshakeTone := 3, ackTone := 4, blocksPerCall := 1, blockTries := 2, fallbackAfter := 2,
    dialToneMode := .wait, answerTimeout := 45, ackTimeout := 15 }

/-- Every class: route 0, no call taken from the office. -/
def faultingClass : ClassEntry :=
  { routes := [0], preemptMode := .none, warningTime := 0, cancelWindow := 0, backoffBase := 5, backoffCap := 120, maxCycles := 2,
    classSymbol := 1 }

/-- The record the selection chooses. -/
def faultingRecord : Record := newRecord 3 ⟨5, 23, 110, .new⟩ 0

/-- The STRANDED record of the trunk-fault alert of trunk 1. -/
def strandedRecord : Record := { newRecord 4 ⟨0, 2, 351, .new⟩ 4 with state := .stranded }

/-- Trunk 1 RESERVED and idle after one line failure, its card fault delivered and not yet taken; trunk 0 SHARED and idle. -/
def faulting : State :=
  { State.reset with
    tables := { Tables.empty with
      site := some faultingSite
      classes := Vector.replicate 6 (some faultingClass)
      routes := vput Tables.empty.routes 0 ⟨some faultingRoute, none⟩
      trunks := vput (vput Tables.empty.trunks 0 ⟨some ⟨.shared, 5⟩, none⟩) 1 ⟨some ⟨.reserved, 6⟩, none⟩ }
    hwi := { Hwi.reset with
      sync := .inSync 1000 0
      lines := vput Hwi.reset.lines 1 ((vget Hwi.reset.lines 1).put .f ⟨true, 0⟩)
      deliveries := [⟨1, .f, true⟩] }
    trunks := vput (vput State.reset.trunks 0 { Trunk.reset with state := .idleOffice }) 1
      { Trunk.reset with state := .idleReserved, failures := 1 }
    queue := [faultingRecord, strandedRecord]
    dsc := { Dsc.reset with selectionsDue := 1 } }

/-- The state in which a command leaves a trunk. -/
def trunkAfter (o : Host.Outcome State Fault Refusal) (u : TrunkId) : Option TrunkState :=
  match o with
  | .next t => some (t.trunk u).state
  | _ => none

/-- The selection seizes trunk 1 in vain and then takes trunk 0 as well. -/
theorem faulting_takes_second_trunk : trunkAfter (exec .selection faulting) 0 = some .taken := by decide +kernel

theorem faulting_idleEnginesEmpty : IdleEnginesEmpty faulting := fun e _ => by cases e <;> exact ⟨rfl, by decide⟩

theorem faulting_queueSound : QueueSound faulting := ⟨by decide, by decide, by decide⟩

theorem faulting_nextRoute : faulting.nextRoute faultingRecord faultingClass 0 0 :=
  ⟨rfl, by decide, fun i _ _ hi => by
    have hpos : faultingRecord.routePos = 0 := rfl
    omega⟩

end Sys2Proof.Machine

namespace Sys2Proof.Proofs
open Sys2Proof Sys2Proof.Machine

/-- Refutes O48: its clause on the trunks that are not granted, where the trunk-fault alert re-arms a record behind the chosen one. -/
theorem not_selectionStartsCall : ¬ Obligations.SelectionStartsCall := by
  intro h
  obtain ⟨t, hexec, -, -, hother, -⟩ := h faulting .e0 [] [strandedRecord] faultingRecord faultingClass 0 0 1 _ _ rfl
    faulting_idleEnginesEmpty faulting_queueSound (by decide) rfl (by decide) (by decide) (by decide) rfl (by simp) rfl (by decide)
    faulting_nextRoute (by decide) (by decide) (by decide) (.inl (by decide)) rfl rfl
  have htaken := faulting_takes_second_trunk
  rw [hexec, trunkAfter, hother 0 (by decide)] at htaken
  exact absurd htaken (by decide)

end Sys2Proof.Proofs

namespace Sys2Proof.Machine
open Sys2Proof Sys2Proof.Machine

/-! ### An abort posted to an engine (R72)

The turn of one engine, seen in the engines, in what a test tells, and in the events. -/

/-- An engine whose turn it is: it is reached by the abort, and takes it now or carries it. -/
def Engine.abortPosted (x : Engine) (cause : AbortCause) (now : Bool) : Engine :=
  if cause.reaches x.work && x.phase != .closing then
    if now then { Engine.reset with detector := x.detector.release fun _ => true } else { x with abort := some cause }
  else x

/-- The engine is reached by the abort, and takes it now. -/
def Engine.abortsNow (x : Engine) (cause : AbortCause) (now : Bool) : Bool := cause.reaches x.work && x.phase != .closing && now

theorem work_of_reaches {cause : AbortCause} {w : Work} (h : cause.reaches w = true) : w ≠ .nothing := by
  rintro rfl
  cases cause <;> cases h

theorem mapCall_reaches (cause : AbortCause) (w : Work) (g : CallRecord → CallRecord) :
    cause.reaches (w.mapCall g) = cause.reaches w := by
  cases cause <;> cases w <;> rfl

theorem OnlyJoined.reaches {x y : Engine} (h : OnlyJoined x y) (cause : AbortCause) :
    cause.reaches y.work = cause.reaches x.work ∧ y.phase = x.phase := by
  obtain ⟨hs, rfl⟩ := h
  exact ⟨mapCall_reaches cause x.work _, rfl⟩

theorem postAbort_now {s : State} {cause : AbortCause} {taken : EngineSet} {e : EngineId}
    (h : (s.engine e).abortsNow cause (takes taken e) = true) : s.postAbort cause taken e = s.abortEngine e := by
  simp only [Engine.abortsNow, Bool.and_eq_true] at h
  obtain ⟨⟨hr, hp⟩, ht⟩ := h
  unfold State.postAbort
  rw [if_pos (by simp [hr, hp]), if_pos ht]

/-- An engine that does not take the abort now at most carries it. -/
theorem postAbort_later {s : State} {cause : AbortCause} {taken : EngineSet} {e : EngineId}
    (h : (s.engine e).abortsNow cause (takes taken e) = false) :
    s.postAbort cause taken e = s.setEngine e ((s.engine e).abortPosted cause (takes taken e)) := by
  have hsame : s.setEngine e (s.engine e) = s := by cases e <;> rfl
  unfold State.postAbort Engine.abortPosted
  unfold Engine.abortsNow at h
  split
  · next hc =>
    rw [hc, Bool.true_and] at h
    rw [h]
    rfl
  · exact hsame.symm

theorem postAbort_engine (s : State) (cause : AbortCause) (taken : EngineSet) (e : EngineId) :
    (s.postAbort cause taken e).engine e = (s.engine e).abortPosted cause (takes taken e) := by
  cases h : (s.engine e).abortsNow cause (takes taken e) with
  | false => rw [postAbort_later h, engine_setEngine_same]
  | true =>
    rw [postAbort_now h]
    simp only [Engine.abortsNow, Bool.and_eq_true] at h
    obtain ⟨⟨hr, hp⟩, ht⟩ := h
    rw [(abortEngine_stopped e s (work_of_reaches hr)).1.engine, Engine.abortPosted, if_pos (by simp [hr, hp]), if_pos ht]

theorem postAbort_companion (s : State) (cause : AbortCause) (taken : EngineSet) (e : EngineId) :
    OnlyJoined (s.engine (other e)) ((s.postAbort cause taken e).engine (other e)) := by
  cases h : (s.engine e).abortsNow cause (takes taken e) with
  | false =>
    rw [postAbort_later h, engine_setEngine_other _ _ (other_ne e)]
    exact .refl _
  | true =>
    rw [postAbort_now h]
    simp only [Engine.abortsNow, Bool.and_eq_true] at h
    exact (abortEngine_stopped e s (work_of_reaches h.1.1)).1.other _ (other_ne e)

/-! ### The two turns -/

/-- R72: the engine whose turn comes first is E0. -/
theorem postAborts_eq (s : State) (cause : AbortCause) (taken : EngineSet) :
    s.postAborts cause taken = (s.postAbort cause taken .e0).postAbort cause taken .e1 := rfl

theorem abortPosted_joined {x y : Engine} (h : OnlyJoined x y) (cause : AbortCause) (now : Bool) :
    OnlyJoined (x.abortPosted cause now) (y.abortPosted cause now) := by
  obtain ⟨hr, hp⟩ := h.reaches cause
  unfold Engine.abortPosted
  rw [hr, hp]
  split
  · split
    · rw [h.detector_eq]
      exact .refl _
    · obtain ⟨hs, rfl⟩ := h
      exact ⟨hs, rfl⟩
  · exact h

/-- R72: what an abort of both engines makes of each, but for records that join the call of one that goes on. -/
theorem postAborts_engine (s : State) (cause : AbortCause) (taken : EngineSet) (e : EngineId) :
    OnlyJoined ((s.engine e).abortPosted cause (takes taken e)) ((s.postAborts cause taken).engine e) := by
  rw [postAborts_eq]
  cases e with
  | e0 =>
    have h := postAbort_companion (s.postAbort cause taken .e0) cause taken .e1
    rw [show other .e1 = .e0 from rfl, postAbort_engine] at h
    exact h
  | e1 =>
    rw [postAbort_engine]
    exact abortPosted_joined (postAbort_companion s cause taken .e0) cause _

/-! ### What an aborted test tells (R157, R158) -/

/-- The engine has told what it had to, and is about to close. -/
def State.abortTold (s : State) (e : EngineId) : State :=
  match (s.engine e).work with
  | .alertCall _ => (s.stopEngine e).applyToBlocks e State.uncountedReturn
  | .testCall c => (s.stopEngine e).testOutcome c .aborted
  | .lineTest r => (s.resultTold e r .aborted).slotEmptied
  | .nothing => s

theorem abortEngine_eq {s : State} {e : EngineId} (hw : (s.engine e).work ≠ .nothing) :
    s.abortEngine e = (s.abortTold e).close e := by
  unfold State.abortEngine State.abortTold
  cases h : (s.engine e).work with
  | nothing => exact absurd h hw
  | lineTest r => exact endLineTest_eq h .aborted
  | _ => rfl

/-- What the abort of this work makes of the slot, the results and the records 1, 8 and 9. -/
def Work.abortOutcomes (w : Work) (o : CommandSlot × Vector TestResult 8 × EventRecord × EventRecord × EventRecord) :
    CommandSlot × Vector TestResult 8 × EventRecord × EventRecord × EventRecord :=
  match w, o with
  | .lineTest r, (_, results, failed, tested, called) => (.empty, vput results r.trunk ⟨true, .aborted, 0, r.loopDelay⟩, failed,
      tested.occur (.lineTestDone r.trunk .aborted 0 r.loopDelay), called)
  | .testCall c, (_, results, failed, tested, called) => (.empty, results, failed, tested, called.occur (.testCallDone c.route
      (if c.blocks.any fun b => b.state == .acked then .delivered else .aborted)))
  | _, _ => o

theorem stopEngine_outcomes (s : State) (e : EngineId) : (s.stopEngine e).outcomes = s.outcomes :=
  outcomes_of_aside (stopEngine_aside s e)

theorem abortTold_outcomes (s : State) (e : EngineId) :
    (s.abortTold e).outcomes = (s.engine e).work.abortOutcomes s.outcomes := by
  unfold State.abortTold
  cases h : (s.engine e).work with
  | nothing => rfl
  | alertCall c => exact (outcomes_of_aside (applyToBlocks_aside _ e _ uncountedReturn_aside)).trans (stopEngine_outcomes s e)
  | testCall c =>
    dsimp only
    rw [← stopEngine_outcomes s e]
    unfold State.testOutcome State.outcomes Work.abortOutcomes
    dsimp only
    rw [raise_record_other _ _ (show (1 : EventKind) ≠ 9 by decide), raise_record_other _ _ (show (8 : EventKind) ≠ 9 by decide),
      show vget ((s.stopEngine e).raise (.testCallDone c.route _)).evr.records 9 = _ from raise_record_same _ _]
    rfl
  | lineTest r =>
    dsimp only
    rw [← stopEngine_outcomes s e]
    unfold State.slotEmptied State.resultTold State.outcomes Work.abortOutcomes
    dsimp only
    rw [raise_record_other _ (.lineTestDone r.trunk _ _ r.loopDelay) (show (1 : EventKind) ≠ 8 by decide),
      raise_record_other _ (.lineTestDone r.trunk _ _ r.loopDelay) (show (9 : EventKind) ≠ 8 by decide),
      show vget (State.raise _ (.lineTestDone r.trunk _ _ r.loopDelay)).evr.records 8 = _ from raise_record_same _ _]
    rfl

theorem postAbort_outcomes (s : State) (cause : AbortCause) (taken : EngineSet) (e : EngineId) :
    (s.postAbort cause taken e).outcomes =
      if (s.engine e).abortsNow cause (takes taken e) then (s.engine e).work.abortOutcomes s.outcomes else s.outcomes := by
  cases h : (s.engine e).abortsNow cause (takes taken e) with
  | false =>
    rw [postAbort_later h]
    cases e <;> rfl
  | true =>
    have hw : (s.engine e).work ≠ .nothing := by
      simp only [Engine.abortsNow, Bool.and_eq_true] at h
      exact work_of_reaches h.1.1
    rw [postAbort_now h, abortEngine_eq hw, close_outcomes, abortTold_outcomes]
    rfl

/-! ### The tables, the periodic timer and the notify enables -/

/-- Nothing of the tables, the periodic test timer or the notify enables has changed. -/
structure State.Still (s t : State) : Prop where
  tables : t.tables = s.tables
  periodic : t.cmu.periodic = s.cmu.periodic
  enabled : ∀ k, (vget t.evr.records k).enabled = (vget s.evr.records k).enabled

theorem State.Still.trans {s m t : State} (h : s.Still m) (k : m.Still t) : s.Still t :=
  ⟨k.tables.trans h.tables, k.periodic.trans h.periodic, fun x => (k.enabled x).trans (h.enabled x)⟩

theorem still_of {s t : State} (ht : t.tables = s.tables) (hc : t.cmu.periodic = s.cmu.periodic)
    (he : t.evr.records = s.evr.records) : s.Still t := ⟨ht, hc, fun k => by rw [he]⟩

theorem still_modEngine (s : State) (e : EngineId) (g : Engine → Engine) : s.Still (s.modEngine e g) :=
  still_of (modEngine_tables _ _ _) (by rw [modEngine_cmu]) (by rw [modEngine_evr])

theorem still_raise (s : State) (d : Detail) : s.Still (s.raise d) := by
  refine ⟨rfl, rfl, fun k => ?_⟩
  by_cases hk : k = d.kind
  · rw [hk, raise_record_same]
    rfl
  · rw [raise_record_other _ _ hk]

theorem foldl_still {α : Type} {g : State → α → State} (hg : ∀ (s : State) (x : α), s.Still (g s x)) (l : List α) (s : State) :
    s.Still (l.foldl g s) := by
  induction l generalizing s with
  | nil => exact still_of rfl rfl rfl
  | cons x l ih => exact (hg s x).trans (ih _)

section
variable {P : State → Prop} (huse : ∀ s ref, P s → P (s.endUse ref)) (hstill : ∀ s t, s.Still t → P s → P t)
include huse

/-- What every end of a use keeps, the end of several keeps. -/
theorem endUses_induct (refs : List TableRef) {s : State} (h : P s) : P (s.endUses refs) := by
  unfold State.endUses
  induction refs generalizing s with
  | nil => exact h
  | cons r refs ih => exact ih (huse s r h)

include hstill

theorem unload_induct (e : EngineId) (p : Loading → Bool) {s : State} (h : P s) : P (s.unload e p) := by
  rw [unload_eq]
  exact endUses_induct huse _ (hstill _ _ (still_modEngine _ _ _) h)

theorem stopListening_induct (e : EngineId) {s : State} (h : P s) : P (s.stopListening e) :=
  unload_induct huse hstill e _ (hstill _ _ (still_modEngine _ _ _) h)

theorem stopEngine_induct (e : EngineId) {s : State} (h : P s) : P (s.stopEngine e) :=
  stopListening_induct huse hstill e (hstill _ _ (still_modEngine _ _ _) h)

theorem releaseTrunk_induct (u : TrunkId) (e : EngineId) {s : State} (h : P s) : P (s.releaseTrunk u e) := by
  unfold State.releaseTrunk
  split
  · split
    · exact hstill _ _ (still_of (reportGrantable_tables _ _ _) (by rw [reportGrantable_cmu]) (by rw [reportGrantable_evr]))
        (huse _ _ (hstill s _ (still_of rfl rfl rfl) h))
    · exact hstill s _ (still_of rfl rfl rfl) h
    · exact h
  · exact h

theorem close_induct (e : EngineId) {s : State} (h : P s) : P (s.close e) := by
  rw [close_eq]
  refine hstill (s.emptied e) _ (still_of rfl rfl rfl) ?_
  have hgiven : P ((s.modEngine e Engine.atClosing).trunkGivenBack e (s.engine e).work) := by
    unfold State.trunkGivenBack
    split
    · exact releaseTrunk_induct huse hstill _ e (hstill _ _ (still_modEngine _ _ _) h)
    · exact hstill _ _ (still_modEngine _ _ _) h
  exact hstill _ _ (still_modEngine _ _ _) (endUses_induct huse _ (hstill _ _ (still_modEngine _ _ _) hgiven))

theorem abortTold_induct (e : EngineId) {s : State} (h : P s) : P (s.abortTold e) := by
  have hstopped := stopEngine_induct huse hstill e h
  unfold State.abortTold
  split
  · next c hw =>
    refine hstill (s.stopEngine e) _ ?_ hstopped
    rw [applyToBlocks_eq (c := c) (by rw [stopEngine_work]; exact hw)]
    refine (still_modEngine _ _ _).trans (foldl_still (fun m g => ?_) _ _)
    exact still_of (uncountedReturn_tables m g) (by rw [uncountedReturn_cmu]) (by rw [uncountedReturn_evr])
  · next c _ =>
    have htold := still_raise (s.stopEngine e) (.testCallDone c.route
      (if c.blocks.any fun b => b.state == .acked then .delivered else .aborted))
    exact hstill _ _ (htold.trans (t := (s.stopEngine e).testOutcome c .aborted) (still_of rfl rfl rfl)) hstopped
  · next r _ =>
    have hwritten : (s.stopEngine e).Still { s.stopEngine e with cmu := { (s.stopEngine e).cmu with
        results := vput (s.stopEngine e).cmu.results r.trunk ⟨true, .aborted, 0, r.loopDelay⟩ } } := still_of rfl rfl rfl
    have htold := hwritten.trans (still_raise _ (.lineTestDone r.trunk .aborted 0 r.loopDelay))
    exact hstill _ _ (htold.trans (t := (s.resultTold e r .aborted).slotEmptied) (still_of rfl rfl rfl)) hstopped
  · exact h

/-- What every end of a use keeps, and no other change of the state touches, an abort of both engines keeps. -/
theorem postAborts_induct (cause : AbortCause) (taken : EngineSet) {s : State} (h : P s) : P (s.postAborts cause taken) := by
  have hturn : ∀ m e, P m → P (m.postAbort cause taken e) := fun m e hm => by
    cases hn : (m.engine e).abortsNow cause (takes taken e) with
    | false =>
      rw [postAbort_later hn]
      exact hstill _ _ (still_modEngine m e fun _ => (m.engine e).abortPosted cause (takes taken e)) hm
    | true =>
      have hw : (m.engine e).work ≠ .nothing := by
        simp only [Engine.abortsNow, Bool.and_eq_true] at hn
        exact work_of_reaches hn.1.1
      rw [postAbort_now hn, abortEngine_eq hw]
      exact close_induct huse hstill e (abortTold_induct huse hstill e hm)
  exact hturn _ _ (hturn _ _ h)

end

end Sys2Proof.Machine

namespace Sys2Proof.Machine
open Sys2Proof Sys2Proof.Machine

/-! ### The event records at an abort of both engines -/

theorem abortTold_record {s : State} {e : EngineId} {k : EventKind} (h8 : k ≠ 8) (h9 : k ≠ 9) (h12 : k ≠ 12) :
    vget (s.abortTold e).evr.records k = vget s.evr.records k := by
  have hstop : vget (s.stopEngine e).evr.records k = vget s.evr.records k := (stopEngine_same s e).events k h12
  unfold State.abortTold
  split
  · rw [applyToBlocks_evr, hstop]
  · exact (raise_record_other _ (.testCallDone _ _) (show k ≠ 9 from h9)).trans hstop
  · exact (raise_record_other _ (.lineTestDone _ _ _ _) (show k ≠ 8 from h8)).trans hstop
  · rfl

theorem stopEngine_trunks (s : State) (e : EngineId) : (s.stopEngine e).trunks = s.trunks :=
  (stopListening_spec _ e).2.1.trans (modEngine_trunks _ _ _)

theorem stopEngine_tables_trunks (s : State) (e : EngineId) : (s.stopEngine e).tables.trunks = s.tables.trunks :=
  (stopEngine_same s e).trunkEntries

/-- An engine that is stopping has changed no trunk and no trunk entry yet. -/
theorem abortTold_trunks (s : State) (e : EngineId) :
    (s.abortTold e).trunks = s.trunks ∧ (s.abortTold e).tables.trunks = s.tables.trunks := by
  have htrunks := stopEngine_trunks s e
  have htables := stopEngine_tables_trunks s e
  unfold State.abortTold
  split
  · exact ⟨(returnBlocks_trunks _ _).trans htrunks, by rw [returnBlocks_tables, htables]⟩
  · exact ⟨htrunks, htables⟩
  · exact ⟨htrunks, htables⟩
  · exact ⟨rfl, rfl⟩

/-- R107: no trunk in WARNING is of a role that R97 does not manage. -/
def State.WarningsManaged (s : State) : Prop := ∀ u, (s.trunk u).state = .warning → s.managed u = true

theorem TrunksSound.warningsManaged {s : State} (h : TrunksSound s) : s.WarningsManaged := fun u hu => by
  rw [managed_iff]
  exact .inl (Trunk.Fits.shared_of_warning ((trunksSound_iff s).1 h u) hu)

theorem State.WarningsManaged.congr {s t : State} (h : s.WarningsManaged) (ht : t.trunks = s.trunks)
    (hr : t.tables.trunks = s.tables.trunks) : t.WarningsManaged := fun u hu => by
  rw [State.managed, trunkRole_congr hr]
  exact h u (by rw [← trunk_of_trunks ht]; exact hu)

theorem trunkOfRole_not_warning (s : State) (u : TrunkId) (role : TrunkRole) (b : Bool) :
    (s.trunkOfRole u role b).state ≠ .warning := by
  unfold State.trunkOfRole State.officeState
  cases role <;> dsimp only <;> (try split) <;> exact TrunkState.noConfusion

/-- The end of the use of a trunk's entry, where the trunk is managed: its staged write is told, and its card fault is not. -/
theorem endUse_managed {s : State} {u : TrunkId} (hm : s.managed u = true) :
    (∀ k : EventKind, k ≠ 12 → vget (s.endUse (.trunk u)).evr.records k = vget s.evr.records k) ∧
    ((s.trunk u).state ≠ .warning → ((s.endUse (.trunk u)).trunk u).state ≠ .warning) := by
  unfold State.endUse
  split
  · next w hw =>
    obtain ⟨en, -, rfl⟩ := Option.map_eq_some_iff.1 (show (vget s.tables.trunks u).staged.map (Write.trunk u) = some w from hw)
    split
    · exact ⟨fun _ _ => rfl, id⟩
    · refine ⟨fun k hk => ?_, fun _ => ?_⟩
      · rw [applyStaged_trunk_evr hm, raise_record_other _ (.tableApplied (.trunk u)) (show k ≠ 12 from hk)]
      · rw [applyStaged_trunk hm]
        exact trunkOfRole_not_warning _ _ _ _
  · exact ⟨fun _ _ => rfl, id⟩

theorem releaseTrunk_managed {s : State} {u : TrunkId} (e : EngineId) (h : (s.trunk u).state = .warning → s.managed u = true) :
    (∀ k : EventKind, k ≠ 12 → vget (s.releaseTrunk u e).evr.records k = vget s.evr.records k) ∧
    ((s.trunk u).holder = some e → ((s.releaseTrunk u e).trunk u).state ≠ .warning) := by
  unfold State.releaseTrunk
  split
  · split
    · next hs =>
      have hm : (s.setTrunk u (s.officeState u { s.trunk u with holder := none, warnTimer := none })).managed u = true := h hs
      obtain ⟨hrec, hst⟩ := endUse_managed hm
      refine ⟨fun k hk => ?_, fun _ => ?_⟩
      · rw [reportGrantable_evr, hrec k hk]
        rfl
      · rw [reportGrantable_trunk]
        refine hst ?_
        rw [trunk_setTrunk_same, State.officeState]
        split <;> exact TrunkState.noConfusion
    · refine ⟨fun _ _ => rfl, fun _ => ?_⟩
      rw [trunk_setTrunk_same]
      exact TrunkState.noConfusion
    · next hs _ => exact ⟨fun _ _ => rfl, fun _ => hs⟩
  · next hh => exact ⟨fun _ _ => rfl, fun h' => absurd h' hh⟩

theorem releaseTrunk_warnings {s : State} (h : s.WarningsManaged) (u : TrunkId) (e : EngineId) :
    (s.releaseTrunk u e).WarningsManaged := by
  intro w hw
  by_cases hwu : w = u
  · subst hwu
    by_cases hh : (s.trunk w).holder = some e
    · exact absurd hw ((releaseTrunk_managed e (h w)).2 hh)
    · rw [State.releaseTrunk, if_neg hh] at hw ⊢
      exact h w hw
  · rw [releaseTrunk_other s e hwu] at hw
    have hentry := (releaseTrunk_uses s u e).1.trunks w
    have hended : ((TableRef.trunk w == .trunk u) && ((s.trunk u).holder == some e && (s.trunk u).state == .warning)) = false := by
      rw [show (TableRef.trunk w == .trunk u) = false by simpa using hwu, Bool.false_and]
    rw [hended, settled_false] at hentry
    rw [State.managed, State.trunkRole, hentry]
    exact h w hw

/-- R73, R107: an engine that closes tells no card fault, and leaves WARNING trunks managed. -/
theorem close_managed {s : State} (h : s.WarningsManaged) (e : EngineId) :
    (∀ k : EventKind, k ≠ 12 → vget (s.close e).evr.records k = vget s.evr.records k) ∧ (s.close e).WarningsManaged := by
  have hclosing : (s.modEngine e Engine.atClosing).WarningsManaged :=
    h.congr (modEngine_trunks _ _ _) (by rw [modEngine_tables])
  obtain ⟨m, hm⟩ : ∃ m, m = (s.modEngine e Engine.atClosing).trunkGivenBack e (s.engine e).work := ⟨_, rfl⟩
  have hgiven : (∀ k : EventKind, k ≠ 12 → vget m.evr.records k = vget s.evr.records k) ∧ m.WarningsManaged := by
    rw [hm, State.trunkGivenBack]
    split
    · next u _ =>
      refine ⟨fun k hk => ?_, releaseTrunk_warnings hclosing u e⟩
      rw [(releaseTrunk_managed e (hclosing u)).1 k hk, modEngine_evr]
    · exact ⟨fun k _ => by rw [modEngine_evr], hclosing⟩
  obtain ⟨huses, htab, -, hrec⟩ := endUses_trunks (closingRefs_no_trunk (s.engine e))
    (m.modEngine e fun x => { x with detector := x.detector.release fun _ => true })
  have hemptied : s.emptied e = (m.allReleased e (s.engine e).closingRefs).modEngine e Engine.idled := by rw [hm]; rfl
  rw [close_eq]
  refine ⟨fun k hk => ?_, ?_⟩
  · show vget (s.emptied e).evr.records k = _
    rw [hemptied, modEngine_evr, State.allReleased, hrec k hk, modEngine_evr, hgiven.1 k hk]
  · refine State.WarningsManaged.congr (s := m) hgiven.2 ?_ ?_
    · show (s.emptied e).trunks = _
      rw [hemptied, modEngine_trunks, State.allReleased, huses, modEngine_trunks]
    · show (s.emptied e).tables.trunks = _
      rw [hemptied, modEngine_tables, State.allReleased, htab, modEngine_tables]

/-- R72: an abort tells of its tests and of the staged writes it lets be applied, and of nothing else. -/
theorem postAborts_managed {s : State} (h : s.WarningsManaged) (cause : AbortCause) (taken : EngineSet) :
    (∀ k : EventKind, k ≠ 8 → k ≠ 9 → k ≠ 12 → vget (s.postAborts cause taken).evr.records k = vget s.evr.records k) ∧
      (s.postAborts cause taken).WarningsManaged := by
  have hturn : ∀ (m : State) (e : EngineId), m.WarningsManaged →
      (∀ k : EventKind, k ≠ 8 → k ≠ 9 → k ≠ 12 → vget (m.postAbort cause taken e).evr.records k = vget m.evr.records k) ∧
        (m.postAbort cause taken e).WarningsManaged := fun m e hm => by
    cases hn : (m.engine e).abortsNow cause (takes taken e) with
    | false =>
      rw [postAbort_later hn]
      exact ⟨fun k _ _ _ => by rw [setEngine_evr], hm.congr (setEngine_trunks _ _ _) (by rw [setEngine_tables])⟩
    | true =>
      have hw : (m.engine e).work ≠ .nothing := by
        simp only [Engine.abortsNow, Bool.and_eq_true] at hn
        exact work_of_reaches hn.1.1
      obtain ⟨hrec, hman⟩ := close_managed (s := m.abortTold e) (hm.congr (abortTold_trunks m e).1 (abortTold_trunks m e).2) e
      rw [postAbort_now hn, abortEngine_eq hw]
      exact ⟨fun k h8 h9 h12 => (hrec k h12).trans (abortTold_record h8 h9 h12), hman⟩
  obtain ⟨h0, hm0⟩ := hturn s .e0 h
  obtain ⟨h1, hm1⟩ := hturn _ .e1 hm0
  exact ⟨fun k h8 h9 h12 => (h1 k h8 h9 h12).trans (h0 k h8 h9 h12), hm1⟩

/-! ### Trunks that no engine holds (R110) -/

/-- No trunk is in WARNING or TAKEN. -/
def State.NoneHeld (s : State) : Prop := ∀ u, (s.trunk u).state ≠ .warning ∧ (s.trunk u).state ≠ .taken

theorem State.NoneHeld.warningsManaged {s : State} (h : s.NoneHeld) : s.WarningsManaged := fun u hu => absurd hu (h u).1

theorem releaseTrunk_noneHeld {s : State} (h : s.NoneHeld) (u : TrunkId) (e : EngineId) : s.releaseTrunk u e = s := by
  obtain ⟨hwarn, htaken⟩ := h u
  unfold State.releaseTrunk
  split
  · split
    · next hs => exact absurd hs hwarn
    · next hs => exact absurd hs htaken
    · rfl
  · rfl

theorem State.NoneHeld.congr {s t : State} (h : s.NoneHeld) (ht : t.trunks = s.trunks) : t.NoneHeld := fun u => by
  rw [trunk_of_trunks ht]
  exact h u

theorem close_noneHeld {s : State} (h : s.NoneHeld) (e : EngineId) : (s.close e).trunks = s.trunks := by
  have hclosing : (s.modEngine e Engine.atClosing).NoneHeld := h.congr (modEngine_trunks _ _ _)
  have hgiven : (s.modEngine e Engine.atClosing).trunkGivenBack e (s.engine e).work = s.modEngine e Engine.atClosing := by
    unfold State.trunkGivenBack
    split
    · exact releaseTrunk_noneHeld hclosing _ e
    · rfl
  rw [close_eq]
  show (s.emptied e).trunks = _
  rw [State.emptied, hgiven, modEngine_trunks, State.allReleased, (endUses_trunks (closingRefs_no_trunk (s.engine e)) _).1,
    modEngine_trunks, modEngine_trunks]

theorem postAborts_noneHeld {s : State} (h : s.NoneHeld) (cause : AbortCause) (taken : EngineSet) :
    (s.postAborts cause taken).trunks = s.trunks := by
  have hturn : ∀ (m : State) (e : EngineId), m.NoneHeld → (m.postAbort cause taken e).trunks = m.trunks := fun m e hm => by
    cases hn : (m.engine e).abortsNow cause (takes taken e) with
    | false => rw [postAbort_later hn, setEngine_trunks]
    | true =>
      have hw : (m.engine e).work ≠ .nothing := by
        simp only [Engine.abortsNow, Bool.and_eq_true] at hn
        exact work_of_reaches hn.1.1
      rw [postAbort_now hn, abortEngine_eq hw, close_noneHeld (hm.congr (abortTold_trunks m e).1), (abortTold_trunks m e).1]
  have h0 := hturn s .e0 h
  exact (hturn _ .e1 (h.congr h0)).trans h0

/-! ### What an abort leaves of the rest -/

/-- The hold, the NO_TRUNK episode, the monitor and the emission record are as they were. -/
structure State.AsideKept (s t : State) : Prop where
  hold : t.dsc.hold = s.dsc.hold
  noTrunk : t.dsc.noTrunk = s.dsc.noTrunk
  silent : t.cmu.silent = s.cmu.silent
  silenceTimer : t.cmu.silenceTimer = s.cmu.silenceTimer
  emission : t.evr.emission = s.evr.emission

theorem State.AsideKept.trans {s m t : State} (h : s.AsideKept m) (k : m.AsideKept t) : s.AsideKept t :=
  ⟨k.hold.trans h.hold, k.noTrunk.trans h.noTrunk, k.silent.trans h.silent, k.silenceTimer.trans h.silenceTimer,
    k.emission.trans h.emission⟩

theorem postAborts_asideKept (s : State) (cause : AbortCause) (taken : EngineSet) :
    s.AsideKept (s.postAborts cause taken) := by
  have hturn : ∀ (m : State) (e : EngineId), m.AsideKept (m.postAbort cause taken e) := fun m e => by
    cases hn : (m.engine e).abortsNow cause (takes taken e) with
    | false =>
      rw [postAbort_later hn]
      exact ⟨by rw [setEngine_dsc], by rw [setEngine_dsc], by rw [setEngine_cmu], by rw [setEngine_cmu], by rw [setEngine_evr]⟩
    | true =>
      have hw : (m.engine e).work ≠ .nothing := by
        simp only [Engine.abortsNow, Bool.and_eq_true] at hn
        exact work_of_reaches hn.1.1
      have hclosed := (abortEngine_stopped e m hw).1
      rw [postAbort_now hn]
      exact ⟨hclosed.hold, hclosed.noTrunk, hclosed.silent, hclosed.silenceTimer, hclosed.emission⟩
  exact (hturn _ _).trans (hturn _ _)

/-! ### The tests that an abort ends (R157, R158) -/

theorem abortOutcomes_joined {x y : Engine} (h : OnlyJoined x y) : y.work.abortOutcomes = x.work.abortOutcomes := by
  obtain ⟨hs, rfl⟩ := h
  cases hw : x.work with
  | testCall c =>
    funext o
    show Work.abortOutcomes (.testCall _) o = _
    unfold Work.abortOutcomes
    dsimp only
    rw [joined_acked]
  | _ => rfl

theorem abortsNow_joined {x y : Engine} (h : OnlyJoined x y) (cause : AbortCause) (now : Bool) :
    y.abortsNow cause now = x.abortsNow cause now := by
  obtain ⟨hr, hp⟩ := h.reaches cause
  rw [Engine.abortsNow, hr, hp, Engine.abortsNow]

/-- What the abort of the engine's work makes of the outcomes. -/
def Engine.abortOutcomes (x : Engine) (cause : AbortCause) (now : Bool)
    (o : CommandSlot × Vector TestResult 8 × EventRecord × EventRecord × EventRecord) :
    CommandSlot × Vector TestResult 8 × EventRecord × EventRecord × EventRecord :=
  if x.abortsNow cause now then x.work.abortOutcomes o else o

theorem postAborts_outcomes (s : State) (cause : AbortCause) (taken : EngineSet) :
    (s.postAborts cause taken).outcomes =
      (s.engine .e1).abortOutcomes cause (takes taken .e1) ((s.engine .e0).abortOutcomes cause (takes taken .e0) s.outcomes) := by
  have hj := postAbort_companion s cause taken .e0
  rw [postAborts_eq, postAbort_outcomes, postAbort_outcomes]
  unfold Engine.abortOutcomes
  rw [show other .e0 = .e1 from rfl] at hj
  rw [abortsNow_joined hj, abortOutcomes_joined hj]

/-- An engine with no test to end. -/
theorem Engine.abortOutcomes_none {x : Engine} {cause : AbortCause} {now : Bool}
    (h : x.abortsNow cause now = false ∨ x.work = .nothing ∨ x.work.isAlertCall = true)
    (o : CommandSlot × Vector TestResult 8 × EventRecord × EventRecord × EventRecord) : x.abortOutcomes cause now o = o := by
  unfold Engine.abortOutcomes
  split
  · next hn =>
    rcases h with h | h | h
    · rw [hn] at h
      cases h
    · rw [h]
      rfl
    · cases hw : x.work with
      | alertCall c => rfl
      | _ => rw [hw] at h; cases h
  · rfl

/-- R157, R158: where engine `e` alone may hold a test, what the abort makes of the outcomes is what its own abort does. -/
theorem postAborts_outcomes_of (s : State) (cause : AbortCause) (taken : EngineSet) (e : EngineId)
    (h : (s.engine (other e)).abortsNow cause (takes taken (other e)) = false ∨ (s.engine (other e)).work = .nothing ∨
      (s.engine (other e)).work.isAlertCall = true) :
    (s.postAborts cause taken).outcomes = (s.engine e).abortOutcomes cause (takes taken e) s.outcomes := by
  rw [postAborts_outcomes]
  cases e with
  | e0 => exact Engine.abortOutcomes_none (x := s.engine .e1) h _
  | e1 =>
    rw [show other .e1 = .e0 from rfl] at h
    rw [Engine.abortOutcomes_none h]

/-- R72: which tests an abort of this cause ends. -/
theorem postAborts_tests (s : State) (cause : AbortCause) (taken : EngineSet) {reaches : Work → Bool}
    (hreach : ∀ w, w ≠ .nothing → w.isAlertCall = false → reaches w = cause.reaches w) :
    TestsAborted s (s.postAborts cause taken) taken reaches fun k => vget s.evr.records k := by
  refine ⟨fun e ht hp hr ho => ?_, fun hnone => ?_⟩
  · have hout := postAborts_outcomes_of s cause taken e (.inr ho)
    have hnow : ∀ w, (s.engine e).work = w → w ≠ .nothing → w.isAlertCall = false →
        (s.engine e).abortOutcomes cause (takes taken e) s.outcomes = w.abortOutcomes s.outcomes := fun w hw hn ha => by
      subst hw
      have hc : cause.reaches (s.engine e).work = true := (hreach _ hn ha).symm.trans hr
      unfold Engine.abortOutcomes Engine.abortsNow
      rw [if_pos (by simp [hc, hp, ht])]
    refine ⟨fun r hw => ?_, fun c hw => ?_⟩
    · rw [hnow _ hw (by simp) rfl] at hout
      simp only [State.outcomes, Work.abortOutcomes, Prod.mk.injEq] at hout
      obtain ⟨h1, h2, -, h4, h5⟩ := hout
      exact ⟨h1, h2, h4, h5⟩
    · rw [hnow _ hw (by simp) rfl] at hout
      simp only [State.outcomes, Work.abortOutcomes, Prod.mk.injEq] at hout
      obtain ⟨h1, h2, -, h4, h5⟩ := hout
      exact ⟨h1, h2, h5, h4⟩
  · have hid : ∀ e o, (s.engine e).abortOutcomes cause (takes taken e) o = o := fun e o => by
      refine Engine.abortOutcomes_none ?_ o
      rcases hnone e with h | h | h | h | h
      · exact .inl (by rw [Engine.abortsNow, h, Bool.and_false])
      · exact .inl (by rw [Engine.abortsNow, h]; simp)
      · by_cases hw : (s.engine e).work = .nothing
        · exact .inr (.inl hw)
        · cases ha : (s.engine e).work.isAlertCall with
          | true => exact .inr (.inr rfl)
          | false => exact .inl (by rw [Engine.abortsNow, ← hreach _ hw ha, h]; rfl)
      · exact .inr (.inl h)
      · exact .inr (.inr h)
    have hout := postAborts_outcomes s cause taken
    rw [hid, hid] at hout
    simp only [State.outcomes, Prod.mk.injEq] at hout
    obtain ⟨-, h2, -, h4, h5⟩ := hout
    exact ⟨h2, h4, h5⟩

/-- The same told from a state with the same engines and results, and of one with the same outcomes. -/
theorem TestsAborted.congr {s m t t' : State} {taken : EngineSet} {reaches : Work → Bool} {before before' : EventKind → EventRecord}
    (h : TestsAborted m t taken reaches before) (he : m.engines = s.engines) (hr : m.cmu.results = s.cmu.results)
    (hb8 : before 8 = before' 8) (hb9 : before 9 = before' 9) (hslot : t.cmu.slot = .empty → t'.cmu.slot = .empty)
    (hres : t'.cmu.results = t.cmu.results) (h8 : vget t'.evr.records 8 = vget t.evr.records 8)
    (h9 : vget t'.evr.records 9 = vget t.evr.records 9) : TestsAborted s t' taken reaches before' := by
  have heng : ∀ e, s.engine e = m.engine e := fun e => (engine_of_engines he e).symm
  unfold TestsAborted at h ⊢
  simp only [heng, hres, h8, h9, ← hr, ← hb8, ← hb9]
  refine ⟨fun e ht hp hreach ho => ⟨fun r hw => ?_, fun c hw => ?_⟩, h.2⟩
  · obtain ⟨h1, h2⟩ := (h.1 e ht hp hreach ho).1 r hw
    exact ⟨hslot h1, h2⟩
  · obtain ⟨h1, h2⟩ := (h.1 e ht hp hreach ho).2 c hw
    exact ⟨hslot h1, h2⟩

end Sys2Proof.Machine

namespace Sys2Proof.Machine
open Sys2Proof Sys2Proof.Machine

/-! ### The records of the calls that an abort stops (R47, R15, R16) -/

/-- The record `r` stands at `h`, WAITING or in the call of engine `f`, or has merged into another of its key. -/
def StandsAs (f : EngineId) (h : Handle) (r : Record) (t : State) : Prop :=
  (∃ st n p, t.findRecord h = some { r with state := st, repeats := n, isProtected := p } ∧ (st = .waiting ∨ st = .inCall f)) ∨
  MergedAway t h r.key

theorem StandsAs.congr {f : EngineId} {h : Handle} {r : Record} {s t : State} (hs : StandsAs f h r s) (hq : t.queue = s.queue) :
    StandsAs f h r t :=
  hs.imp (fun ⟨st, n, p, hf, ho⟩ => ⟨st, n, p, (findRecord_of_queue hq h).trans hf, ho⟩) (mergedAway_congr hq)

/-- The record `x` stands at its handle, outside of a call as it was. -/
def StaysOpen (h : Handle) (x : Record) (t : State) : Prop :=
  ∃ n p, t.findRecord h = some { x with repeats := n, isProtected := p }

section
variable {x : EngineId} {g h : Handle} {y r : Record} {s t : State} {f : EngineId}

/-- R15: another record that returns. -/
theorem Settlement.stands_other (hset : Settlement x g y { y with state := .waiting } s t) (hs : QueueSound s) (ht : QueueSound t)
    (hy : s.findRecord g = some y) (hc : y.state.isInCall = true) (hg : g ≠ h) (hst : StandsAs f h r s) : StandsAs f h r t := by
  rcases hst with ⟨st, n, p, hf, ho⟩ | hm
  · rcases ho with rfl | rfl
    · obtain ⟨n', p', hf', -⟩ := hset.open_kept hy hc hf rfl
      exact .inl ⟨_, n', p', hf', .inl rfl⟩
    · exact .inl ⟨_, n, p, hset.inCall_kept (Ne.symm hg) hf rfl, .inr rfl⟩
  · exact .inr (hset.mergedAway_kept hs ht hy hc hm)

/-- R15, R16: the record itself returns from the call of engine `x`. -/
theorem Settlement.stands_self (hset : Settlement x h y { y with state := .waiting } s t) (ht : QueueSound t)
    {st : RecordState} {n : Nat} {p : Bool} (hy : y = { r with state := st, repeats := n, isProtected := p }) :
    StandsAs (other x) h r t ∧
      ((∀ k, (s.engine (other x)).work ≠ .alertCall k) → ∀ f, StandsAs f h r t) := by
  subst hy
  rcases hset.returns ht rfl with ⟨n', p', hf⟩ | ⟨-, hf, k, hk, -⟩ | hm
  · exact ⟨.inl ⟨_, n', p', hf, .inl rfl⟩, fun _ _ => .inl ⟨_, n', p', hf, .inl rfl⟩⟩
  · exact ⟨.inl ⟨_, _, _, hf, .inr rfl⟩, fun hno => absurd hk (hset.no_call_kept hno k)⟩
  · exact ⟨.inr hm, fun _ _ => .inr hm⟩

theorem Settlement.stands (hset : Settlement x g y { y with state := .waiting } s t) (hs : QueueSound s) (ht : QueueSound t)
    (hy : s.findRecord g = some y) (hc : y.state.isInCall = true) (hst : StandsAs f h r s)
    (hjoin : f = other x ∨ ∀ k, (s.engine (other x)).work ≠ .alertCall k) : StandsAs f h r t := by
  by_cases hg : g = h
  · subst hg
    rcases hst with ⟨st, n, p, hf, -⟩ | hm
    · obtain ⟨hself, hany⟩ := hset.stands_self (r := r) ht (Option.some.inj (hy.symm.trans hf))
      rcases hjoin with rfl | hno
      · exact hself
      · exact hany hno f
    · rw [hm.1] at hy
      cases hy
  · exact hset.stands_other hs ht hy hc hg hst

end

section
variable {x : EngineId} {h : Handle} {r : Record} {o : State} {f : EngineId}

/-- The records of a call return one after another, and every other record stands. -/
theorem returns_stand : ∀ (hs : List Handle) {b : State}, b.EndsIn x o → StandsAs f h r b →
    (f = other x ∨ ∀ k, (b.engine (other x)).work ≠ .alertCall k) → StandsAs f h r (hs.foldl State.uncountedReturn b)
  | [], _, _, hst, _ => hst
  | g :: hs, b, hends, hst, hjoin => by
    have hS := uncountedReturn_settler x o
    have hkeep := hS.keeps b g hends
    refine returns_stand hs hkeep ?_ ?_
    · rcases hS.step hends g with hsame | ⟨y, hy, hc, hset⟩
      · rw [hsame]
        exact hst
      · exact hset.stands hends.queue hkeep.queue hy hc hst hjoin
    · rcases hS.step hends g with hsame | ⟨y, hy, hc, hset⟩
      · rw [hsame]
        exact hjoin
      · exact hjoin.imp id fun hno => hset.no_call_kept hno

/-- The records of the call of engine `x` have all left it. -/
theorem returns_leave : ∀ (hs : List Handle) {b : State}, b.EndsIn x o → h ∈ hs → StandsAs x h r b →
    StandsAs (other x) h r (hs.foldl State.uncountedReturn b)
  | [], _, _, hh, _ => absurd hh (by simp)
  | g :: hs, b, hends, hh, hst => by
    have hS := uncountedReturn_settler x o
    have hkeep := hS.keeps b g hends
    by_cases hg : g = h
    · subst hg
      refine returns_stand hs hkeep ?_ (.inl rfl)
      rcases hst with ⟨st, n, p, hf, ho⟩ | hm
      · rcases ho with rfl | rfl
        · rw [hS.skips b g fun z hz => by rw [← Option.some.inj (hf.symm.trans hz)]; rfl]
          exact .inl ⟨_, n, p, hf, .inl rfl⟩
        · exact ((hS.settles b g _ hends hf rfl).stands_self hkeep.queue rfl).1
      · rw [hS.skips b g fun z hz => by rw [hm.1] at hz; cases hz]
        exact .inr hm
    · refine returns_leave hs hkeep ((List.mem_cons.1 hh).resolve_left (Ne.symm hg)) ?_
      rcases hS.step hends g with hsame | ⟨y, hy, hc, hset⟩
      · rw [hsame]
        exact hst
      · exact hset.stands_other hends.queue hkeep.queue hy hc hg hst

/-- A record outside of a call stays where it is as the records of a call return. -/
theorem returns_open {z : Record} (hz : z.state.isInCall = false) : ∀ (hs : List Handle) {b : State}, b.EndsIn x o →
    StaysOpen h z b → StaysOpen h z (hs.foldl State.uncountedReturn b)
  | [], _, _, hst => hst
  | g :: hs, b, hends, hst => by
    have hS := uncountedReturn_settler x o
    refine returns_open hz hs (hS.keeps b g hends) ?_
    rcases hS.step hends g with hsame | ⟨y, hy, hc, hset⟩
    · rw [hsame]
      exact hst
    · obtain ⟨n, p, hf⟩ := hst
      obtain ⟨n', p', hf', -⟩ := hset.open_kept hy hc hf hz
      exact ⟨n', p', hf'⟩

/-- With no record in a call nothing returns. -/
theorem returns_none (hs : List Handle) {b : State} (hno : ∀ z ∈ b.queue, z.state.isInCall = false) :
    hs.foldl State.uncountedReturn b = b := by
  induction hs with
  | nil => rfl
  | cons g hs ih =>
    rw [List.foldl_cons, (uncountedReturn_settler .e0 b).skips b g fun z hz => hno z (findRecord_mem hz), ih]

end

/-! ### The turn of one engine -/

section
variable {s : State} {cause : AbortCause} {taken : EngineSet}

/-- A call with no entries. -/
def emptyCall : CallRecord := newCall 0 0 [] false

theorem callSettled_of_same {e : EngineId} {t : State} (hq : QueueSound s) (htq : t.queue = s.queue)
    (hte : t.engine (other e) = s.engine (other e)) : CallSettled e s State.uncountedReturn s t emptyCall :=
  have hqueue : (s.callEmptied e).queue = s.queue := modEngine_queue _ _ _
  have hother : (s.callEmptied e).engine (other e) = s.engine (other e) := engine_modEngine_other _ _ (other_ne e)
  ⟨s.callEmptied e, callEmptied_endsIn e hq, hqueue, hother, htq.trans hqueue.symm, hte.trans hother.symm⟩

/-- R47: what an engine's turn makes of the queue and of the other engine: the records of the call it stops have returned. -/
theorem postAbort_settled (hq : QueueSound s) (e : EngineId) :
    ∃ p c, CallSettled e p State.uncountedReturn s (s.postAbort cause taken e) c ∧
      ∀ c0, (s.engine e).work = .alertCall c0 → (s.engine e).abortsNow cause (takes taken e) = true → c = c0 := by
  cases hn : (s.engine e).abortsNow cause (takes taken e) with
  | false =>
    rw [postAbort_later hn]
    exact ⟨s, emptyCall, callSettled_of_same hq (setEngine_queue _ _ _) (engine_setEngine_other _ _ (other_ne e)), nofun⟩
  | true =>
    have hw : (s.engine e).work ≠ .nothing := by
      simp only [Engine.abortsNow, Bool.and_eq_true] at hn
      exact work_of_reaches hn.1.1
    rw [postAbort_now hn, abortEngine_eq hw]
    have hother : ∀ m : State, (m.close e).engine (other e) = m.engine (other e) := fun m => close_engine_other m (other_ne e)
    unfold State.abortTold
    cases hk : (s.engine e).work with
    | nothing => exact absurd hk hw
    | alertCall c =>
      refine ⟨_, c, (stopEngine_alike s e).settled hq hk (close_queue _ _) (hother _), fun c0 h0 _ => ?_⟩
      exact Work.alertCall.inj h0
    | testCall c =>
      refine ⟨s, emptyCall, callSettled_of_same hq ?_ ?_, fun c0 h0 => by cases h0⟩
      · rw [close_queue]
        exact (stopEngine_same s e).queue
      · rw [hother]
        exact stopEngine_engine_other s e
    | lineTest r =>
      refine ⟨s, emptyCall, callSettled_of_same hq ?_ ?_, fun c0 h0 => by cases h0⟩
      · rw [close_queue]
        exact (resultTold_alike s e r .aborted).queue
      · rw [hother]
        exact (resultTold_alike s e r .aborted).companion

theorem postAbort_queueSound (hq : QueueSound s) (e : EngineId) : QueueSound (s.postAbort cause taken e) := by
  cases hn : (s.engine e).abortsNow cause (takes taken e) with
  | false =>
    rw [postAbort_later hn]
    exact queueSound_congr (setEngine_queue _ _ _) hq
  | true =>
    rw [postAbort_now hn]
    exact (kept_abortEngine s e).queue hq

theorem postAbort_stands (hq : QueueSound s) {e f : EngineId} {h : Handle} {r : Record} (hst : StandsAs f h r s)
    (hjoin : f = other e ∨ ∀ k, (s.engine (other e)).work ≠ .alertCall k) : StandsAs f h r (s.postAbort cause taken e) := by
  obtain ⟨p, c, hC, -⟩ := postAbort_settled (cause := cause) (taken := taken) hq e
  obtain ⟨b, hends, hbq, hbe, htq, -⟩ := hC.exists_start
  exact (returns_stand _ hends (hst.congr hbq) (by rw [hbe]; exact hjoin)).congr htq

theorem postAbort_leave (hq : QueueSound s) {e : EngineId} {c : CallRecord} (hw : (s.engine e).work = .alertCall c)
    (hn : (s.engine e).abortsNow cause (takes taken e) = true) {h : Handle} (hh : h ∈ c.unsettled) {r : Record}
    (hst : StandsAs e h r s) : StandsAs (other e) h r (s.postAbort cause taken e) := by
  obtain ⟨p, c', hC, hc⟩ := postAbort_settled (cause := cause) (taken := taken) hq e
  obtain rfl := hc c hw hn
  obtain ⟨b, hends, hbq, -, htq, -⟩ := hC.exists_start
  exact (returns_leave _ hends hh (hst.congr hbq)).congr htq

theorem postAbort_open (hq : QueueSound s) (e : EngineId) {z : Record} (hz : z.state.isInCall = false) {h : Handle}
    (hst : StaysOpen h z s) : StaysOpen h z (s.postAbort cause taken e) := by
  obtain ⟨p, c, hC, -⟩ := postAbort_settled (cause := cause) (taken := taken) hq e
  obtain ⟨b, hends, hbq, -, htq, -⟩ := hC.exists_start
  have hcongr : ∀ {m t : State}, t.queue = m.queue → StaysOpen h z m → StaysOpen h z t := fun hmt ⟨n, p, hf⟩ =>
    ⟨n, p, (findRecord_of_queue hmt h).trans hf⟩
  exact hcongr htq (returns_open hz _ hends (hcongr hbq hst))

theorem postAbort_queue (hq : QueueSound s) (e : EngineId) (hno : ∀ z ∈ s.queue, z.state.isInCall = false) :
    (s.postAbort cause taken e).queue = s.queue := by
  obtain ⟨p, c, hC, -⟩ := postAbort_settled (cause := cause) (taken := taken) hq e
  obtain ⟨b, hends, hbq, -, htq, -⟩ := hC.exists_start
  rw [htq, returns_none _ (by rw [hbq]; exact hno), hbq]

/-! ### Both turns -/

/-- R47, R15, R16: the records of the calls that an abort of both engines stops. -/
theorem postAborts_settled (hq : QueueSound s) : AbortedSettled s (s.postAborts cause taken) taken := by
  intro e c ht hw hp h hh r hr hst
  have hq0 := postAbort_queueSound (cause := cause) (taken := taken) hq .e0
  have hbefore : StandsAs e h r s := .inl ⟨r.state, r.repeats, r.isProtected, hr, .inr hst⟩
  have hnow : (s.engine e).abortsNow cause (takes taken e) = true := by
    unfold Engine.abortsNow
    rw [hw, ht]
    cases cause <;> simpa [AbortCause.reaches] using hp
  suffices hend : StandsAs (other e) h r (s.postAborts cause taken) from hend
  rw [postAborts_eq]
  cases e with
  | e0 =>
    refine postAbort_stands hq0 (postAbort_leave hq hw hnow hh hbefore) (.inr fun k hk => ?_)
    have hidle : ((s.postAbort cause taken .e0).engine .e0).work = .nothing := by
      rw [postAbort_now hnow, (abortEngine_stopped .e0 s (by rw [hw]; nofun)).1.engine]
      rfl
    rw [show other .e1 = .e0 from rfl, hidle] at hk
    cases hk
  | e1 =>
    have hj := postAbort_companion s cause taken .e0
    rw [show other .e0 = .e1 from rfl] at hj
    obtain ⟨gs, hgs⟩ := hj
    have hw0 : ((s.postAbort cause taken .e0).engine .e1).work =
        .alertCall { c with blocks := c.blocks ++ gs.map fun g => ⟨some g, .queued⟩ } := by
      rw [hgs]
      show (s.engine .e1).work.mapCall _ = _
      rw [hw]
      rfl
    refine postAbort_leave hq0 hw0 ?_ ?_ (postAbort_stands hq hbefore (.inl rfl))
    · rw [abortsNow_joined ⟨gs, hgs⟩]
      exact hnow
    · unfold CallRecord.unsettled at hh ⊢
      rw [List.filter_append, List.filterMap_append]
      exact List.mem_append_left _ hh

theorem postAborts_open (hq : QueueSound s) {z : Record} (hz : z ∈ s.queue) (hout : z.state.isInCall = false) :
    StaysOpen z.handle z (s.postAborts cause taken) :=
  postAbort_open (postAbort_queueSound hq .e0) .e1 hout
    (postAbort_open hq .e0 hout ⟨z.repeats, z.isProtected, hq.findRecord_of_mem hz⟩)

theorem postAborts_queue (hq : QueueSound s) (hno : ∀ z ∈ s.queue, z.state.isInCall = false) :
    (s.postAborts cause taken).queue = s.queue := by
  have h0 := postAbort_queue (cause := cause) (taken := taken) hq .e0 hno
  rw [postAborts_eq, postAbort_queue (postAbort_queueSound hq .e0) .e1 (by rw [h0]; exact hno), h0]

end

end Sys2Proof.Machine

namespace Sys2Proof.Machine
open Sys2Proof Sys2Proof.Machine

/-! ### What an abort of both engines leaves of an engine (R72) -/

theorem inHand_of_heldCommand {s : State} {code : Nat} {c : InCell} (h : s.heldCommand code = some c) :
    s.ccp.inHand = some c ∧ c.kind = 5 := by
  unfold State.heldCommand State.held at h
  split at h
  · next d hd =>
    split at hd
    · next x hx =>
      split at hd
      · next hk =>
        split at h
        · cases hd
          cases h
          exact ⟨hx, hk⟩
        · cases h
      · cases hd
    · cases hd
  · cases h

theorem OnlyJoined.abort_eq {x y : Engine} (h : OnlyJoined x y) : y.abort = x.abort := by
  obtain ⟨hs, rfl⟩ := h
  rfl

theorem OnlyJoined.nothing {x y : Engine} (h : OnlyJoined x y) (hw : x.work = .nothing) : y.work = .nothing := by
  obtain ⟨hs, rfl⟩ := h
  show x.work.mapCall _ = _
  rw [hw]
  rfl

/-- An engine that holds no call is joined by no record. -/
theorem OnlyJoined.eq_of_no_call {x y : Engine} (h : OnlyJoined x y) (hw : x.work.call = none) : y = x := by
  obtain ⟨hs, rfl⟩ := h
  cases x with
  | mk phase step work =>
    cases work with
    | nothing => rfl
    | lineTest r => rfl
    | alertCall c => cases hw
    | testCall c => cases hw

section
variable {s : State} {cause : AbortCause} {taken : EngineSet} {e : EngineId}

/-- R72: an engine that the abort reaches and that takes it in the step is IDLE. -/
theorem postAborts_takes (hr : cause.reaches (s.engine e).work = true) (hp : (s.engine e).phase ≠ .closing)
    (ht : takes taken e = true) :
    OnlyJoined { Engine.reset with detector := (s.engine e).detector.release fun _ => true }
      ((s.postAborts cause taken).engine e) := by
  have h := postAborts_engine s cause taken e
  rwa [Engine.abortPosted, ht, if_pos (by simp [hr, hp]), if_pos rfl] at h

/-- R72: another one keeps it. -/
theorem postAborts_carries (hr : cause.reaches (s.engine e).work = true) (hp : (s.engine e).phase ≠ .closing)
    (ht : takes taken e = false) : OnlyJoined { s.engine e with abort := some cause } ((s.postAborts cause taken).engine e) := by
  have h := postAborts_engine s cause taken e
  rwa [Engine.abortPosted, ht, if_pos (by simp [hr, hp]), if_neg Bool.false_ne_true] at h

/-- R72: what an abort that reaches an engine makes of it. -/
theorem postAborts_turn (hr : cause.reaches (s.engine e).work = true) (hp : (s.engine e).phase ≠ .closing) :
    (takes taken e = true →
      ((s.postAborts cause taken).engine e).phase = .idle ∧ ((s.postAborts cause taken).engine e).work = .nothing) ∧
    (takes taken e = false → ((s.postAborts cause taken).engine e).abort = some cause ∧
      ((s.postAborts cause taken).engine e).phase = (s.engine e).phase) :=
  ⟨fun ht => ⟨(postAborts_takes hr hp ht).phase_eq, (postAborts_takes hr hp ht).nothing rfl⟩,
    fun ht => ⟨(postAborts_carries hr hp ht).abort_eq, (postAborts_carries hr hp ht).phase_eq⟩⟩

theorem reaches_abortCalls_of_call {w : Work} (h : w.call.isSome = true) : AbortCause.abortCalls.reaches w = true := by
  cases w with
  | nothing => cases h
  | lineTest r => cases h
  | alertCall c => rfl
  | testCall c => rfl

theorem not_reaches_abortCalls {w : Work} (h : w.call = none) : AbortCause.abortCalls.reaches w = false := by
  cases w with
  | nothing => rfl
  | lineTest r => rfl
  | alertCall c => cases h
  | testCall c => cases h

/-- R72: ABORT_CALLS leaves an engine that holds no call. -/
theorem abortCalls_engine (hw : (s.engine e).work.call = none) : (s.postAborts .abortCalls taken).engine e = s.engine e := by
  have h := postAborts_engine s .abortCalls taken e
  rw [Engine.abortPosted, not_reaches_abortCalls hw, Bool.false_and, if_neg Bool.false_ne_true] at h
  exact h.eq_of_no_call hw

theorem reaches_of_work {w : Work} (hc : cause ≠ .abortCalls) (hw : w ≠ .nothing) : cause.reaches w = true := by
  unfold AbortCause.reaches
  split
  · exact absurd rfl hw
  · exact absurd rfl hc
  · rfl

/-- R151: the slot holds its command, or is EMPTY after a test that the abort ends. -/
theorem postAborts_slot (s : State) (cause : AbortCause) (taken : EngineSet) :
    (s.postAborts cause taken).cmu.slot = s.cmu.slot ∨ (s.postAborts cause taken).cmu.slot = .empty := by
  have hturn : ∀ (x : Engine) now o, (x.abortOutcomes cause now o).1 = o.1 ∨ (x.abortOutcomes cause now o).1 = .empty := by
    intro x now o
    unfold Engine.abortOutcomes Work.abortOutcomes
    split
    · split
      · exact .inr rfl
      · exact .inr rfl
      · exact .inl rfl
    · exact .inl rfl
  have hslot := congrArg Prod.fst (postAborts_outcomes s cause taken)
  rcases hturn (s.engine .e1) (takes taken .e1) ((s.engine .e0).abortOutcomes cause (takes taken .e0) s.outcomes) with h1 | h1
  · rcases hturn (s.engine .e0) (takes taken .e0) s.outcomes with h0 | h0
    · exact .inl (hslot.trans (h1.trans h0))
    · exact .inr (hslot.trans (h1.trans h0))
  · exact .inr (hslot.trans h1)

end

/-! ### The events that no abort tells (R163, R165) -/

theorem postAborts_record (s : State) (cause : AbortCause) (taken : EngineSet) {k : EventKind} (h5 : k ≠ 5) (h8 : k ≠ 8)
    (h9 : k ≠ 9) (h12 : k ≠ 12) : vget (s.postAborts cause taken).evr.records k = vget s.evr.records k := by
  have hturn : ∀ (m : State) e, vget (m.postAbort cause taken e).evr.records k = vget m.evr.records k := fun m e => by
    cases hn : (m.engine e).abortsNow cause (takes taken e) with
    | false => rw [postAbort_later hn, setEngine_evr]
    | true =>
      have hw : (m.engine e).work ≠ .nothing := by
        simp only [Engine.abortsNow, Bool.and_eq_true] at hn
        exact work_of_reaches hn.1.1
      rw [postAbort_now hn, abortEngine_eq hw, close_record _ _ h5 h12, abortTold_record h8 h9 h12]
  rw [postAborts_eq, hturn, hturn]

theorem cardFaultRise_enabled (s : State) (u : TrunkId) (k : EventKind) :
    (vget (s.cardFaultRise u).evr.records k).enabled = (vget s.evr.records k).enabled := by
  unfold State.cardFaultRise
  split
  · exact (still_raise _ _).enabled k
  · rfl

theorem tellReaders_enabled (m b : State) (w : Write) (k : EventKind) :
    (vget (m.tellReaders b w).evr.records k).enabled = (vget m.evr.records k).enabled := by
  rw [tellReaders_evr]
  cases w with
  | site e => simp [State.tellOwner]
  | trunk t e =>
    unfold State.tellOwner State.trunkEntryApplied
    rw [reportGrantable_evr]
    split
    · exact cardFaultRise_enabled _ _ _
    · rfl
  | _ => rfl

theorem endUse_enabled (s : State) (ref : TableRef) (k : EventKind) :
    (vget (s.endUse ref).evr.records k).enabled = (vget s.evr.records k).enabled := by
  unfold State.endUse
  split
  · split
    · rfl
    · exact (tellReaders_enabled _ _ _ k).trans ((still_raise _ _).enabled k)
  · rfl

/-- R165: an abort leaves the notify enables. -/
theorem postAborts_enabled (s : State) (cause : AbortCause) (taken : EngineSet) (k : EventKind) :
    (vget (s.postAborts cause taken).evr.records k).enabled = (vget s.evr.records k).enabled :=
  postAborts_induct (P := fun t => (vget t.evr.records k).enabled = (vget s.evr.records k).enabled)
    (fun t ref h => (endUse_enabled t ref k).trans h) (fun _ _ hst h => (hst.enabled k).trans h) cause taken rfl

end Sys2Proof.Machine

namespace Sys2Proof.Machine
open Sys2Proof Sys2Proof.Machine

/-! ### The stages of INIT (R161) -/

/-- R25: what INIT makes of one record. -/
def Record.freed (r : Record) : Record := if r.state.isHeld then { r with state := .waiting } else r

@[simp] theorem freed_handle (r : Record) : r.freed.handle = r.handle := by
  unfold Record.freed
  split <;> rfl

@[simp] theorem freed_key (r : Record) : r.freed.key = r.key := by
  unfold Record.freed
  split <;> rfl

@[simp] theorem freed_isProtected (r : Record) : r.freed.isProtected = r.isProtected := by
  unfold Record.freed
  split <;> rfl

@[simp] theorem freed_isInCall (r : Record) : r.freed.state.isInCall = r.state.isInCall := by
  unfold Record.freed
  split
  · next h =>
    cases hs : r.state with
    | held n part => rfl
    | waiting => rfl
    | inCall e => rw [hs] at h; cases h
    | stranded => rfl
  · rfl

theorem freed_of_not_held {r : Record} (h : r.state.isHeld = false) : r.freed = r := by
  rw [Record.freed, h]
  rfl

theorem freed_not_held (r : Record) : r.freed.state.isHeld = false := by
  unfold Record.freed
  split
  · rfl
  · next h => exact Bool.eq_false_iff.2 h

/-- R147: a record that becomes WAITING while no table is loaded is a cause to select, and no more. -/
theorem reportWaiting_no_tables {s : State} (h : s.tables = Tables.empty) (g : Handle) : s.reportWaiting g = s.cause := by
  have hroute : ∀ r, s.cause.currentRoute r = none := fun r => by
    have hentry : s.cause.classEntry r.cls = none := by
      show vget s.tables.classes r.cls = none
      rw [h]
      simp [Tables.empty]
    rw [State.currentRoute, hentry]
  unfold State.reportWaiting State.lateJoin
  split
  · rfl
  · rw [hroute]

/-- R25: with no table loaded the HELD records become WAITING, and nothing more happens to the queue. -/
theorem releaseHeld_no_tables {s : State} (h : s.tables = Tables.empty) :
    ∃ n, s.releaseHeld = { s with queue := s.queue.map Record.freed, dsc := { s.dsc with selectionsDue := n } } := by
  have hfold : ∀ (l : List Handle) (m : State), m.tables = Tables.empty →
      ∃ n, l.foldl State.reportWaiting m = { m with dsc := { m.dsc with selectionsDue := n } } := by
    intro l
    induction l with
    | nil => exact fun m _ => ⟨m.dsc.selectionsDue, rfl⟩
    | cons g l ih =>
      intro m hm
      rw [List.foldl_cons, reportWaiting_no_tables hm]
      exact ih m.cause hm
  exact hfold _ { s with queue := s.queue.map Record.freed } h

/-- R42: the end of a hold changes the hold, its event and the causes alone. -/
theorem endHold_eq (s : State) (why : HoldCause) :
    ∃ n, s.endHold why = { s with
      dsc := { s.dsc with hold := none, selectionsDue := n }
      evr := if s.dsc.hold.isSome then (s.raise (.holdEnded why)).evr else s.evr } := by
  unfold State.endHold
  split
  · exact ⟨s.dsc.selectionsDue + 1, rfl⟩
  · next h =>
    refine ⟨s.dsc.selectionsDue, ?_⟩
    have hnone : s.dsc.hold = none := by simpa using h
    rw [← hnone]

/-- INIT's state after its aborts. -/
def State.initStopped (s : State) (taken : EngineSet) : State := s.initAnswer.initEvents.postAborts .init taken

/-- R161: what INIT makes of the state that its aborts leave. -/
theorem initPart_eq (s : State) (taken : EngineSet) (c : InCell) :
    ∃ n, s.initPart taken c = { s.initStopped taken with
      queue := (s.initStopped taken).queue.map Record.freed
      tables := Tables.empty
      trunks := Vector.replicate 8 Trunk.reset
      dsc := { (s.initStopped taken).dsc with hold := none, noTrunk := false, selectionsDue := n }
      cmu := { (s.initStopped taken).cmu with
        slot := (s.initStopped taken).cmu.slot.init, periodic := none, silent := false, silenceTimer := none }
      evr := if (s.initStopped taken).dsc.hold.isSome then ((s.initStopped taken).raise (.holdEnded .init)).evr
        else (s.initStopped taken).evr } := by
  obtain ⟨n, hfreed⟩ := releaseHeld_no_tables (s := (s.initStopped taken).initTables) rfl
  obtain ⟨k, hended⟩ := endHold_eq (s.initStopped taken).initTables.releaseHeld .init
  refine ⟨k, ?_⟩
  have hpart : s.initPart taken c = { (s.initStopped taken).initTables.releaseHeld.endHold .init with
      dsc := { ((s.initStopped taken).initTables.releaseHeld.endHold .init).dsc with noTrunk := false } } := rfl
  rw [hpart, hended, hfreed]
  rfl

/-! ### The records through INIT (R25, R47) -/

section
variable {m t : State} (hq : t.queue = m.queue.map Record.freed)
include hq

theorem findRecord_freed (h : Handle) : t.findRecord h = (m.findRecord h).map Record.freed := by
  unfold State.findRecord
  rw [hq, List.find?_map]
  congr 2
  funext r
  simp

theorem mergedAway_freed {h : Handle} {k : Key} (hm : MergedAway m h k) : MergedAway t h k := by
  obtain ⟨hnone, v, hv, hkey, hne, hp, ho⟩ := hm
  have hmem : v.freed ∈ t.queue := by
    rw [hq]
    exact List.mem_map_of_mem hv
  exact ⟨by rw [findRecord_freed hq, hnone]; rfl, v.freed, hmem, by rwa [freed_key], by rwa [freed_handle],
    by rwa [freed_isProtected], by rwa [freed_isInCall]⟩

/-- R47: what became of the records of the aborted calls stands as the HELD records become WAITING. -/
theorem abortedSettled_freed {s : State} {taken : EngineSet} (h : AbortedSettled s m taken) : AbortedSettled s t taken := by
  intro e c ht hw hp g hg r hr hst
  rcases h e c ht hw hp g hg r hr hst with ⟨st, n, p, hf, ho⟩ | hm
  · refine .inl ⟨st, n, p, ?_, ho⟩
    rw [findRecord_freed hq, hf, Option.map_some, freed_of_not_held]
    rcases ho with rfl | rfl <;> rfl
  · exact .inr (mergedAway_freed hq hm)

theorem staysOpen_freed {h : Handle} {r : Record} (hst : StaysOpen h r m) :
    ∃ n p, t.findRecord h =
      some { r with state := if r.state.isHeld then .waiting else r.state, repeats := n, isProtected := p } := by
  obtain ⟨n, p, hf⟩ := hst
  refine ⟨n, p, ?_⟩
  rw [findRecord_freed hq, hf, Option.map_some, Record.freed]
  cases hs : r.state.isHeld with
  | false => rfl
  | true => rfl

end

theorem abortedSettled_congr {s m t : State} {taken : EngineSet} (he : m.engines = s.engines) (hq : m.queue = s.queue)
    (h : AbortedSettled m t taken) : AbortedSettled s t taken := by
  intro e c ht hw hp g hg r hr hst
  rw [← engine_of_engines he] at hw hp
  rw [← findRecord_of_queue hq] at hr
  exact h e c ht hw hp g hg r hr hst

end Sys2Proof.Machine

namespace Sys2Proof.Machine
open Sys2Proof Sys2Proof.Machine

/-! ### INIT's state before its aborts (R161, stages 1 and 2) -/

section
variable {s : State} {c : InCell} {code : Nat} {taken : EngineSet}

theorem initAnswer_ccp (hc : s.heldCommand code = some c) : s.initAnswer.ccp =
    { s.ccp with inHand := none, initWait := true, answers := s.ccp.answers ++ [⟨c.tag, .answer 5 .done [], true⟩] } := by
  show { (s.replyWith (.answer 5 .done []) true).ccp with initWait := true } = _
  rw [replyWith_ccp (inHand_of_heldCommand hc).1]

theorem initStopped_engines (s : State) : s.initAnswer.initEvents.engines = s.engines := replyWith_engines _ _ _

theorem initStopped_queue (s : State) : s.initAnswer.initEvents.queue = s.queue := replyWith_queue _ _ _

/-- R163: every event record as after reset. -/
theorem initEvents_record (s : State) (k : EventKind) : vget s.initEvents.evr.records k = EventRecord.reset := by
  show vget (Vector.replicate 16 EventRecord.reset) k = _
  simp

theorem initAnswer_cmu (s : State) : s.initAnswer.cmu = s.cmu := replyWith_cmu _ _ _

end

end Sys2Proof.Machine

namespace Sys2Proof.Proofs
open Sys2Proof Sys2Proof.Machine

/-- R72: ABORT_CALLS. -/
theorem abortCallsEffect {s : State} {c : InCell} (taken : EngineSet) (hlow : s.resetLow = false) (hq : QueueSound s)
    (hc : s.heldCommand 9 = some c) : ∃ t, exec (.abortCalls taken) s = .next t ∧ AbortedSettled s t taken ∧
      (∀ r ∈ s.queue, r.state.isInCall = false →
        ∃ n p, t.findRecord r.handle = some { r with repeats := n, isProtected := p }) ∧
      ((∀ r ∈ s.queue, r.state.isInCall = false) → t.queue = s.queue) ∧
      t.ccp = { s.ccp with inHand := none, answers := s.ccp.answers ++ [⟨c.tag, .answer 5 .done [], false⟩] } ∧
      TestsAborted s t taken (fun w => w.call.isSome) (fun k => vget s.evr.records k) ∧
      t.hwi = s.hwi ∧ t.clock = s.clock ∧ t.pending = s.pending ∧
      ∀ e, ((s.engine e).work.call.isSome = true → (s.engine e).phase ≠ .closing →
          (takes taken e = true → (t.engine e).phase = .idle ∧ (t.engine e).work = .nothing) ∧
          (takes taken e = false → (t.engine e).abort = some .abortCalls ∧ (t.engine e).phase = (s.engine e).phase)) ∧
        ((s.engine e).work.call = none → t.engine e = s.engine e) := by
  obtain ⟨m, hm⟩ : ∃ m, m = s.postAborts .abortCalls taken := ⟨_, rfl⟩
  obtain ⟨hhand, hkind⟩ := inHand_of_heldCommand hc
  have hreply : m.ccp.inHand = some c := by rw [hm, postAborts_ccp, hhand]
  obtain ⟨t, ht⟩ : ∃ t, t = m.answer .done [] := ⟨_, rfl⟩
  have hqueue : t.queue = m.queue := by rw [ht, answer_queue]
  have hengine : ∀ e, t.engine e = m.engine e := fun e => by rw [ht, answer_engine]
  have hcmu : t.cmu = m.cmu := by rw [ht, answer_cmu]
  have hevr : t.evr = m.evr := by rw [ht, answer_evr]
  refine ⟨t, ?_, ?_, fun r hr hout => ?_, fun hno => ?_, ?_, ?_, ?_, ?_, ?_, fun e => ⟨fun hcall hp => ?_, fun hnone => ?_⟩⟩
  · rw [ht, hm]
    exact run_command hlow hc fun s _ => (s.postAborts .abortCalls taken).answer .done []
  · intro e k htk hw hp h hh r hr hst
    have hsettled := postAborts_settled (cause := .abortCalls) hq e k htk hw hp h hh r hr hst
    rw [← hm] at hsettled
    exact StandsAs.congr hsettled hqueue
  · obtain ⟨n, p, hf⟩ := postAborts_open (cause := .abortCalls) (taken := taken) hq hr hout
    rw [← hm] at hf
    exact ⟨n, p, (findRecord_of_queue hqueue _).trans hf⟩
  · rw [hqueue, hm, postAborts_queue hq hno]
  · rw [ht, answer_ccp hreply, hkind, hm, postAborts_ccp]
  · have htests := postAborts_tests s .abortCalls taken (reaches := fun w => w.call.isSome) fun w _ _ => by cases w <;> rfl
    rw [← hm] at htests
    exact htests.congr rfl rfl rfl rfl (fun h => by rw [hcmu, h]) (by rw [hcmu]) (by rw [hevr]) (by rw [hevr])
  · rw [ht, answer_hwi, hm, postAborts_hwi]
  · rw [ht, answer_clock, hm, postAborts_clock]
  · rw [ht, answer_pending, hm, postAborts_pending]
  · rw [hengine, hm]
    exact postAborts_turn (reaches_abortCalls_of_call hcall) hp
  · rw [hengine, hm, abortCalls_engine hnone]

/-- R161: INIT. -/
theorem initEffect {s : State} {c : InCell} (taken : EngineSet) (hlow : s.resetLow = false) (hq : QueueSound s)
    (hc : s.heldCommand 14 = some c) : ∃ t, exec (.init taken) s = .next t ∧ AbortedSettled s t taken ∧
      (∀ r ∈ s.queue, r.state.isInCall = false → ∃ n p, t.findRecord r.handle =
        some { r with state := if r.state.isHeld then .waiting else r.state, repeats := n, isProtected := p }) ∧
      ((∀ r ∈ s.queue, r.state.isInCall = false) →
        t.queue = s.queue.map fun r => if r.state.isHeld then { r with state := .waiting } else r) ∧
      t.ccp = { s.ccp with inHand := none, initWait := true,
                           answers := s.ccp.answers ++ [⟨c.tag, .answer 5 .done [], true⟩] } ∧
      t.tables = Tables.empty ∧ (∀ u, t.trunk u = Trunk.reset) ∧ t.dsc.hold = none ∧ t.dsc.noTrunk = false ∧
      t.cmu.periodic = none ∧ t.cmu.silent = false ∧ t.cmu.silenceTimer = none ∧
      (∀ k n, s.cmu.slot = .held k n → t.cmu.slot = .empty) ∧ t.evr.emission = none ∧
      TestsAborted s t taken (fun _ => true) (fun _ => EventRecord.reset) ∧
      (TrunksSound s → ∀ k : EventKind, k ∉ ([8, 9, 12, 13] : List EventKind) →
        vget t.evr.records k = EventRecord.reset) ∧
      (∀ k : EventKind, (vget t.evr.records k).enabled = true) ∧
      (vget t.evr.records 13 = if s.dsc.hold.isSome then EventRecord.reset.occur (.holdEnded .init)
        else EventRecord.reset) ∧
      (∀ r ∈ t.queue, r.state.isHeld = false) ∧ t.hwi = s.hwi ∧ t.clock = s.clock ∧ t.pending = s.pending ∧
      ∀ e, (s.engine e).work ≠ .nothing → (s.engine e).phase ≠ .closing →
        (takes taken e = true → (t.engine e).phase = .idle ∧ (t.engine e).work = .nothing) ∧
        (takes taken e = false → (t.engine e).abort = some .init ∧ (t.engine e).phase = (s.engine e).phase) := by
  obtain ⟨b, hb⟩ : ∃ b, b = s.initAnswer.initEvents := ⟨_, rfl⟩
  have hbe : b.engines = s.engines := by rw [hb, initStopped_engines]
  have hbq : b.queue = s.queue := by rw [hb, initStopped_queue]
  have hbcmu : b.cmu = s.cmu := by rw [hb]; exact initAnswer_cmu s
  have hbevr : ∀ k, vget b.evr.records k = EventRecord.reset := fun k => by rw [hb]; exact initEvents_record _ k
  have hbhold : b.dsc.hold = s.dsc.hold := by rw [hb]; exact congrArg Dsc.hold (replyWith_dsc s _ _)
  have hbsound : QueueSound b := queueSound_congr hbq hq
  obtain ⟨m, hm⟩ : ∃ m, m = b.postAborts .init taken := ⟨_, rfl⟩
  have hstop : s.initStopped taken = m := by rw [hm, hb]; rfl
  have haside := postAborts_asideKept b .init taken
  rw [← hm] at haside
  have hhold : m.dsc.hold = s.dsc.hold := haside.hold.trans hbhold
  obtain ⟨n, ht⟩ := initPart_eq s taken c
  rw [hstop] at ht
  obtain ⟨t, hteq⟩ : ∃ t, t = s.initPart taken c := ⟨_, rfl⟩
  rw [← hteq] at ht
  have hqueue : t.queue = m.queue.map Record.freed := by rw [ht]
  have hengine : ∀ e, t.engine e = m.engine e := fun e => by rw [ht]; cases e <;> rfl
  have hother : ∀ k : EventKind, k ≠ 13 → vget t.evr.records k = vget m.evr.records k := fun k hk => by
    rw [ht]
    dsimp only
    split
    · exact raise_record_other _ (.holdEnded .init) (show k ≠ 13 from hk)
    · rfl
  have hmheld : vget m.evr.records 13 = EventRecord.reset := by
    rw [hm, postAborts_record b .init taken (by decide) (by decide) (by decide) (by decide), hbevr]
  refine ⟨t, ?_, ?_, fun r hr hout => ?_, fun hno => ?_, ?_, ?_, fun u => ?_, ?_, ?_, ?_, ?_, ?_, fun k j hs => ?_, ?_, ?_,
    fun hts k hk => ?_, fun k => ?_, ?_, fun r hr => ?_, ?_, ?_, ?_, fun e hw hp => ?_⟩
  · rw [hteq]
    exact run_command hlow hc (State.initPart taken)
  · have hsettled := postAborts_settled (cause := .init) (taken := taken) hbsound
    rw [← hm] at hsettled
    exact abortedSettled_congr hbe hbq (abortedSettled_freed hqueue hsettled)
  · have hopen := postAborts_open (cause := .init) (taken := taken) hbsound (by rwa [hbq]) hout
    rw [← hm] at hopen
    exact staysOpen_freed hqueue hopen
  · rw [hqueue, hm, postAborts_queue hbsound (by rwa [hbq]), hbq]
    rfl
  · rw [ht]
    show m.ccp = _
    rw [hm, postAborts_ccp, hb]
    exact initAnswer_ccp hc
  · rw [ht]
  · rw [ht]
    show vget (Vector.replicate 8 Trunk.reset) u = _
    simp
  · rw [ht]
  · rw [ht]
  · rw [ht]
  · rw [ht]
  · rw [ht]
  · rw [ht]
    show m.cmu.slot.init = _
    rcases postAborts_slot b .init taken with hslot | hslot
    · rw [hm, hslot, hbcmu, hs]
      rfl
    · rw [hm, hslot]
      rfl
  · have hnone : m.evr.emission = none := haside.emission.trans (by rw [hb]; rfl)
    rw [ht]
    dsimp only
    split
    · exact hnone
    · exact hnone
  · have htests := postAborts_tests b .init taken (reaches := fun _ => true) fun w hw _ => (reaches_of_work (cause := .init) nofun hw).symm
    rw [← hm] at htests
    refine htests.congr hbe (by rw [hbcmu]) (hbevr 8) (hbevr 9) (fun h => ?_) ?_ (hother 8 (by decide)) (hother 9 (by decide))
    · rw [ht]
      show m.cmu.slot.init = _
      rw [h]
      rfl
    · rw [ht]
  · simp only [List.mem_cons, List.not_mem_nil, or_false, not_or] at hk
    obtain ⟨h8, h9, h12, h13⟩ := hk
    have hmanaged : b.WarningsManaged := hts.warningsManaged.congr (by rw [hb]; exact replyWith_trunks _ _ _)
      (by rw [hb]; exact congrArg Tables.trunks (replyWith_tables s _ _))
    rw [hother k h13, hm, (postAborts_managed hmanaged .init taken).1 k h8 h9 h12, hbevr]
  · have henabled : (vget m.evr.records k).enabled = true := by
      rw [hm, postAborts_enabled, hbevr]
      rfl
    rw [ht]
    dsimp only
    split
    · rw [(still_raise m _).enabled, henabled]
    · exact henabled
  · rw [ht, ← hhold]
    dsimp only
    split
    · rw [show (13 : EventKind) = Detail.kind (.holdEnded .init) from rfl, raise_record_same]
      exact congrArg (EventRecord.occur · _) hmheld
    · exact hmheld
  · rw [hqueue] at hr
    obtain ⟨x, -, rfl⟩ := List.mem_map.1 hr
    exact freed_not_held x
  · rw [ht]
    show m.hwi = _
    rw [hm, postAborts_hwi, hb]
    exact replyWith_hwi s _ _
  · rw [ht]
    show m.clock = _
    rw [hm, postAborts_clock, hb]
    exact replyWith_clock s _ _
  · rw [ht]
    show m.pending = _
    rw [hm, postAborts_pending, hb]
    exact replyWith_pending s _ _
  · rw [hengine, hm, ← engine_of_engines hbe]
    rw [← engine_of_engines hbe] at hw hp
    exact postAborts_turn (reaches_of_work nofun hw) hp

/-- Settles O58: the abort of both engines, and for INIT the stages before and after it. -/
theorem abortCallsAndInit : Obligations.AbortCallsAndInit :=
  fun _ _ taken hlow hq => ⟨fun hc => abortCallsEffect taken hlow hq hc, fun hc => initEffect taken hlow hq hc⟩

end Sys2Proof.Proofs

namespace Sys2Proof.Machine
open Sys2Proof Sys2Proof.Machine

/-! ### The channel at the loss of sync (R178, R167, R170) -/

section
variable {s : State}

/-- The port of a part whose cell in emission is discarded. -/
def Ccp.hunting (x : Ccp) : Ccp := { x with assembler := .hunt, emitter := .idle }

theorem channelLost_idle (h : s.ccp.emitter = .idle) : s.channelLost = { s with ccp := s.ccp.hunting } := by
  have hend : s.endEmission = s := by rw [State.endEmission, h]
  rw [State.channelLost, hend, h]
  rfl

theorem channelLost_answer {w : Word} {ws : List Word} (h : s.ccp.emitter = .emitting (.answer none) (w :: ws)) :
    s.channelLost = { s with ccp := s.ccp.hunting } := by
  have hend : s.endEmission = s := by rw [State.endEmission, h]
  rw [State.channelLost, hend, h]
  rfl

theorem channelLost_status {f : StickyFlags} {w : Word} {ws : List Word}
    (h : s.ccp.emitter = .emitting (.answer (some f)) (w :: ws)) :
    s.channelLost = { s with ccp := { s.ccp.hunting with flags := s.ccp.flags.join f } } := by
  have hend : s.endEmission = s := by rw [State.endEmission, h]
  rw [State.channelLost, hend, h]
  rfl

theorem channelLost_event {w : Word} {ws : List Word} (h : s.ccp.emitter = .emitting .event (w :: ws)) :
    s.channelLost = { s with ccp := s.ccp.hunting, evr := s.evr.restored } := by
  have hend : s.endEmission = s := by rw [State.endEmission, h]
  rw [State.channelLost, hend, h]
  rfl

theorem channelLost_answer_sent {took : Option StickyFlags} (h : s.ccp.emitter = .emitting (.answer took) []) :
    s.channelLost = { s with ccp := s.endEmission.ccp.hunting } := by
  have hsent : s.endEmission = { s with ccp := s.endEmission.ccp } ∧ s.endEmission.ccp.emitter = .idle := by
    unfold State.endEmission
    rw [h]
    dsimp only
    split
    · split <;> exact ⟨rfl, rfl⟩
    · exact ⟨rfl, rfl⟩
  obtain ⟨hsame, hidle⟩ := hsent
  rw [State.channelLost, hidle]
  rw [hsame]
  rfl

theorem channelLost_event_sent (h : s.ccp.emitter = .emitting .event []) :
    s.channelLost = { s with ccp := s.ccp.hunting, evr := { s.evr with emission := none } } := by
  have hend : s.endEmission = { s with ccp := { s.ccp with emitter := .idle }, evr := { s.evr with emission := none } } := by
    rw [State.endEmission, h]
  rw [State.channelLost, hend]
  rfl

/-- R178: the loss of sync at the channel changes the port and the Event Reporter alone, and the assembler hunts. -/
theorem channelLost_port (s : State) :
    s.channelLost = { s with ccp := s.channelLost.ccp, evr := s.channelLost.evr } ∧
      s.channelLost.ccp.assembler = .hunt ∧ s.channelLost.ccp.emitter = .idle := by
  cases h : s.ccp.emitter with
  | idle => rw [channelLost_idle h]; exact ⟨rfl, rfl, rfl⟩
  | emitting src ws =>
    cases ws with
    | nil =>
      cases src with
      | answer took => rw [channelLost_answer_sent h]; exact ⟨rfl, rfl, rfl⟩
      | event => rw [channelLost_event_sent h]; exact ⟨rfl, rfl, rfl⟩
    | cons w ws =>
      cases src with
      | answer took =>
        cases took with
        | none => rw [channelLost_answer h]; exact ⟨rfl, rfl, rfl⟩
        | some f => rw [channelLost_status h]; exact ⟨rfl, rfl, rfl⟩
      | event => rw [channelLost_event h]; exact ⟨rfl, rfl, rfl⟩

/-- R167: only an EVENT cell in emission gives back events. -/
theorem channelLost_records (h : ∀ w ws, s.ccp.emitter ≠ .emitting .event (w :: ws)) :
    s.channelLost.evr.records = s.evr.records := by
  cases he : s.ccp.emitter with
  | idle => rw [channelLost_idle he]
  | emitting src ws =>
    cases ws with
    | nil =>
      cases src with
      | answer took => rw [channelLost_answer_sent he]
      | event => rw [channelLost_event_sent he]
    | cons w ws =>
      cases src with
      | answer took =>
        cases took with
        | none => rw [channelLost_answer he]
        | some f => rw [channelLost_status he]
      | event => exact absurd he (h w ws)

/-- R167: a snapshot that names each kind once gives back the count of the one entry of a kind. -/
theorem foldl_restore_record (k : EventKind) (l : List SnapEntry) (rs : Vector EventRecord 16)
    (hn : (l.map SnapEntry.kind).Nodup) :
    vget (l.foldl (fun rs n => vput rs n.kind ((vget rs n.kind).restore n.count)) rs) k =
      match l.find? fun n => n.kind == k with
      | some n => (vget rs k).restore n.count
      | none => vget rs k := by
  induction l generalizing rs with
  | nil => rfl
  | cons n l ih =>
    obtain ⟨hnot, hrest⟩ := List.nodup_cons.1 (by simpa using hn : ((n.kind :: l.map SnapEntry.kind)).Nodup)
    rw [List.foldl_cons, ih _ hrest, List.find?_cons]
    by_cases hk : n.kind = k
    · subst hk
      have hnone : l.find? (fun m => m.kind == n.kind) = none := by
        refine List.find?_eq_none.2 fun m hm hkm => hnot ?_
        rw [← eq_of_beq hkm]
        exact List.mem_map_of_mem hm
      rw [hnone, beq_self_eq_true]
      exact vget_vput_same _ _ _
    · rw [vget_vput_other _ _ (Ne.symm hk), beq_false_of_ne hk]

/-- R167: what is given back of a kind's events. -/
theorem restored_record {x : Evr} {m : Emission} (hm : x.emission = some m) (hn : (m.entries.map SnapEntry.kind).Nodup)
    (k : EventKind) : vget x.restored.records k =
      match m.entries.find? fun n => n.kind == k && m.restore.contains k with
      | some n => (vget x.records k).restore n.count
      | none => vget x.records k := by
  have hfilter : ((m.entries.filter fun n => m.restore.contains n.kind).map SnapEntry.kind).Nodup :=
    hn.sublist (List.filter_sublist.map _)
  have hfind : (m.entries.filter fun n => m.restore.contains n.kind).find? (fun n => n.kind == k) =
      m.entries.find? fun n => n.kind == k && m.restore.contains k := by
    rw [List.find?_filter]
    congr 1
    funext n
    by_cases hk : n.kind = k
    · simp [hk]
    · simp [hk]
  rw [Evr.restored, hm]
  exact (foldl_restore_record k _ _ hfilter).trans (by rw [hfind])

/-- R167, R178: each kind's record as the loss of sync at the channel leaves it. -/
theorem channelLost_record (h : EventsSound s) (k : EventKind) : vget s.channelLost.evr.records k = s.recordAtLoss k := by
  by_cases hev : ∃ w ws, s.ccp.emitter = .emitting .event (w :: ws)
  · obtain ⟨w, ws, he⟩ := hev
    rw [channelLost_event he, State.recordAtLoss, he]
    show vget s.evr.restored.records k = _
    cases hm : s.evr.emission with
    | none => rw [Evr.restored, hm]
    | some m =>
      rw [restored_record hm (h.2 m hm).1]
      rfl
  · have hno : ∀ w ws, s.ccp.emitter ≠ .emitting .event (w :: ws) := fun w ws he => hev ⟨w, ws, he⟩
    rw [channelLost_records hno, State.recordAtLoss]
    split
    · next he _ => exact absurd he (hno _ _)
    · rfl

end
end Sys2Proof.Machine

namespace Sys2Proof.Machine
open Sys2Proof Sys2Proof.Machine

/-! ### The detectors at the loss of sync (R95) -/

theorem detectorLost_same (s : State) (e : EngineId) : SameButToneTables s (s.detectorLost e) :=
  (stopListening_spec s e).1.then_modEngine

theorem detectorLost_trunks (s : State) (e : EngineId) : (s.detectorLost e).trunks = s.trunks :=
  (modEngine_trunks _ _ _).trans (stopListening_spec s e).2.1

/-- R95: what an engine holds once its detector holds nothing. -/
def Engine.deaf (x : Engine) : Engine := { x with listening := [], reports := [], detector := Detector.reset }

theorem detectorLost_engine (s : State) (e : EngineId) : (s.detectorLost e).engine e = (s.engine e).deaf := by
  show ((s.stopListening e).modEngine e _).engine e = _
  rw [engine_modEngine_same, stopListening_engine]
  rfl

theorem detectorLost_other (s : State) {e f : EngineId} (h : f ≠ e) : (s.detectorLost e).engine f = s.engine f := by
  show ((s.stopListening e).modEngine e _).engine f = _
  rw [engine_modEngine_other _ _ h]
  exact (stopListening_spec s e).2.2.2 f h

theorem detectorLost_induct {P : State → Prop} (huse : ∀ s ref, P s → P (s.endUse ref))
    (hstill : ∀ s t, s.Still t → P s → P t) (e : EngineId) {s : State} (h : P s) : P (s.detectorLost e) :=
  hstill _ _ (still_modEngine _ _ _) (stopListening_induct huse hstill e h)

/-- R130: what both detectors release is released. -/
def State.detectorsLost (s : State) : State := (s.detectorLost .e0).detectorLost .e1

theorem detectorsLost_trunks (s : State) : s.detectorsLost.trunks = s.trunks :=
  (detectorLost_trunks _ _).trans (detectorLost_trunks _ _)

theorem detectorsLost_engine (s : State) (e : EngineId) : s.detectorsLost.engine e = (s.engine e).deaf := by
  cases e with
  | e0 =>
    have hlast := detectorLost_other (s.detectorLost .e0) (e := .e1) (f := .e0) nofun
    exact hlast.trans (detectorLost_engine s .e0)
  | e1 =>
    have hfirst := detectorLost_other s (e := .e0) (f := .e1) nofun
    exact (detectorLost_engine (s.detectorLost .e0) .e1).trans (congrArg Engine.deaf hfirst)

/-- What the release of both detectors leaves: the edge, the queue, the slot and the monitor, and the events but TABLE_APPLIED. -/
structure State.DetectorsOnly (s t : State) : Prop where
  edge : SameEdge s t
  queue : t.queue = s.queue
  slot : t.cmu.slot = s.cmu.slot
  results : t.cmu.results = s.cmu.results
  silent : t.cmu.silent = s.cmu.silent
  silenceTimer : t.cmu.silenceTimer = s.cmu.silenceTimer
  events : ∀ k : EventKind, k ≠ 12 → vget t.evr.records k = vget s.evr.records k
  emission : t.evr.emission = s.evr.emission

theorem detectorsLost_only (s : State) : s.DetectorsOnly s.detectorsLost := by
  have h0 := detectorLost_same s .e0
  have h1 := detectorLost_same (s.detectorLost .e0) .e1
  exact ⟨⟨h1.edge.pending.trans h0.edge.pending, h1.edge.resetLow.trans h0.edge.resetLow, h1.edge.clock.trans h0.edge.clock,
    h1.edge.hwi.trans h0.edge.hwi, h1.edge.ccp.trans h0.edge.ccp⟩, h1.queue.trans h0.queue, h1.slot.trans h0.slot,
    h1.results.trans h0.results, h1.silent.trans h0.silent, h1.silenceTimer.trans h0.silenceTimer,
    fun k hk => (h1.events k hk).trans (h0.events k hk), h1.emission.trans h0.emission⟩

/-! ### The stages of the loss of sync (R130) -/

/-- R130, R110, R178: the state in which the engines take their aborts. -/
def State.lossTaken (s : State) : State :=
  { s.channelLost with hwi := s.hwi.lost, trunks := vmap (fun _ t => Trunk.syncLost t) s.trunks }

/-- R130: the state with both engines and both detectors stopped. -/
def State.lossStopped (s : State) (taken : EngineSet) : State := (s.lossTaken.postAborts .syncLoss taken).detectorsLost

theorem loseSync_eq (s : State) (taken : EngineSet) : s.loseSync taken = (s.lossStopped taken).raise (.highway false) := by
  obtain ⟨hport, -, -⟩ := channelLost_port s
  have hhwi : s.channelLost.hwi = s.hwi := by rw [hport]
  have htrunks : s.channelLost.trunks = s.trunks := by rw [hport]
  rw [State.lossStopped, State.lossTaken, ← hhwi, ← htrunks]
  rfl

theorem lossTaken_engines (s : State) : s.lossTaken.engines = s.engines := by
  show s.channelLost.engines = _
  rw [(channelLost_port s).1]

theorem lossTaken_queue (s : State) : s.lossTaken.queue = s.queue := by
  show s.channelLost.queue = _
  rw [(channelLost_port s).1]

theorem lossTaken_cmu (s : State) : s.lossTaken.cmu = s.cmu := by
  show s.channelLost.cmu = _
  rw [(channelLost_port s).1]

theorem lossTaken_tables (s : State) : s.lossTaken.tables = s.tables := by
  show s.channelLost.tables = _
  rw [(channelLost_port s).1]

theorem lossTaken_trunk (s : State) (u : TrunkId) : s.lossTaken.trunk u = (s.trunk u).syncLost :=
  vget_vmap (fun _ x => Trunk.syncLost x) s.trunks u

/-- R110: a trunk in WARNING, TAKEN or COOLDOWN. -/
theorem syncLost_cooled {x : Trunk} (h : x.state = .warning ∨ x.state = .taken ∨ x.state = .cooldown) :
    x.syncLost = { x with state := .cooldown, holder := none, warnTimer := none, guard := .pending } := by
  unfold Trunk.syncLost
  rcases h with h | h | h <;> rw [h]

theorem syncLost_else {x : Trunk} (hw : x.state ≠ .warning) (ht : x.state ≠ .taken) (hc : x.state ≠ .cooldown) :
    x.syncLost = x := by
  unfold Trunk.syncLost
  split
  · exact absurd ‹_› hw
  · exact absurd ‹_› ht
  · exact absurd ‹_› hc
  · rfl

/-- R110: no engine holds a trunk from here on. -/
theorem lossTaken_noneHeld (s : State) : s.lossTaken.NoneHeld := by
  intro u
  rw [lossTaken_trunk]
  by_cases h : (s.trunk u).state = .warning ∨ (s.trunk u).state = .taken ∨ (s.trunk u).state = .cooldown
  · rw [syncLost_cooled h]
    exact ⟨nofun, nofun⟩
  · simp only [not_or] at h
    obtain ⟨hw, ht, hc⟩ := h
    rw [syncLost_else hw ht hc]
    exact ⟨hw, ht⟩

theorem lossStopped_trunk (s : State) (taken : EngineSet) (u : TrunkId) :
    (s.lossStopped taken).trunk u = (s.trunk u).syncLost := by
  rw [← lossTaken_trunk]
  exact trunk_of_trunks ((detectorsLost_trunks _).trans (postAborts_noneHeld (lossTaken_noneHeld s) .syncLoss taken)) u

/-- R72: an engine that takes its abort is as after reset. -/
theorem lossStopped_takes {s : State} {taken : EngineSet} {e : EngineId} (hw : (s.engine e).work ≠ .nothing)
    (hp : (s.engine e).phase ≠ .closing) (ht : takes taken e = true) : (s.lossStopped taken).engine e = Engine.reset := by
  rw [← engine_of_engines (lossTaken_engines s)] at hw hp
  have hjoined := postAborts_takes (reaches_of_work (cause := .syncLoss) nofun hw) hp ht
  rw [State.lossStopped, detectorsLost_engine, hjoined.eq_of_no_call rfl]
  rfl

/-- R72: another carries it. -/
theorem lossStopped_carries {s : State} {taken : EngineSet} {e : EngineId} (hw : (s.engine e).work ≠ .nothing)
    (hp : (s.engine e).phase ≠ .closing) (ht : takes taken e = false) :
    ((s.lossStopped taken).engine e).abort = some .syncLoss ∧ ((s.lossStopped taken).engine e).phase = (s.engine e).phase := by
  rw [← engine_of_engines (lossTaken_engines s)] at hw hp ⊢
  have hturn := (postAborts_turn (taken := taken) (reaches_of_work (cause := .syncLoss) nofun hw) hp).2 ht
  rw [State.lossStopped, detectorsLost_engine]
  exact hturn

/-- R163: of the other kinds nothing is told. -/
theorem lossStopped_record (s : State) (taken : EngineSet) {k : EventKind} (h8 : k ≠ 8) (h9 : k ≠ 9) (h12 : k ≠ 12) :
    vget (s.lossStopped taken).evr.records k = vget s.channelLost.evr.records k :=
  ((detectorsLost_only _).events k h12).trans
    ((postAborts_managed (lossTaken_noneHeld s).warningsManaged .syncLoss taken).1 k h8 h9 h12)

theorem lossStopped_only (s : State) (taken : EngineSet) :
    (s.lossTaken.postAborts .syncLoss taken).DetectorsOnly (s.lossStopped taken) := detectorsLost_only _

theorem lossStopped_edge (s : State) (taken : EngineSet) : SameEdge s.lossTaken (s.lossStopped taken) := by
  obtain ⟨hp, hr, hc, hh, hport⟩ := (detectorsLost_only (s.lossTaken.postAborts .syncLoss taken)).edge
  exact ⟨hp.trans (postAborts_pending _ _ _), hr.trans (postAborts_resetLow _ _ _), hc.trans (postAborts_clock _ _ _),
    hh.trans (postAborts_hwi _ _ _), hport.trans (postAborts_ccp _ _ _)⟩

theorem lossStopped_induct {P : State → Prop} (huse : ∀ s ref, P s → P (s.endUse ref))
    (hstill : ∀ s t, s.Still t → P s → P t) {s : State} (taken : EngineSet) (h : P s.lossTaken) : P (s.lossStopped taken) :=
  detectorLost_induct huse hstill .e1 (detectorLost_induct huse hstill .e0 (postAborts_induct huse hstill .syncLoss taken h))

/-! ### The tables and the periodic timer at the loss of sync (R145, R147, R159) -/

/-- R145: with no staged write a use ends without a change. -/
theorem lossStopped_unstaged {s : State} (taken : EngineSet) (h : ∀ ref, s.tables.stagedWrite ref = none) :
    (s.lossStopped taken).tables = s.tables ∧ (s.lossStopped taken).cmu.periodic = s.cmu.periodic := by
  refine lossStopped_induct (P := fun t => t.tables = s.tables ∧ t.cmu.periodic = s.cmu.periodic) (fun t ref ht => ?_)
    (fun m t hst hm => ⟨hst.tables.trans hm.1, hst.periodic.trans hm.2⟩) taken ⟨lossTaken_tables s, by rw [lossTaken_cmu]⟩
  have hend : t.endUse ref = t := by rw [State.endUse, ht.1, h ref]
  rwa [hend]

/-- R159: no periodic timer runs while the tables are not ready. -/
def State.PeriodicWhenReady (s : State) : Prop := s.ready = false → s.cmu.periodic = none

theorem endUse_periodicWhenReady {s : State} (ref : TableRef) (h : s.PeriodicWhenReady) : (s.endUse ref).PeriodicWhenReady := by
  unfold State.endUse
  split
  · next w _ =>
    split
    · exact h
    · intro hready
      rw [State.applyStaged, tellReaders_cmu]
      show State.periodicAfter _ _ = none
      unfold State.periodicAfter
      split
      · rfl
      · have hsame : ((({ s with tables := s.tables.apply w } : State).raise (.tableApplied w.ref)).cause.tellOwner s w).ready =
            (s.applyStaged w).ready := ready_of_tables (by
          rw [State.applyStaged, tellReaders_tables, tellOwner_tables, cause_tables])
        rw [hsame, hready]
        rfl
  · exact h

theorem lossStopped_periodic {s : State} (taken : EngineSet) (h : s.PeriodicWhenReady) :
    (s.lossStopped taken).PeriodicWhenReady := by
  refine lossStopped_induct (fun t ref ht => endUse_periodicWhenReady ref ht) (fun m t hst hm hready => ?_) taken
    (fun hready => ?_)
  · rw [hst.periodic]
    exact hm (by rwa [ready_of_tables hst.tables] at hready)
  · rw [lossTaken_cmu]
    exact h (by rwa [ready_of_tables (lossTaken_tables s)] at hready)

end Sys2Proof.Machine

namespace Sys2Proof.Machine
open Sys2Proof Sys2Proof.Machine

/-! ### The port, the tests and the records after the loss of sync -/

section
variable {s : State} (taken : EngineSet)

theorem loseSync_ccp (s : State) (taken : EngineSet) : (s.loseSync taken).ccp = s.channelLost.ccp := by
  rw [loseSync_eq, raise_ccp, (lossStopped_edge s taken).ccp, State.lossTaken]

/-- R163: an event of another kind than the loss stands as the engines left it. -/
theorem loseSync_record {k : EventKind} (h : k ≠ 15) :
    vget (s.loseSync taken).evr.records k = vget (s.lossStopped taken).evr.records k := by
  rw [loseSync_eq]
  exact raise_record_other _ (.highway false) (show k ≠ 15 from h)

/-- R163: the kinds that neither the tests, the staged writes nor the loss itself tell. -/
theorem loseSync_record_quiet {k : EventKind} (h : k ∉ ([8, 9, 12, 15] : List EventKind)) :
    vget (s.loseSync taken).evr.records k = vget s.channelLost.evr.records k := by
  simp only [List.mem_cons, List.not_mem_nil, or_false, not_or] at h
  obtain ⟨h8, h9, h12, h15⟩ := h
  rw [loseSync_record taken h15, lossStopped_record s taken h8 h9 h12]

/-- R130: HIGHWAY LOST. -/
theorem loseSync_highway (s : State) (taken : EngineSet) :
    vget (s.loseSync taken).evr.records 15 = (vget s.channelLost.evr.records 15).occur (.highway false) := by
  rw [loseSync_eq, show (15 : EventKind) = Detail.kind (.highway false) from rfl, raise_record_same,
    show Detail.kind (.highway false) = (15 : EventKind) from rfl,
    lossStopped_record s taken (by decide) (by decide) (by decide)]

theorem loseSync_emission (s : State) (taken : EngineSet) : (s.loseSync taken).evr.emission = s.channelLost.evr.emission := by
  rw [loseSync_eq, raise_emission, (lossStopped_only s taken).emission,
    (postAborts_asideKept s.lossTaken .syncLoss taken).emission, State.lossTaken]

theorem loseSync_cmu_aside (s : State) (taken : EngineSet) :
    (s.loseSync taken).cmu.silent = s.cmu.silent ∧ (s.loseSync taken).cmu.silenceTimer = s.cmu.silenceTimer := by
  have haborts := postAborts_asideKept s.lossTaken .syncLoss taken
  have honly := lossStopped_only s taken
  rw [loseSync_eq, raise_cmu]
  exact ⟨honly.silent.trans (haborts.silent.trans (by rw [lossTaken_cmu])),
    honly.silenceTimer.trans (haborts.silenceTimer.trans (by rw [lossTaken_cmu]))⟩

/-- R72, R157, R158: the tests that the loss of sync ends. -/
theorem loseSync_tests (h : EventsSound s) : TestsAborted s (s.loseSync taken) taken (fun _ => true) s.recordAtLoss := by
  have htests := postAborts_tests s.lossTaken .syncLoss taken (reaches := fun _ => true)
    fun w hw _ => (reaches_of_work (cause := .syncLoss) nofun hw).symm
  have honly := lossStopped_only s taken
  refine htests.congr (lossTaken_engines s) (by rw [lossTaken_cmu]) (channelLost_record h 8) (channelLost_record h 9)
    (fun hslot => ?_) ?_ ((loseSync_record taken (by decide)).trans (honly.events 8 (by decide)))
    ((loseSync_record taken (by decide)).trans (honly.events 9 (by decide)))
  · rw [loseSync_eq, raise_cmu]
    exact honly.slot.trans hslot
  · rw [loseSync_eq, raise_cmu]
    exact honly.results

/-- R151: where no test ends the slot and the results stand. -/
theorem loseSync_slot (h : ∀ e, takes taken e = false ∨ (s.engine e).phase = .closing ∨ (s.engine e).work = .nothing ∨
    (s.engine e).work.isAlertCall = true) :
    (s.loseSync taken).cmu.slot = s.cmu.slot ∧ (s.loseSync taken).cmu.results = s.cmu.results := by
  have hnone : ∀ e o, (s.lossTaken.engine e).abortOutcomes .syncLoss (takes taken e) o = o := fun e o => by
    rw [engine_of_engines (lossTaken_engines s)]
    refine Engine.abortOutcomes_none ?_ o
    rcases h e with ht | hp | hw | hw
    · exact .inl (by rw [ht, Engine.abortsNow, Bool.and_false])
    · exact .inl (by rw [Engine.abortsNow, hp, bne_self_eq_false, Bool.and_false, Bool.false_and])
    · exact .inr (.inl hw)
    · exact .inr (.inr hw)
  have hout := postAborts_outcomes s.lossTaken .syncLoss taken
  rw [hnone, hnone] at hout
  have honly := lossStopped_only s taken
  rw [loseSync_eq, raise_cmu]
  exact ⟨honly.slot.trans ((congrArg Prod.fst hout).trans (congrArg Cmu.slot (lossTaken_cmu s))),
    honly.results.trans ((congrArg (fun o => o.2.1) hout).trans (congrArg Cmu.results (lossTaken_cmu s)))⟩

/-- R47, R15, R16: the records of the calls that the loss of sync stops. -/
theorem loseSync_settled (hq : QueueSound s) : AbortedSettled s (s.loseSync taken) taken := by
  have hsettled := postAborts_settled (cause := .syncLoss) (taken := taken) (queueSound_congr (lossTaken_queue s) hq)
  refine abortedSettled_congr (lossTaken_engines s) (lossTaken_queue s) fun e c ht hw hp g hg r hr hst => ?_
  have hstands := hsettled e c ht hw hp g hg r hr hst
  refine StandsAs.congr hstands ?_
  rw [loseSync_eq, raise_queue, (lossStopped_only s taken).queue]

/-- R125: the debounced values stand, with their counts at 0. -/
theorem lost_lines (x : Hwi) (u : TrunkId) (sig : LineSignal) :
    (vget x.lost.lines u).get sig = ⟨((vget x.lines u).get sig).value, 0⟩ := by
  unfold Hwi.lost
  dsimp only
  rw [vget_vmap]
  cases sig <;> rfl

/-- R167: a snapshot that names each kind once has one entry of a kind. -/
theorem find_entry {l : List SnapEntry} (hl : (l.map SnapEntry.kind).Nodup) {n : SnapEntry} (hn : n ∈ l) {b : Bool}
    (hb : b = true) : (l.find? fun y => y.kind == n.kind && b) = some n := by
  subst hb
  cases hf : l.find? fun y => y.kind == n.kind && true with
  | none => exact absurd (List.find?_eq_none.1 hf n hn) (by simp)
  | some y =>
    have hkind : y.kind = n.kind := by simpa using List.find?_some hf
    rw [List.inj_on_of_nodup_map hl (List.mem_of_find?_eq_some hf) hn hkind]

end

end Sys2Proof.Machine

namespace Sys2Proof.Proofs
open Sys2Proof Sys2Proof.Machine

/-- Settles O17: the loss of sync stage by stage: the channel, the Highway Interface and the trunks, the aborts, the detectors,
and its event. -/
theorem syncLostEffect : Obligations.SyncLostEffect := by
  intro s x m taken hlow hev hsync hm
  have hexec : exec (.syncLost taken) s = .next (s.loseSync taken) := by
    rw [exec_syncLost hlow, thirdMissed_inSync hsync hm]
  obtain ⟨t, ht⟩ : ∃ t, t = s.loseSync taken := ⟨_, rfl⟩
  have hstop : t = (s.lossStopped taken).raise (.highway false) := ht.trans (loseSync_eq s taken)
  obtain ⟨hpending, hreset, hclock, hhwi, -⟩ := lossStopped_edge s taken
  have hhwi' : t.hwi = s.hwi.lost := by rw [hstop, raise_hwi, hhwi, State.lossTaken]
  have htrunk : ∀ u, t.trunk u = (s.trunk u).syncLost := fun u => by rw [hstop, raise_trunk, lossStopped_trunk]
  have hengine : ∀ e, t.engine e = (s.lossStopped taken).engine e := fun e => by rw [hstop, raise_engine]
  have hccp : t.ccp = s.channelLost.ccp := ht ▸ loseSync_ccp s taken
  have hrecord : ∀ k : EventKind, k ∉ ([8, 9, 12, 15] : List EventKind) →
      vget t.evr.records k = vget s.channelLost.evr.records k := fun k hk => ht ▸ loseSync_record_quiet taken hk
  have hhighway : vget t.evr.records 15 = (vget s.channelLost.evr.records 15).occur (.highway false) :=
    ht ▸ loseSync_highway s taken
  obtain ⟨-, hhunt, hidle⟩ := channelLost_port s
  refine ⟨t, ht ▸ hexec, congrArg Hwi.sync hhwi', congrArg Hwi.tso hhwi', congrArg Hwi.pxo hhwi', congrArg Hwi.grid hhwi',
    congrArg Hwi.lossPreceded hhwi', (congrArg Hwi.applied hhwi' :), (congrArg Hwi.deliveries hhwi' :),
    fun u => ⟨?_, fun sig => ?_⟩, fun u hu => ?_, fun u hw htk hc => ?_,
    fun e => ?_, fun e hw hp => ⟨fun htk => ?_, fun htk => ?_⟩, fun hq => ht ▸ loseSync_settled taken hq, ?_, ?_, ?_, ?_,
    fun he => ⟨?_, ?_⟩, fun w ws he => ?_, fun f w ws he => ?_, fun cell w ws he hcell => ⟨?_, ?_, fun n hn hr hk => ?_,
      fun k hk hno => ?_⟩, fun he k hk => ?_, ht ▸ loseSync_tests taken hev, fun h => ht ▸ loseSync_slot taken h,
    ht ▸ (loseSync_cmu_aside s taken).1, ht ▸ (loseSync_cmu_aside s taken).2, fun h => ?_, fun h => ?_, ?_, ?_, ?_⟩
  · rw [hhwi']
    show vget (Vector.replicate 8 _) u = _
    simp
  · rw [hhwi', lost_lines]
  · rw [htrunk, syncLost_cooled hu]
  · rw [htrunk, syncLost_else hw htk hc]
  · rw [hengine, State.lossStopped, detectorsLost_engine]
    rfl
  · rw [hengine, lossStopped_takes hw hp htk]
  · rw [hengine]
    exact lossStopped_carries hw hp htk
  · rw [hccp, hhunt]
  · rw [hccp, hidle]
  · rw [hhighway]
    rfl
  · rw [hhighway]
    rfl
  · rw [hccp, channelLost_idle he]
    show s.ccp.hunting = _
    rw [Ccp.hunting, ← he]
  · rw [hhighway, channelLost_idle he]
  · rw [hccp, channelLost_answer he]
    rfl
  · rw [hccp, channelLost_status he]
    rfl
  · rw [hccp, channelLost_event he]
    rfl
  · have hemission : t.evr.emission = s.channelLost.evr.emission := ht ▸ loseSync_emission s taken
    rw [hemission, channelLost_event he]
    show s.evr.restored.emission = none
    rw [Evr.restored, hcell]
  · rw [hrecord _ hk, channelLost_event he]
    show vget s.evr.restored.records n.kind = _
    have hfind : cell.entries.find? (fun y => y.kind == n.kind && cell.restore.contains n.kind) = some n :=
      find_entry (hev.2 cell hcell).1 hn (by rwa [List.contains_iff_mem])
    rw [restored_record hcell (hev.2 cell hcell).1, hfind]
    rfl
  · rw [hrecord _ hk, channelLost_event he]
    show vget s.evr.restored.records k = _
    have hfind : cell.entries.find? (fun y => y.kind == k && cell.restore.contains k) = none := by
      refine List.find?_eq_none.2 fun y hy hyk => ?_
      rw [Bool.and_eq_true, beq_iff_eq, List.contains_iff_mem] at hyk
      exact hno y hy hyk.1 hyk.2
    rw [restored_record hcell (hev.2 cell hcell).1, hfind]
  · rw [hrecord _ hk, channelLost_records he]
  · rw [hstop, raise_tables, raise_cmu]
    exact lossStopped_unstaged taken h
  · intro hready
    rw [hstop, ready_of_tables (raise_tables _ _)] at hready
    rw [hstop, raise_cmu]
    exact lossStopped_periodic taken h hready
  · rw [hstop, raise_pending, hpending, State.lossTaken, (channelLost_port s).1]
  · rw [hstop, raise_resetLow, hreset, State.lossTaken, (channelLost_port s).1]
  · rw [hstop, raise_clock, hclock, State.lossTaken, (channelLost_port s).1]

end Sys2Proof.Proofs
